-- ==== Sys2Proof/Word.lean ====
section
/-! DEFINITION. The word types of the S4 and the plainest arithmetic on them (spec/00 R3, spec/04 R77). -/

namespace Sys2Proof

/-- A 64-bit register or address. -/
abbrev Word := BitVec 64

/-- One byte. -/
abbrev Byte := BitVec 8

/-- A sequencer core by its physical number: die x 34 + physical cluster, times 8, plus CORENO (R394). -/
abbrev CoreId := Fin 1088

/-- A physical cluster: die x 34 + n (R394). -/
abbrev ClusterId := Fin 136

/-- A number 0-7: a core of a cluster, a team slot (barrier bank), a bank group. -/
abbrev Slot := Fin 8

/-- A compute die. -/
abbrev DieId := Fin 4

/-- A T1 stack. -/
abbrev StackId := Fin 8

/-- A service core: die x 4 + quadrant (R9). -/
abbrev ServiceId := Fin 16

/-- `sext(x, n)` of R77. -/
def sext {n : Nat} (x : BitVec n) : Word := x.signExtend 64

/-- `zext(x, n)` of R77. -/
def zext {n : Nat} (x : BitVec n) : Word := x.setWidth 64

/-- Bits `lo + w - 1` down to `lo` of `x`. -/
def bits {n : Nat} (x : BitVec n) (lo w : Nat) : BitVec w := x.extractLsb' lo w

/-- A condition as the number 1 or 0. -/
def ofBool (b : Bool) : Word := if b then 1 else 0

end Sys2Proof
end

