-- ==== Sys2Proof/Names.lean ====
section
/-! DEFINITION. The closed sets of names that operands and state use: privilege, scopes, engines, requesters. -/

namespace Sys2Proof

/-- The privilege levels of a sequencer core (R101); levels 2 and 3 never run there. -/
inductive Priv where
  | user
  | supervisor
  deriving DecidableEq, Repr

/-- The scopes a command may name (R53, R59). -/
inductive Scope where
  | team
  | cluster
  | die
  | package
  | fabric
  | system
  deriving DecidableEq, Repr

/-- The acquire and release requests of a command header (R59). -/
structure Hdr where
  acq : Option Scope
  rel : Option Scope
  deriving DecidableEq, Repr

/-- The four engines of a cluster (R11). -/
inductive Engine where
  | arr
  | cpy
  | col
  | agt
  deriving DecidableEq, Repr

/-- Who makes a register access: a host port or a service core (R379). -/
inductive Requester where
  | port (p : Fin 2)
  | service (s : ServiceId)
  deriving DecidableEq, Repr

/-- A queue in which requests wait on their way to a home (R52, R334). -/
inductive QueueId where
  | gateway (src dst : DieId)
  | stack (st : StackId)
  | hostPort (p : Fin 2)
  deriving DecidableEq, Repr

/-- Where an acceptance takes its request from: a core's store buffer, or a queue on the way. -/
inductive StoreSource where
  | core (c : CoreId)
  | queue (q : QueueId)
  deriving DecidableEq, Repr

/-- The receiver of a cluster message (R153, R383). -/
inductive MsgDest where
  | core (c : CoreId)
  | service (s : ServiceId)
  deriving DecidableEq, Repr

/-- The two address spaces of a pointer (R99). -/
inductive Space where
  | spm
  | acc
  deriving DecidableEq, Repr

/-- One 256-bit command word (R87). -/
structure CmdWord where
  w0 : BitVec 32
  w1 : BitVec 32
  w2 : BitVec 32
  w3 : BitVec 32
  w4 : BitVec 32
  w5 : BitVec 32
  w6 : BitVec 32
  w7 : BitVec 32
  deriving DecidableEq, Repr

end Sys2Proof
end

