-- ==== Sys2Proof/Syntax.lean ====
section
/-! DEFINITION. The instruction set: one constructor per row of the opcode table (spec/04 R83-R89, spec/95). -/

namespace Sys2Proof

/-- Lorrek: 226 instruction words of 32 bits, 19 engine commands of 256 bits, 82 indivisible steps of the
machine's own agents and of its host, and 4 instructions of the Rannen port. Operands are named as the table's
fields are: d, a, b, c registers; i, s, t immediates; r a control register; e an engine; f an element format;
m a mask; p precision or mask policy; n no reply; w the 32-bit form; h a command header. The order is: words and
commands with operands, events with operands, then every row without operands. -/
inductive Instr where
  /-- R127: Writes the 64-bit wrapped sum of two g registers. -/
  | add (d : BitVec 5) (a : BitVec 5) (b : BitVec 5)
  /-- R127: Writes the 64-bit wrapped difference of two g registers. -/
  | sub (d : BitVec 5) (a : BitVec 5) (b : BitVec 5)
  /-- R127: Writes the bitwise AND of two g registers. -/
  | and (d : BitVec 5) (a : BitVec 5) (b : BitVec 5)
  /-- R127: Writes the bitwise OR of two g registers. -/
  | or (d : BitVec 5) (a : BitVec 5) (b : BitVec 5)
  /-- R127: Writes the bitwise XOR of two g registers. -/
  | xor (d : BitVec 5) (a : BitVec 5) (b : BitVec 5)
  /-- R127: Shifts g[a] left by g[b][5:0]. -/
  | sll (d : BitVec 5) (a : BitVec 5) (b : BitVec 5)
  /-- R127: Shifts g[a] right logically by g[b][5:0]. -/
  | srl (d : BitVec 5) (a : BitVec 5) (b : BitVec 5)
  /-- R127: Shifts g[a] right arithmetically by g[b][5:0]. -/
  | sra (d : BitVec 5) (a : BitVec 5) (b : BitVec 5)
  /-- R127: Writes 1 if g[a] is less than g[b] as signed, else 0. -/
  | slt (d : BitVec 5) (a : BitVec 5) (b : BitVec 5)
  /-- R127: Writes 1 if g[a] is less than g[b] as unsigned, else 0. -/
  | sltu (d : BitVec 5) (a : BitVec 5) (b : BitVec 5)
  /-- R127: Writes the signed minimum of two g registers. -/
  | min (d : BitVec 5) (a : BitVec 5) (b : BitVec 5)
  /-- R127: Writes the signed maximum of two g registers. -/
  | max (d : BitVec 5) (a : BitVec 5) (b : BitVec 5)
  /-- R127: Writes the unsigned minimum of two g registers. -/
  | minu (d : BitVec 5) (a : BitVec 5) (b : BitVec 5)
  /-- R127: Writes the unsigned maximum of two g registers. -/
  | maxu (d : BitVec 5) (a : BitVec 5) (b : BitVec 5)
  /-- R127: Rotates g[a] right by g[b][5:0]. -/
  | ror (d : BitVec 5) (a : BitVec 5) (b : BitVec 5)
  /-- R127: Counts leading zero bits of g[a]. -/
  | clz (d : BitVec 5) (a : BitVec 5)
  /-- R127: Counts trailing zero bits of g[a]. -/
  | ctz (d : BitVec 5) (a : BitVec 5)
  /-- R127: Counts one bits of g[a]. -/
  | popc (d : BitVec 5) (a : BitVec 5)
  /-- R128: Adds a sign-extended 16-bit immediate to g[a]. -/
  | addi (d : BitVec 5) (a : BitVec 5) (i : BitVec 16)
  /-- R128: ANDs g[a] with a zero-extended immediate. -/
  | andi (d : BitVec 5) (a : BitVec 5) (i : BitVec 16)
  /-- R128: ORs g[a] with a zero-extended immediate. -/
  | ori (d : BitVec 5) (a : BitVec 5) (i : BitVec 16)
  /-- R128: XORs g[a] with a zero-extended immediate. -/
  | xori (d : BitVec 5) (a : BitVec 5) (i : BitVec 16)
  /-- R128: Signed compare of g[a] with a sign-extended immediate. -/
  | slti (d : BitVec 5) (a : BitVec 5) (i : BitVec 16)
  /-- R128: Unsigned compare of g[a] with a sign-extended immediate. -/
  | sltiu (d : BitVec 5) (a : BitVec 5) (i : BitVec 16)
  /-- R129: Shifts g[a] left by an immediate amount. -/
  | slli (d : BitVec 5) (a : BitVec 5) (s : BitVec 6)
  /-- R129: Shifts g[a] right logically by an immediate amount. -/
  | srli (d : BitVec 5) (a : BitVec 5) (s : BitVec 6)
  /-- R129: Shifts g[a] right arithmetically by an immediate amount. -/
  | srai (d : BitVec 5) (a : BitVec 5) (s : BitVec 6)
  /-- R129: Rotates g[a] right by an immediate amount. -/
  | rori (d : BitVec 5) (a : BitVec 5) (s : BitVec 6)
  /-- R130: Writes the sign-extended immediate shifted left by 16. -/
  | lui (d : BitVec 5) (i : BitVec 16)
  /-- R130: Writes PC plus the sign-extended immediate shifted left by 16. -/
  | addpc (d : BitVec 5) (i : BitVec 16)
  /-- R131: Writes the low 64 bits of the product. -/
  | mul (d : BitVec 5) (a : BitVec 5) (b : BitVec 5)
  /-- R131: Writes the high 64 bits of the signed product. -/
  | mulh (d : BitVec 5) (a : BitVec 5) (b : BitVec 5)
  /-- R131: Writes the high 64 bits of the unsigned product. -/
  | mulhu (d : BitVec 5) (a : BitVec 5) (b : BitVec 5)
  /-- R131: Writes the high 64 bits of the signed-by-unsigned product. -/
  | mulhsu (d : BitVec 5) (a : BitVec 5) (b : BitVec 5)
  /-- R132: Signed division truncating toward zero, saturating without trap. -/
  | div (d : BitVec 5) (a : BitVec 5) (b : BitVec 5)
  /-- R132: Unsigned division, saturating on a zero divisor. -/
  | divu (d : BitVec 5) (a : BitVec 5) (b : BitVec 5)
  /-- R132: Signed remainder with the sign of the dividend. -/
  | rem (d : BitVec 5) (a : BitVec 5) (b : BitVec 5)
  /-- R132: Unsigned remainder. -/
  | remu (d : BitVec 5) (a : BitVec 5) (b : BitVec 5)
  /-- R133: Loads a sign-extended byte. -/
  | ldb (d : BitVec 5) (a : BitVec 5) (i : BitVec 16)
  /-- R133: Loads a zero-extended byte. -/
  | ldbu (d : BitVec 5) (a : BitVec 5) (i : BitVec 16)
  /-- R133: Loads a sign-extended half-word. -/
  | ldh (d : BitVec 5) (a : BitVec 5) (i : BitVec 16)
  /-- R133: Loads a zero-extended half-word. -/
  | ldhu (d : BitVec 5) (a : BitVec 5) (i : BitVec 16)
  /-- R133: Loads a sign-extended word. -/
  | ldw (d : BitVec 5) (a : BitVec 5) (i : BitVec 16)
  /-- R133: Loads a zero-extended word. -/
  | ldwu (d : BitVec 5) (a : BitVec 5) (i : BitVec 16)
  /-- R133: Loads a doubleword. -/
  | ld (d : BitVec 5) (a : BitVec 5) (i : BitVec 16)
  /-- R133: Stores the low byte of g[d]. -/
  | stb (d : BitVec 5) (a : BitVec 5) (i : BitVec 16)
  /-- R133: Stores the low half-word of g[d]. -/
  | sth (d : BitVec 5) (a : BitVec 5) (i : BitVec 16)
  /-- R133: Stores the low word of g[d]. -/
  | stw (d : BitVec 5) (a : BitVec 5) (i : BitVec 16)
  /-- R133: Stores the doubleword g[d]. -/
  | st (d : BitVec 5) (a : BitVec 5) (i : BitVec 16)
  /-- R133: Loads a word into bits 31:0 of an f register. -/
  | fldw (d : BitVec 5) (a : BitVec 5) (i : BitVec 16)
  /-- R133: Loads a doubleword into an f register. -/
  | fldd (d : BitVec 5) (a : BitVec 5) (i : BitVec 16)
  /-- R133: Stores bits 31:0 of an f register. -/
  | fstw (d : BitVec 5) (a : BitVec 5) (i : BitVec 16)
  /-- R133: Stores an f register as a doubleword. -/
  | fstd (d : BitVec 5) (a : BitVec 5) (i : BitVec 16)
  /-- R137: Stores a range of g registers to ascending doublewords, restartable through MPROG. -/
  | savemG (d : BitVec 5) (a : BitVec 5) (b : BitVec 5)
  /-- R137: Loads a range of g registers from ascending doublewords, restartable through MPROG. -/
  | loadmG (d : BitVec 5) (a : BitVec 5) (b : BitVec 5)
  /-- R137: Stores a range of f registers to ascending doublewords. -/
  | savemF (d : BitVec 5) (a : BitVec 5) (b : BitVec 5)
  /-- R137: Loads a range of f registers from ascending doublewords. -/
  | loadmF (d : BitVec 5) (a : BitVec 5) (b : BitVec 5)
  /-- R140: Branches when g[a] equals g[b]. -/
  | beq (a : BitVec 5) (b : BitVec 5) (i : BitVec 16)
  /-- R140: Branches when g[a] differs from g[b]. -/
  | bne (a : BitVec 5) (b : BitVec 5) (i : BitVec 16)
  /-- R140: Branches when g[a] is less than g[b], signed. -/
  | blt (a : BitVec 5) (b : BitVec 5) (i : BitVec 16)
  /-- R140: Branches when g[a] is at least g[b], signed. -/
  | bge (a : BitVec 5) (b : BitVec 5) (i : BitVec 16)
  /-- R140: Branches when g[a] is less than g[b], unsigned. -/
  | bltu (a : BitVec 5) (b : BitVec 5) (i : BitVec 16)
  /-- R140: Branches when g[a] is at least g[b], unsigned. -/
  | bgeu (a : BitVec 5) (b : BitVec 5) (i : BitVec 16)
  /-- R141: Jumps PC-relative and writes the link address. -/
  | jal (d : BitVec 5) (i : BitVec 21)
  /-- R141: Jumps to g[a] plus an offset and writes the link address. -/
  | jalr (d : BitVec 5) (a : BitVec 5) (i : BitVec 16)
  /-- R143: Floating-point add in FP32 or FP64, rounded in FROUND. -/
  | fadd (d : BitVec 5) (a : BitVec 5) (b : BitVec 5) (p : Bool)
  /-- R143: Floating-point subtract in FP32 or FP64. -/
  | fsub (d : BitVec 5) (a : BitVec 5) (b : BitVec 5) (p : Bool)
  /-- R143: Floating-point multiply in FP32 or FP64. -/
  | fmul (d : BitVec 5) (a : BitVec 5) (b : BitVec 5) (p : Bool)
  /-- R143: Floating-point divide in FP32 or FP64. -/
  | fdiv (d : BitVec 5) (a : BitVec 5) (b : BitVec 5) (p : Bool)
  /-- R143: Floating-point square root in FP32 or FP64. -/
  | fsqrt (d : BitVec 5) (a : BitVec 5) (p : Bool)
  /-- R143: IEEE minimumNumber of two f registers. -/
  | fmin (d : BitVec 5) (a : BitVec 5) (b : BitVec 5) (p : Bool)
  /-- R143: IEEE maximumNumber of two f registers. -/
  | fmax (d : BitVec 5) (a : BitVec 5) (b : BitVec 5) (p : Bool)
  /-- R143: Magnitude of f[a] with the sign of f[b]. -/
  | fsgnj (d : BitVec 5) (a : BitVec 5) (b : BitVec 5) (p : Bool)
  /-- R143: Magnitude of f[a] with the inverted sign of f[b]. -/
  | fsgnjn (d : BitVec 5) (a : BitVec 5) (b : BitVec 5) (p : Bool)
  /-- R143: Magnitude of f[a] with the XOR of both signs. -/
  | fsgnjx (d : BitVec 5) (a : BitVec 5) (b : BitVec 5) (p : Bool)
  /-- R143: Writes 1 to a g register when two f values are equal. -/
  | feq (d : BitVec 5) (a : BitVec 5) (b : BitVec 5) (p : Bool)
  /-- R143: Writes 1 to a g register when f[a] is less than f[b]. -/
  | flt (d : BitVec 5) (a : BitVec 5) (b : BitVec 5) (p : Bool)
  /-- R143: Writes 1 to a g register when f[a] is at most f[b]. -/
  | fle (d : BitVec 5) (a : BitVec 5) (b : BitVec 5) (p : Bool)
  /-- R143: Writes the sign and kind class of an f value to a g register. -/
  | fclass (d : BitVec 5) (a : BitVec 5) (p : Bool)
  /-- R145: Converts FP64 to FP32 with rounding. -/
  | fcvtSD (d : BitVec 5) (a : BitVec 5)
  /-- R145: Converts FP32 to FP64 exactly. -/
  | fcvtDS (d : BitVec 5) (a : BitVec 5)
  /-- R145: Converts FP32 to INT32, sign-extended into a g register. -/
  | fcvtWS (d : BitVec 5) (a : BitVec 5)
  /-- R145: Converts FP32 to INT64. -/
  | fcvtLS (d : BitVec 5) (a : BitVec 5)
  /-- R145: Converts a signed 32-bit integer to FP32. -/
  | fcvtSW (d : BitVec 5) (a : BitVec 5)
  /-- R145: Converts a signed 64-bit integer to FP32. -/
  | fcvtSL (d : BitVec 5) (a : BitVec 5)
  /-- R145: Converts FP64 to INT32, sign-extended. -/
  | fcvtWD (d : BitVec 5) (a : BitVec 5)
  /-- R145: Converts FP64 to INT64. -/
  | fcvtLD (d : BitVec 5) (a : BitVec 5)
  /-- R145: Converts a signed 32-bit integer to FP64 exactly. -/
  | fcvtDW (d : BitVec 5) (a : BitVec 5)
  /-- R145: Converts a signed 64-bit integer to FP64 with rounding. -/
  | fcvtDL (d : BitVec 5) (a : BitVec 5)
  /-- R145: Moves 64 bits from an f register to a g register. -/
  | fmvX (d : BitVec 5) (a : BitVec 5)
  /-- R145: Moves 64 bits from a g register to an f register. -/
  | fmvF (d : BitVec 5) (a : BitVec 5)
  /-- R145: Converts FP32 to BF16 with rounding. -/
  | fcvtBfS (d : BitVec 5) (a : BitVec 5)
  /-- R145: Converts BF16 to FP32 exactly. -/
  | fcvtSBf (d : BitVec 5) (a : BitVec 5)
  /-- R145: Converts FP32 to E4M3 with rounding and saturation. -/
  | fcvtE4S (d : BitVec 5) (a : BitVec 5)
  /-- R145: Converts E4M3 to FP32 exactly. -/
  | fcvtSE4 (d : BitVec 5) (a : BitVec 5)
  /-- R145: Converts FP32 to E5M2 with rounding and saturation. -/
  | fcvtE5S (d : BitVec 5) (a : BitVec 5)
  /-- R145: Converts E5M2 to FP32 exactly. -/
  | fcvtSE5 (d : BitVec 5) (a : BitVec 5)
  /-- R144: Fused f[a] times f[b] plus f[c] with one rounding, FP32 or FP64. -/
  | fmadd (d : BitVec 5) (a : BitVec 5) (b : BitVec 5) (c : BitVec 5) (p : Bool)
  /-- R144: Fused f[a] times f[b] minus f[c] with one rounding. -/
  | fmsub (d : BitVec 5) (a : BitVec 5) (b : BitVec 5) (c : BitVec 5) (p : Bool)
  /-- R144: Fused negated product minus f[c] with one rounding. -/
  | fnmadd (d : BitVec 5) (a : BitVec 5) (b : BitVec 5) (c : BitVec 5) (p : Bool)
  /-- R144: Fused negated product plus f[c] with one rounding. -/
  | fnmsub (d : BitVec 5) (a : BitVec 5) (b : BitVec 5) (c : BitVec 5) (p : Bool)
  /-- R149: Reads a control register into a g register. -/
  | rdc (d : BitVec 5) (r : BitVec 12)
  /-- R149: Writes a control register field by field by its access codes. -/
  | wrc (a : BitVec 5) (r : BitVec 12)
  /-- R148: Clears PARK of a target core and lets it continue, returning a status. -/
  | resume (d : BitVec 5) (a : BitVec 5)
  /-- R324: Ships an integer add to the line's home, 64-bit or .w, with or without reply. -/
  | amoAdd (d : BitVec 5) (a : BitVec 5) (b : BitVec 5) (n : Bool) (w : Bool)
  /-- R324: Ships a signed minimum to the line's home. -/
  | amoMin (d : BitVec 5) (a : BitVec 5) (b : BitVec 5) (n : Bool) (w : Bool)
  /-- R324: Ships a signed maximum to the line's home. -/
  | amoMax (d : BitVec 5) (a : BitVec 5) (b : BitVec 5) (n : Bool) (w : Bool)
  /-- R324: Ships a swap to the line's home. -/
  | amoSwap (d : BitVec 5) (a : BitVec 5) (b : BitVec 5) (n : Bool) (w : Bool)
  /-- R324: Ships a compare-and-swap to the line's home. -/
  | amoCas (d : BitVec 5) (a : BitVec 5) (b : BitVec 5) (c : BitVec 5) (n : Bool) (w : Bool)
  /-- R324: Ships a bitwise AND to the line's home. -/
  | amoAnd (d : BitVec 5) (a : BitVec 5) (b : BitVec 5) (n : Bool) (w : Bool)
  /-- R324: Ships a bitwise OR to the line's home. -/
  | amoOr (d : BitVec 5) (a : BitVec 5) (b : BitVec 5) (n : Bool) (w : Bool)
  /-- R324: Ships a bitwise XOR to the line's home. -/
  | amoXor (d : BitVec 5) (a : BitVec 5) (b : BitVec 5) (n : Bool) (w : Bool)
  /-- R324: Ships a (weight, index) minimum to the line's home. -/
  | amoWimin (d : BitVec 5) (a : BitVec 5) (b : BitVec 5) (n : Bool) (w : Bool)
  /-- R324: Ships an unsigned minimum to the line's home. -/
  | amoMinu (d : BitVec 5) (a : BitVec 5) (b : BitVec 5) (n : Bool) (w : Bool)
  /-- R324: Ships an unsigned maximum to the line's home. -/
  | amoMaxu (d : BitVec 5) (a : BitVec 5) (b : BitVec 5) (n : Bool) (w : Bool)
  /-- R324: Ships an RNE floating-point add to the line's home. -/
  | amoFadd (d : BitVec 5) (a : BitVec 5) (b : BitVec 5) (n : Bool) (w : Bool)
  /-- R326: Ships a loaded routine to run on the line at its Kwewyn agent. -/
  | ship (d : BitVec 5) (a : BitVec 5) (b : BitVec 5) (n : Bool)
  /-- R348: Probes a map for a key and returns its value or the default with status. -/
  | mprb (d : BitVec 5) (a : BitVec 5) (b : BitVec 5)
  /-- R348: Inserts a key or combines with the map's default combine. -/
  | mins (d : BitVec 5) (a : BitVec 5) (b : BitVec 5) (c : BitVec 5)
  /-- R348: Upserts a key with add. -/
  | mupsAdd (d : BitVec 5) (a : BitVec 5) (b : BitVec 5) (c : BitVec 5)
  /-- R348: Upserts a key with signed min. -/
  | mupsMin (d : BitVec 5) (a : BitVec 5) (b : BitVec 5) (c : BitVec 5)
  /-- R348: Upserts a key with signed max. -/
  | mupsMax (d : BitVec 5) (a : BitVec 5) (b : BitVec 5) (c : BitVec 5)
  /-- R348: Upserts a key with bitwise OR. -/
  | mupsOr (d : BitVec 5) (a : BitVec 5) (b : BitVec 5) (c : BitVec 5)
  /-- R348: Upserts a key with bitwise AND. -/
  | mupsAnd (d : BitVec 5) (a : BitVec 5) (b : BitVec 5) (c : BitVec 5)
  /-- R348: Upserts a key with bitwise XOR. -/
  | mupsXor (d : BitVec 5) (a : BitVec 5) (b : BitVec 5) (c : BitVec 5)
  /-- R348: Upserts a key, replacing its value. -/
  | mupsReplace (d : BitVec 5) (a : BitVec 5) (b : BitVec 5) (c : BitVec 5)
  /-- R348: Upserts a key, keeping an existing value. -/
  | mupsFirst (d : BitVec 5) (a : BitVec 5) (b : BitVec 5) (c : BitVec 5)
  /-- R348: Removes a key from a map, filling the hole from the chain's end. -/
  | mrem (d : BitVec 5) (a : BitVec 5) (b : BitVec 5)
  /-- R350: Returns a key's bucket and segment and its 64-bit hash. -/
  | mhash (d : BitVec 5) (a : BitVec 5) (b : BitVec 5)
  /-- R351: Walks a map from a cursor and returns the next entry and cursor. -/
  | miter (d : BitVec 5) (a : BitVec 5) (b : BitVec 5) (c : BitVec 5)
  /-- R182: Declares the team's claim vector. -/
  | claim (a : BitVec 5)
  /-- R183: Requests units under the banker's check, blocking until granted. -/
  | acq (a : BitVec 5)
  /-- R183: Requests units under the banker's check and returns a status without blocking. -/
  | acqT (d : BitVec 5) (a : BitVec 5)
  /-- R184: Releases named units after the team's earlier writes and commands finish. -/
  | rel (a : BitVec 5)
  /-- R187: Sets the core's lane range and adjusts its lane grant. -/
  | vclaim (d : BitVec 5) (a : BitVec 5) (b : BitVec 5)
  /-- R188: Renegotiates the core's lanes and returns VLEN. -/
  | vreneg (d : BitVec 5)
  /-- R207: Binds or unbinds a barrier id under a binding word. -/
  | barDef (a : BitVec 5) (b : BitVec 5)
  /-- R209: Arrives at a barrier id after a fence at its scope. -/
  | barArrive (a : BitVec 5)
  /-- R210: Waits for the release of the core's pending arrival, with timeout. -/
  | barWait (a : BitVec 5)
  /-- R209: Arrives at a barrier id; the assembler follows it with bar.wait. -/
  | barSync (a : BitVec 5)
  /-- R211: Arrives if needed and removes the core from later phases. -/
  | barDrop (a : BitVec 5)
  /-- R212: Arrives with an FP32 value and waits for the phase's maximum. -/
  | barMax (d : BitVec 5) (a : BitVec 5) (b : BitVec 5)
  /-- R158: Waits until a counter falls below an immediate threshold, with acquire. -/
  | waitc (d : BitVec 4) (i : BitVec 8)
  /-- R158: Waits until a counter falls below the threshold in g[a], with acquire. -/
  | waitcReg (d : BitVec 4) (a : BitVec 5)
  /-- R159: Reads a completion counter with acquire semantics. -/
  | rdcnt (d : BitVec 5) (a : BitVec 4)
  /-- R154: Sends a word to a team core or the service core after a cluster release. -/
  | send (d : BitVec 5) (a : BitVec 5) (t : BitVec 4)
  /-- R155: Removes the oldest inbox word, waiting while empty. -/
  | recv (d : BitVec 5)
  /-- R155: Removes the oldest inbox word or returns all ones when empty. -/
  | recvT (d : BitVec 5)
  /-- R161: Reads a command word from TCM, increments a counter and queues it to an engine. -/
  | enq (e : BitVec 3) (c : BitVec 4) (a : BitVec 5) (d : BitVec 5)
  /-- R163: Sets a pointer's space and address. -/
  | pset (d : BitVec 4) (a : BitVec 5)
  /-- R163: Sets a pointer's step. -/
  | pstep (d : BitVec 4) (a : BitVec 5)
  /-- R163: Reads a pointer's space and address. -/
  | prd (d : BitVec 5) (a : BitVec 4)
  /-- R163: Reads a pointer's sign-extended step. -/
  | prdstep (d : BitVec 5) (a : BitVec 4)
  /-- R164: Writes a mask register from a g register. -/
  | mkset (d : BitVec 3) (a : BitVec 5)
  /-- R164: Reads a mask register into a g register. -/
  | mkget (d : BitVec 5) (a : BitVec 3)
  /-- R164: ANDs two mask registers. -/
  | mkand (d : BitVec 3) (a : BitVec 3) (b : BitVec 3)
  /-- R164: ORs two mask registers. -/
  | mkor (d : BitVec 3) (a : BitVec 3) (b : BitVec 3)
  /-- R164: XORs two mask registers. -/
  | mkxor (d : BitVec 3) (a : BitVec 3) (b : BitVec 3)
  /-- R164: ANDs a mask with the complement of another. -/
  | mkandn (d : BitVec 3) (a : BitVec 3) (b : BitVec 3)
  /-- R166: Reads an accumulator, waiting while a command covers it. -/
  | acmrd (d : BitVec 5) (a : BitVec 5)
  /-- R166: Reads an accumulator without waiting. -/
  | acmrdN (d : BitVec 5) (a : BitVec 5)
  /-- R166: Writes an accumulator, trapping ACM_BUSY if covered. -/
  | acmwr (a : BitVec 5) (b : BitVec 5)
  /-- R365: Fences, then submits a child launch packet to a device queue and returns the grid id or refusal. -/
  | grid (d : BitVec 5) (a : BitVec 5) (b : BitVec 5)
  /-- R243: Lane-wise floating-point add. -/
  | vaddFp (f : BitVec 3) (d : BitVec 4) (a : BitVec 4) (b : BitVec 4) (m : BitVec 3) (p : Bool) (s : Bool)
  /-- R243: Lane-wise floating-point subtract. -/
  | vsubFp (f : BitVec 3) (d : BitVec 4) (a : BitVec 4) (b : BitVec 4) (m : BitVec 3) (p : Bool) (s : Bool)
  /-- R243: Lane-wise floating-point multiply. -/
  | vmulFp (f : BitVec 3) (d : BitVec 4) (a : BitVec 4) (b : BitVec 4) (m : BitVec 3) (p : Bool) (s : Bool)
  /-- R243: Lane-wise fused multiply-add into the destination. -/
  | vfma (f : BitVec 3) (d : BitVec 4) (a : BitVec 4) (b : BitVec 4) (m : BitVec 3) (p : Bool) (s : Bool)
  /-- R243: Lane-wise fused destination minus product. -/
  | vfms (f : BitVec 3) (d : BitVec 4) (a : BitVec 4) (b : BitVec 4) (m : BitVec 3) (p : Bool) (s : Bool)
  /-- R243: Lane-wise floating-point minimumNumber. -/
  | vminFp (f : BitVec 3) (d : BitVec 4) (a : BitVec 4) (b : BitVec 4) (m : BitVec 3) (p : Bool) (s : Bool)
  /-- R243: Lane-wise floating-point maximumNumber. -/
  | vmaxFp (f : BitVec 3) (d : BitVec 4) (a : BitVec 4) (b : BitVec 4) (m : BitVec 3) (p : Bool) (s : Bool)
  /-- R243: Lane-wise floating-point absolute value. -/
  | vabsFp (f : BitVec 3) (d : BitVec 4) (a : BitVec 4) (m : BitVec 3) (p : Bool)
  /-- R243: Lane-wise floating-point negation. -/
  | vneg (f : BitVec 3) (d : BitVec 4) (a : BitVec 4) (m : BitVec 3) (p : Bool)
  /-- R244: Lane-wise wrapping integer add. -/
  | vaddInt (f : BitVec 3) (d : BitVec 4) (a : BitVec 4) (b : BitVec 4) (m : BitVec 3) (p : Bool) (s : Bool)
  /-- R244: Lane-wise wrapping integer subtract. -/
  | vsubInt (f : BitVec 3) (d : BitVec 4) (a : BitVec 4) (b : BitVec 4) (m : BitVec 3) (p : Bool) (s : Bool)
  /-- R244: Lane-wise wrapping integer multiply. -/
  | vmulInt (f : BitVec 3) (d : BitVec 4) (a : BitVec 4) (b : BitVec 4) (m : BitVec 3) (p : Bool) (s : Bool)
  /-- R244: Lane-wise high half of the signed product. -/
  | vmulh (f : BitVec 3) (d : BitVec 4) (a : BitVec 4) (b : BitVec 4) (m : BitVec 3) (p : Bool) (s : Bool)
  /-- R244: Lane-wise signed minimum. -/
  | vminInt (f : BitVec 3) (d : BitVec 4) (a : BitVec 4) (b : BitVec 4) (m : BitVec 3) (p : Bool) (s : Bool)
  /-- R244: Lane-wise signed maximum. -/
  | vmaxInt (f : BitVec 3) (d : BitVec 4) (a : BitVec 4) (b : BitVec 4) (m : BitVec 3) (p : Bool) (s : Bool)
  /-- R244: Lane-wise unsigned minimum. -/
  | vminu (f : BitVec 3) (d : BitVec 4) (a : BitVec 4) (b : BitVec 4) (m : BitVec 3) (p : Bool) (s : Bool)
  /-- R244: Lane-wise unsigned maximum. -/
  | vmaxu (f : BitVec 3) (d : BitVec 4) (a : BitVec 4) (b : BitVec 4) (m : BitVec 3) (p : Bool) (s : Bool)
  /-- R244: Lane-wise saturating add. -/
  | vadds (f : BitVec 3) (d : BitVec 4) (a : BitVec 4) (b : BitVec 4) (m : BitVec 3) (p : Bool) (s : Bool)
  /-- R244: Lane-wise saturating subtract. -/
  | vsubs (f : BitVec 3) (d : BitVec 4) (a : BitVec 4) (b : BitVec 4) (m : BitVec 3) (p : Bool) (s : Bool)
  /-- R244: Lane-wise wrapping integer absolute value. -/
  | vabsInt (f : BitVec 3) (d : BitVec 4) (a : BitVec 4) (m : BitVec 3) (p : Bool)
  /-- R245: Lane-wise bitwise AND. -/
  | vand (f : BitVec 3) (d : BitVec 4) (a : BitVec 4) (b : BitVec 4) (m : BitVec 3) (p : Bool) (s : Bool)
  /-- R245: Lane-wise bitwise OR. -/
  | vor (f : BitVec 3) (d : BitVec 4) (a : BitVec 4) (b : BitVec 4) (m : BitVec 3) (p : Bool) (s : Bool)
  /-- R245: Lane-wise bitwise XOR. -/
  | vxor (f : BitVec 3) (d : BitVec 4) (a : BitVec 4) (b : BitVec 4) (m : BitVec 3) (p : Bool) (s : Bool)
  /-- R245: Lane-wise a AND NOT b. -/
  | vandn (f : BitVec 3) (d : BitVec 4) (a : BitVec 4) (b : BitVec 4) (m : BitVec 3) (p : Bool) (s : Bool)
  /-- R245: Lane-wise bitwise NOT. -/
  | vnot (f : BitVec 3) (d : BitVec 4) (a : BitVec 4) (m : BitVec 3) (p : Bool)
  /-- R245: Lane-wise element shift left. -/
  | vsll (f : BitVec 3) (d : BitVec 4) (a : BitVec 4) (b : BitVec 4) (m : BitVec 3) (p : Bool) (s : Bool)
  /-- R245: Lane-wise element logical shift right. -/
  | vsrl (f : BitVec 3) (d : BitVec 4) (a : BitVec 4) (b : BitVec 4) (m : BitVec 3) (p : Bool) (s : Bool)
  /-- R245: Lane-wise element arithmetic shift right. -/
  | vsra (f : BitVec 3) (d : BitVec 4) (a : BitVec 4) (b : BitVec 4) (m : BitVec 3) (p : Bool) (s : Bool)
  /-- R246: Lane-wise equality compare into a mask register. -/
  | vceq (f : BitVec 3) (d : BitVec 3) (a : BitVec 4) (b : BitVec 4) (m : BitVec 3) (p : Bool) (s : Bool)
  /-- R246: Lane-wise less-than compare into a mask register. -/
  | vclt (f : BitVec 3) (d : BitVec 3) (a : BitVec 4) (b : BitVec 4) (m : BitVec 3) (p : Bool) (s : Bool)
  /-- R246: Lane-wise less-or-equal compare into a mask register. -/
  | vcle (f : BitVec 3) (d : BitVec 3) (a : BitVec 4) (b : BitVec 4) (m : BitVec 3) (p : Bool) (s : Bool)
  /-- R246: Lane-wise not-equal compare into a mask register. -/
  | vcne (f : BitVec 3) (d : BitVec 3) (a : BitVec 4) (b : BitVec 4) (m : BitVec 3) (p : Bool) (s : Bool)
  /-- R247: Selects each lane word from a or b by the mask. -/
  | vsel (f : BitVec 3) (d : BitVec 4) (a : BitVec 4) (b : BitVec 4) (m : BitVec 3) (s : Bool)
  /-- R249: Converts elements from a source format to a target format. -/
  | vcvt (f : BitVec 3) (d : BitVec 4) (a : BitVec 4) (s : BitVec 3) (m : BitVec 3) (p : Bool)
  /-- R250: Scales FP32 elements by a reciprocal and rounds RNE to a narrow format. -/
  | vquant (f : BitVec 3) (d : BitVec 4) (a : BitVec 4) (b : BitVec 4) (m : BitVec 3) (p : Bool)
  /-- R251: Packs elements by sign into trit bytes. -/
  | vpk3 (f : BitVec 3) (d : BitVec 4) (a : BitVec 4)
  /-- R252: Unpacks trit bytes into elements of a target format. -/
  | vupk3 (f : BitVec 3) (d : BitVec 4) (a : BitVec 4)
  /-- R253: Sums active elements in a pairwise tree into an f register. -/
  | vredsum (f : BitVec 3) (d : BitVec 4) (a : BitVec 4) (m : BitVec 3)
  /-- R253: Reduces active elements by maximum into an f register. -/
  | vredmax (f : BitVec 3) (d : BitVec 4) (a : BitVec 4) (m : BitVec 3)
  /-- R253: Reduces active elements by minimum into an f register. -/
  | vredmin (f : BitVec 3) (d : BitVec 4) (a : BitVec 4) (m : BitVec 3)
  /-- R254: Lane-wise correctly rounded 2^x through the special-function unit. -/
  | vexp2 (d : BitVec 4) (a : BitVec 4) (m : BitVec 3) (p : Bool)
  /-- R254: Lane-wise correctly rounded log2 x. -/
  | vlog2 (d : BitVec 4) (a : BitVec 4) (m : BitVec 3) (p : Bool)
  /-- R254: Lane-wise correctly rounded reciprocal. -/
  | vrcp (d : BitVec 4) (a : BitVec 4) (m : BitVec 3) (p : Bool)
  /-- R254: Lane-wise correctly rounded reciprocal square root. -/
  | vrsqrt (d : BitVec 4) (a : BitVec 4) (m : BitVec 3) (p : Bool)
  /-- R254: Lane-wise correctly rounded tanh. -/
  | vtanh (d : BitVec 4) (a : BitVec 4) (m : BitVec 3) (p : Bool)
  /-- R255: Copies lane words from a stream. -/
  | vmov (f : BitVec 3) (d : BitVec 4) (a : BitVec 4) (m : BitVec 3) (p : Bool)
  /-- R255: Broadcasts an f register's low word to every lane. -/
  | vmovScalar (f : BitVec 3) (d : BitVec 4) (b : BitVec 4) (m : BitVec 3) (p : Bool)
  /-- R256: Gathers lane words through a base pointer and offset stream. -/
  | vgath (f : BitVec 3) (d : BitVec 4) (a : BitVec 4) (b : BitVec 4) (m : BitVec 3) (p : Bool)
  /-- R256: Scatters lane words through a base pointer and offset stream. -/
  | vscat (f : BitVec 3) (d : BitVec 4) (a : BitVec 4) (b : BitVec 4) (m : BitVec 3)
  /-- R257: Queues (score, id) pairs for merging into a top-k list. -/
  | vtopk (d : BitVec 4) (a : BitVec 4) (b : BitVec 4) (m : BitVec 3)
  /-- R286: Converts a held bank group into a board of a given width. -/
  | arrMkboard (h : Hdr) (slot : BitVec 3) (width : BitVec 13) (wscale : BitVec 21)
  /-- R287: Returns a board to data mode after clearing. -/
  | arrClrboard (h : Hdr) (slot : BitVec 3)
  /-- R290: Streams activation rows through boards and drains partial sums into accumulators. -/
  | arrMmt (h : Hdr) (kchain accum : Bool) (rowptr stride ascale accbase : BitVec 21) (lead : BitVec 19) (m : BitVec 9) (fmt : BitVec 2) (mask : BitVec 8)
  /-- R293: Writes a rectangle of accumulators to the scratchpad, optionally scaled and cleared. -/
  | arrAcmout (h : Hdr) (clear scl : Bool) (accbase : BitVec 21) (lead : BitVec 19) (dst dstride : BitVec 21) (cols : BitVec 16) (rows : BitVec 9) (rscale : BitVec 32) (ofmt : BitVec 2)
  /-- R304: Copies rows of bytes between spaces, optionally converting FP32 to BF16. -/
  | cpyCopy (h : Hdr) (cvt : Bool) (src : BitVec 48) (sacc : Bool) (dst : BitVec 48) (dacc : Bool) (len : BitVec 20) (rows : BitVec 12) (sstride dstride : BitVec 32)
  /-- R307: Fills rows of memory with a 32-bit pattern. -/
  | cpyFill (h : Hdr) (pattern : BitVec 32) (dst : BitVec 48) (dacc : Bool) (len : BitVec 20) (rows : BitVec 12) (dstride : BitVec 32)
  /-- R313: Stages pages into T1 through the tier manager and counts outcomes. -/
  | cpyPref (h : Hdr) (addr : BitVec 48) (count : BitVec 16)
  /-- R314: Reports where a page lies and its epoch. -/
  | cpyTierq (h : Hdr) (addr : BitVec 48)
  /-- R194: Declares a group turn, waiting for packets of the old turn. -/
  | colDecl (h : Hdr) (gid : BitVec 12) (mem : BitVec 128) (fab : BitVec 32)
  /-- R194: Declares a group turn, faulting if packets of the old turn are in flight. -/
  | colDeclT (h : Hdr) (gid : BitVec 12) (mem : BitVec 128) (fab : BitVec 32)
  /-- R199: Gathers every member's block into each member's destination. -/
  | colAllgather (h : Hdr) (gid : BitVec 12) (src dst : BitVec 22) (bytes : BitVec 21)
  /-- R199: Reduces and scatters blocks across members in rank order. -/
  | colRedscat (h : Hdr) (gid : BitVec 12) (src dst : BitVec 22) (bytes : BitVec 21) (op fmt : BitVec 2)
  /-- R199: Exchanges a block between every pair of members. -/
  | colAlltoall (h : Hdr) (gid : BitVec 12) (src dst : BitVec 22) (bytes : BitVec 21)
  /-- R199: Broadcasts the root's block to every member. -/
  | colBcast (h : Hdr) (gid : BitVec 12) (src dst : BitVec 22) (bytes : BitVec 21) (root : BitVec 12)
  /-- R199: Synchronises the members of a group without data. -/
  | colBarrier (h : Hdr) (gid : BitVec 12)
  /-- R199: Delivers the FP32 maximum of every member's value. -/
  | colMaxbar (h : Hdr) (gid : BitVec 12) (src dst : BitVec 22)
  /-- R339: Creates a map over a region and replies with its handle. -/
  | agtMapnew (h : Hdr) (base : BitVec 48) (zpg : BitVec 16) (default seed : BitVec 64) (l0 lmax : BitVec 5) (kw vw : Bool) (comb : BitVec 3)
  /-- R340: Takes a map out of service and frees its handle when idle. -/
  | agtMapdel (h : Hdr) (handle : BitVec 10)
  /-- R332: Verifies and loads signed routines into every agent's routine table. -/
  | agtRtload (h : Hdr) (src : BitVec 48) (first count : BitVec 8)
  /-- R113: A pending pre-emption request is taken as an asynchronous trap at an instruction boundary. -/
  | preempt (c : CoreId)
  /-- R19: A cluster fails, placement stops on its id and a spare is tested. -/
  | clusterFailure (k : ClusterId)
  /-- R108: A core of the lost cluster takes the fatal asynchronous trap at its next boundary. -/
  | clusterLost (c : CoreId)
  /-- R390: A tested spare cluster takes the lost logical id. -/
  | spareTestDone (k : ClusterId) (passed : Bool)
  /-- R147: The parked core's message is delivered to the service core when an inbox slot is free. -/
  | fpEvent (c : CoreId)
  /-- R112: A handler's write of 1 to TABORT ends the team fatally. -/
  | tabortWrite (v : Word)
  /-- R152: When all threads ended, stores accepted and commands decremented, resources are released. -/
  | teamEnd (k : ClusterId) (t : Slot)
  /-- R124: A write of GO to SHOOT increments the epoch and drops matching translations. -/
  | shootGo (v : Word)
  /-- R160: A WRC writing ones to EFAULT clears those bits unless set in the same cycle. -/
  | efaultClear (v : Word)
  /-- R48: A WRC to SPFLAG stores a code, re-arming capture only when zero. -/
  | spflagWrite (v : Word)
  /-- R102: A WRC to WRRW sets the array weight, storing 1 for 0. -/
  | wrrwWrite (v : Word)
  /-- R135: The store buffer releases its oldest store to its first queue once allowed. -/
  | storeRelease (c : CoreId)
  /-- R52: A home or gateway queues a released write, which is then applied in order. -/
  | storeAccept (q : StoreSource)
  /-- R136: A load's home returns its value to the blocked core. -/
  | loadServed (c : CoreId)
  /-- R153: A sent word arrives in the destination inbox and sets the wake bit. -/
  | messageArrival (d : MsgDest)
  /-- R178: When Available grows, blocked requests are re-decided in arrival order. -/
  | blockedListRedecide (k : ClusterId)
  /-- R172: A released page or block finishes zeroing and stalled accesses proceed. -/
  | zeroingDone (k : ClusterId)
  /-- R186: One occupied page of a newly pinned group finishes moving outside it. -/
  | pageRelocation (k : ClusterId)
  /-- R209: A complete phase releases its waiters with acquire, after the nominal delay. -/
  | barrierRelease (k : ClusterId) (t : Slot) (id : BitVec 8)
  /-- R210: A wait reaching BTO cycles raises the timeout with the missing-member mask. -/
  | barrierTimeout (c : CoreId)
  /-- R198: When all match packets agree the collective starts sending data, else it faults. -/
  | collectiveMatch (seq : Nat)
  /-- R195: A packet reaching a port is delivered, held or discarded by turn distance, and forwarded on its chain. -/
  | collectivePacketArrival (i : Nat)
  /-- R261: A converting group enters BOARD, or returns to DATA after an illegal trit byte. -/
  | boardConversionDone (k : ClusterId) (grp : Slot)
  /-- R262: A clearing group returns to DATA after 64 cycles. -/
  | boardClearDone (k : ClusterId) (grp : Slot)
  /-- R273: Weighted round robin grants eligible rows of head array commands each cycle. -/
  | rowGrant (k : ClusterId)
  /-- R270: The drain queue writes one accumulator granule of a row's drains. -/
  | drainBeat (k : ClusterId)
  /-- R300: The copy engine grants destination granules in round robin and issues their reads. -/
  | copyGranuleGrant (seq : Nat)
  /-- R308: Returned source data is written into its destination granule. -/
  | copyGranuleWrite (seq : Nat)
  /-- R310: The tier manager takes a free frame, rewrites the leaf, shoots down and copies a page into T1. -/
  | tierMigration (die : DieId)
  /-- R61: An engine performs its release and decrements the command's counter. -/
  | commandComplete (seq : Nat)
  /-- R230: A vector instruction writes its lane words L cycles after its occupation, steps pointers and raises flags.
  -/
  | vectorRetire (c : CoreId)
  /-- R235: A special-function entry at the head of the queue computes and requests its writes. -/
  | sfuExecute (k : ClusterId)
  /-- R239: The top-k unit reads, merges and writes a list for the entry at its head. -/
  | topkMerge (k : ClusterId)
  /-- R320: An agent or slice performs a shipped operation alone on its line. -/
  | shippedOpPerform (i : Nat)
  /-- R327: The reply of a shipped operation reaches the core and it retires. -/
  | shippedReply (c : CoreId)
  /-- R353: A segment's agent performs a map operation whole and sends its reply. -/
  | mapOpPerform (i : Nat)
  /-- R345: An idle agent moves one old line of a pending bucket split. -/
  | splitStep (asid : BitVec 12) (handle : BitVec 10) (seg : BitVec 3)
  /-- R340: When no operation or split remains, the deleted map's handle is freed. -/
  | mapdelComplete (seq : Nat)
  /-- R332: When no operation uses the entries, routines are written at every agent and made valid. -/
  | rtloadTableWrite (seq : Nat)
  /-- R334: A stack at critical temperature enters self-refresh and stops performing its queues. -/
  | stackSelfRefresh (st : StackId)
  /-- R334: After 1 ms in self-refresh a MEMORY_STALL message goes to the service core. -/
  | memoryStall (st : StackId)
  /-- R334: A stack leaves self-refresh, performs its queues and sends a second MEMORY_STALL. -/
  | stackWake (st : StackId)
  /-- R333: A DRAM bank's idle timer expires and its open page is precharged. -/
  | pagePrecharge (st : StackId)
  /-- R390: A failing scratchpad bank starts copying onto its spare. -/
  | bankRebuildStart (k : ClusterId) (grp bank : Slot)
  /-- R390: The spare bank takes over and BANK_REBUILT is sent. -/
  | bankRebuilt (k : ClusterId) (grp : Slot)
  /-- R390: A failed T1 channel is retired to a spare, narrowed, or withdrawn. -/
  | channelFailure (st : StackId) (ch : BitVec 5)
  /-- R390: The retired channel's copy ends and CHANNEL_RETIRED is sent. -/
  | channelRetired (st : StackId)
  /-- R397: After images are loaded every thread issues its first instruction. -/
  | threadStart (k : ClusterId) (t : Slot)
  /-- R374: After the TCM save and engine stop a victim core is freed, spilling under eviction. -/
  | coreFreed (c : CoreId)
  /-- R372: A complete grid's record is written with release at SYSTEM. -/
  | gridComplete (gid : BitVec 32)
  /-- R378: A write to HQDOOR sets BUSY, or is lost while BUSY. -/
  | hostDoorbell (q : BitVec 5) (addr : Word)
  /-- R378: The service core reads the packet, checks it and writes the grid id or refusal. -/
  | hostPacketCheck (q : BitVec 5) (readOk : Bool)
  /-- R379: A TAKE of 1 takes a free semaphore, ties decided least recently granted. -/
  | hsemTake (n : BitVec 6) (takers : List Requester)
  /-- R379: A TAKE of 0 releases a semaphore held by the writer. -/
  | hsemRelease (n : BitVec 6) (who : Requester)
  /-- R379: A port's link goes down and its semaphores are released. -/
  | hostLinkDown (port : Fin 2)
  /-- R379: A service core is reset and its semaphores are released. -/
  | serviceCoreReset (svc : ServiceId)
  /-- R380: A write to a register without its own row, discarded and counted when its semaphore is not held. -/
  | configRegisterWrite (who : Requester) (off : BitVec 26) (size : BitVec 4) (v : Word)
  /-- R386: Assigns a registered buffer to an ASID and bumps its version. -/
  | bufctlGo (who : Requester) (v : Word)
  /-- R381: A write of CLR sets the discarded-write count to zero. -/
  | cfgrejClear (die : DieId) (v : Word)
  /-- R382: Sets the fabric id unless a fabric group is declared. -/
  | fabidWrite (who : Requester) (v : Word)
  /-- R382: Sets the power cap, clamped to 400 to 1,800 W. -/
  | pwrcapWrite (who : Requester) (v : Word)
  /-- R390: Enables spare takeover, starting pending takeovers. -/
  | spctlWrite (who : Requester) (v : Word)
  /-- R309: Writing ones to TMSTAT clears those bits. -/
  | tmstatClear (who : Requester) (die : DieId) (v : Word)
  /-- R382: Writing ones to AFFMISS clears those bits. -/
  | affmissClear (v : Word)
  /-- R384: A host CXL.mem read through an HDM window is translated and served, or poisoned. -/
  | hostWindowRead (port : Fin 2) (off : BitVec 40) (n : Nat)
  /-- R384: A host CXL.mem write through an HDM window is translated and applied, or discarded. -/
  | hostWindowWrite (port : Fin 2) (off : BitVec 40) (bytes : List Byte)
  /-- R389: The mailbox builds and signs an attestation report over a nonce. -/
  | attest (who : Requester)
  /-- R388: The mailbox decapsulates and unwraps a key set for an ASID. -/
  | keyLoad (who : Requester)
  /-- R388: The mailbox clears an ASID's keys unless it has live teams. -/
  | keyClear (who : Requester)
  /-- R393: A write of 1 to FRZCMD requests freeze. -/
  | frzcmdWrite (v : Word)
  /-- R392: Firmware verifies its image, trains links and memory, tests clusters and releases the queues. -/
  | reset (imageOk : Bool)
  /-- R84: A core fetches a word whose major, function or fmt is unassigned and takes ILLEGAL_INSTRUCTION with the word
  in TRAPAUX. -/
  | illegalInstruction (w : BitVec 32)
  /-- R84: A core fetches a word with a non-zero reserved field or bit and takes RESERVED_FIELD with the word in
  TRAPAUX. -/
  | reservedField (w : BitVec 32)
  /-- R140: Fetch at an address outside TCM, or in the null region, raises FETCH_REGION or NULL_REGION with TRAPPC at
  the target. -/
  | fetchRegion (a : Word)
  /-- R393: A peer link PL0-PL7 goes down, as peers see when the package at its far end freezes. -/
  | peerLinkDown (link : BitVec 3)
  /-- R139: Waits until earlier TCM stores are applied so later fetches see them. -/
  | fenceCore
  /-- R139: Waits until earlier scratchpad stores are performed. -/
  | fenceTeam
  /-- R139: Waits until earlier scratchpad stores are performed at cluster scope. -/
  | fenceCluster
  /-- R139: Waits until the store buffer is empty and every earlier store is accepted. -/
  | fenceDie
  /-- R139: Waits until every earlier store and shipped operation is performed at its home. -/
  | fencePackage
  /-- R139: As fence.package, and waits for collective commands released at FABRIC. -/
  | fenceFabric
  /-- R139: As fence.fabric, and waits for host-memory stores to complete at the host. -/
  | fenceSystem
  /-- R150: Restores PRIV, IE and MPROG and continues at TRAPPC, ending the team if HWFATAL. -/
  | eret
  /-- R151: Waits until the wake bit, inbox or a pending trap is present. -/
  | wfi
  /-- R152: Ends the thread; at supervisor level under PREEMPT it hands the core to the launch unit. -/
  | endThread
  /-- R184: Releases every page, board and block of the team. -/
  | relall
  /-- R258: Holds issue until every earlier vector instruction of the core has retired. -/
  | vfence
  /-- R258: As vfence, then waits until no team command covers any accumulator. -/
  | vdrain
  /-- R124: After old-epoch accesses and shipped operations drain, BUSY clears and stalled accesses walk. -/
  | shootdownComplete
  /-- R392: Excess power or temperature makes the array withhold row grants. -/
  | powerThrottle
  /-- R392: Throttling ends once its cause has gone. -/
  | throttleEnd
  /-- R367: The launch units resume teams and place teams of waiting grids by priority. -/
  | schedulingDecision
  /-- R386: BUSY clears once earlier accesses to the buffer are performed. -/
  | bufferAssignDone
  /-- R393: An assertion of FRZ requests freeze. -/
  | frzPin
  /-- R393: At the next freeze point every clock stops and links drop. -/
  | freeze
  /-- R394: Selects the 32-bit identification register on the Rannen port. -/
  | idcode
  /-- R394: Selects the state-map address register. -/
  | fmaddr
  /-- R394: Captures the state-map word at FMADDR and increments FMADDR. -/
  | fmdata
  /-- R394: Selects the one-bit bypass register. -/
  | bypass
  deriving DecidableEq, Repr

end Sys2Proof
end

