-- ==== Sys2Proof/WellFormed.lean ====
section
/-! DEFINITION. Which instructions the encodings admit: the operand limits of each entry (spec/04 R80-R86, spec/06 R137,
spec/07 R154, R158, spec/13, spec/15, spec/17, spec/19, spec/20). -/

namespace Sys2Proof

/-- The control-register numbers that R102 assigns. -/
def assignedCreg (n : Nat) : Bool :=
  [0, 1, 2, 3, 4, 5, 6, 8, 9, 10, 11, 12, 13, 14, 16, 17, 18, 19, 24, 25, 26, 28, 27, 32, 33, 34, 40, 41, 48, 49, 64, 65, 66].contains n

/-- The number of set bits among the low eight bits. -/
def popCount (n : Nat) : Nat := ((List.range 8).filter (fun b => n.testBit b)).length

/-- A collective block size that R197 does not allow. -/
def badBlock (n : Nat) : Bool := n % 32 != 0 || n == 0 || 1048576 < n

/-- The operand limits of an instruction: those that its entry names illegal or does not encode. Events, which have no
encoding, have none. -/
def Instr.wf : Instr → Bool
  | .add _ _ _ => true
  | .sub _ _ _ => true
  | .and _ _ _ => true
  | .or _ _ _ => true
  | .xor _ _ _ => true
  | .sll _ _ _ => true
  | .srl _ _ _ => true
  | .sra _ _ _ => true
  | .slt _ _ _ => true
  | .sltu _ _ _ => true
  | .min _ _ _ => true
  | .max _ _ _ => true
  | .minu _ _ _ => true
  | .maxu _ _ _ => true
  | .ror _ _ _ => true
  | .clz _ _ => true
  | .ctz _ _ => true
  | .popc _ _ => true
  | .addi _ _ _ => true
  | .andi _ _ _ => true
  | .ori _ _ _ => true
  | .xori _ _ _ => true
  | .slti _ _ _ => true
  | .sltiu _ _ _ => true
  | .slli _ _ _ => true
  | .srli _ _ _ => true
  | .srai _ _ _ => true
  | .rori _ _ _ => true
  | .lui _ _ => true
  | .addpc _ _ => true
  | .mul _ _ _ => true
  | .mulh _ _ _ => true
  | .mulhu _ _ _ => true
  | .mulhsu _ _ _ => true
  | .div _ _ _ => true
  | .divu _ _ _ => true
  | .rem _ _ _ => true
  | .remu _ _ _ => true
  | .ldb _ _ _ => true
  | .ldbu _ _ _ => true
  | .ldh _ _ _ => true
  | .ldhu _ _ _ => true
  | .ldw _ _ _ => true
  | .ldwu _ _ _ => true
  | .ld _ _ _ => true
  | .stb _ _ _ => true
  | .sth _ _ _ => true
  | .stw _ _ _ => true
  | .st _ _ _ => true
  | .fldw _ _ _ => true
  | .fldd _ _ _ => true
  | .fstw _ _ _ => true
  | .fstd _ _ _ => true
  | .savemG d _ b => d.toNat ≤ b.toNat
  | .loadmG d a b => d.toNat ≤ b.toNat && !(d.toNat ≤ a.toNat && a.toNat ≤ b.toNat)
  | .savemF d _ b => d.toNat ≤ b.toNat
  | .loadmF d _ b => d.toNat ≤ b.toNat
  | .fenceCore => true
  | .fenceTeam => true
  | .fenceCluster => true
  | .fenceDie => true
  | .fencePackage => true
  | .fenceFabric => true
  | .fenceSystem => true
  | .beq _ _ _ => true
  | .bne _ _ _ => true
  | .blt _ _ _ => true
  | .bge _ _ _ => true
  | .bltu _ _ _ => true
  | .bgeu _ _ _ => true
  | .jal _ _ => true
  | .jalr _ _ _ => true
  | .fadd _ _ _ _ => true
  | .fsub _ _ _ _ => true
  | .fmul _ _ _ _ => true
  | .fdiv _ _ _ _ => true
  | .fsqrt _ _ _ => true
  | .fmin _ _ _ _ => true
  | .fmax _ _ _ _ => true
  | .fsgnj _ _ _ _ => true
  | .fsgnjn _ _ _ _ => true
  | .fsgnjx _ _ _ _ => true
  | .feq _ _ _ _ => true
  | .flt _ _ _ _ => true
  | .fle _ _ _ _ => true
  | .fclass _ _ _ => true
  | .fcvtSD _ _ => true
  | .fcvtDS _ _ => true
  | .fcvtWS _ _ => true
  | .fcvtLS _ _ => true
  | .fcvtSW _ _ => true
  | .fcvtSL _ _ => true
  | .fcvtWD _ _ => true
  | .fcvtLD _ _ => true
  | .fcvtDW _ _ => true
  | .fcvtDL _ _ => true
  | .fmvX _ _ => true
  | .fmvF _ _ => true
  | .fcvtBfS _ _ => true
  | .fcvtSBf _ _ => true
  | .fcvtE4S _ _ => true
  | .fcvtSE4 _ _ => true
  | .fcvtE5S _ _ => true
  | .fcvtSE5 _ _ => true
  | .fmadd _ _ _ _ _ => true
  | .fmsub _ _ _ _ _ => true
  | .fnmadd _ _ _ _ _ => true
  | .fnmsub _ _ _ _ _ => true
  | .rdc _ r => assignedCreg r.toNat
  | .wrc _ r => assignedCreg r.toNat
  | .eret => true
  | .wfi => true
  | .endThread => true
  | .resume _ _ => true
  | .amoAdd d _ _ n _ => (!n || d.toNat == 0)
  | .amoMin d _ _ n _ => (!n || d.toNat == 0)
  | .amoMax d _ _ n _ => (!n || d.toNat == 0)
  | .amoSwap d _ _ n _ => (!n || d.toNat == 0)
  | .amoCas d _ _ _ n _ => (!n || d.toNat == 0)
  | .amoAnd d _ _ n _ => (!n || d.toNat == 0)
  | .amoOr d _ _ n _ => (!n || d.toNat == 0)
  | .amoXor d _ _ n _ => (!n || d.toNat == 0)
  | .amoWimin d _ _ n _ => (!n || d.toNat == 0)
  | .amoMinu d _ _ n _ => (!n || d.toNat == 0)
  | .amoMaxu d _ _ n _ => (!n || d.toNat == 0)
  | .amoFadd d _ _ n _ => (!n || d.toNat == 0)
  | .ship d _ _ n => (!n || d.toNat == 0)
  | .mprb d _ _ => d.toNat != 0 && d.toNat % 2 == 0
  | .mins d _ _ _ => d.toNat != 0 && d.toNat % 2 == 0
  | .mupsAdd d _ _ _ => d.toNat != 0 && d.toNat % 2 == 0
  | .mupsMin d _ _ _ => d.toNat != 0 && d.toNat % 2 == 0
  | .mupsMax d _ _ _ => d.toNat != 0 && d.toNat % 2 == 0
  | .mupsOr d _ _ _ => d.toNat != 0 && d.toNat % 2 == 0
  | .mupsAnd d _ _ _ => d.toNat != 0 && d.toNat % 2 == 0
  | .mupsXor d _ _ _ => d.toNat != 0 && d.toNat % 2 == 0
  | .mupsReplace d _ _ _ => d.toNat != 0 && d.toNat % 2 == 0
  | .mupsFirst d _ _ _ => d.toNat != 0 && d.toNat % 2 == 0
  | .mrem d _ _ => d.toNat != 0 && d.toNat % 2 == 0
  | .mhash d _ _ => d.toNat != 0 && d.toNat % 2 == 0
  | .miter d _ _ c => d.toNat != 0 && d.toNat % 2 == 0 && c.toNat != d.toNat && c.toNat != d.toNat + 1
  | .claim _ => true
  | .acq _ => true
  | .acqT _ _ => true
  | .rel _ => true
  | .relall => true
  | .vclaim _ _ _ => true
  | .vreneg _ => true
  | .barDef _ _ => true
  | .barArrive _ => true
  | .barWait _ => true
  | .barSync _ => true
  | .barDrop _ => true
  | .barMax _ _ _ => true
  | .waitc _ i => i.toNat != 0
  | .waitcReg _ _ => true
  | .rdcnt _ _ => true
  | .send _ _ t => t.toNat ≤ 8
  | .recv _ => true
  | .recvT _ => true
  | .enq e _ _ _ => e.toNat ≤ 3
  | .pset _ _ => true
  | .pstep _ _ => true
  | .prd _ _ => true
  | .prdstep _ _ => true
  | .mkset _ _ => true
  | .mkget _ _ => true
  | .mkand _ _ _ => true
  | .mkor _ _ _ => true
  | .mkxor _ _ _ => true
  | .mkandn _ _ _ => true
  | .acmrd _ _ => true
  | .acmrdN _ _ => true
  | .acmwr _ _ => true
  | .grid _ _ _ => true
  | .vaddFp f _ _ _ _ _ _ => f.toNat ≤ 3
  | .vsubFp f _ _ _ _ _ _ => f.toNat ≤ 3
  | .vmulFp f _ _ _ _ _ _ => f.toNat ≤ 3
  | .vfma f _ _ _ _ _ _ => f.toNat ≤ 3
  | .vfms f _ _ _ _ _ _ => f.toNat ≤ 3
  | .vminFp f _ _ _ _ _ _ => f.toNat ≤ 3
  | .vmaxFp f _ _ _ _ _ _ => f.toNat ≤ 3
  | .vabsFp f _ _ _ _ => f.toNat ≤ 3
  | .vneg f _ _ _ _ => f.toNat ≤ 3
  | .vaddInt f _ _ _ _ _ _ => 4 ≤ f.toNat && f.toNat ≤ 6
  | .vsubInt f _ _ _ _ _ _ => 4 ≤ f.toNat && f.toNat ≤ 6
  | .vmulInt f _ _ _ _ _ _ => 4 ≤ f.toNat && f.toNat ≤ 6
  | .vmulh f _ _ _ _ _ _ => 4 ≤ f.toNat && f.toNat ≤ 6
  | .vminInt f _ _ _ _ _ _ => 4 ≤ f.toNat && f.toNat ≤ 6
  | .vmaxInt f _ _ _ _ _ _ => 4 ≤ f.toNat && f.toNat ≤ 6
  | .vminu f _ _ _ _ _ _ => 4 ≤ f.toNat && f.toNat ≤ 6
  | .vmaxu f _ _ _ _ _ _ => 4 ≤ f.toNat && f.toNat ≤ 6
  | .vadds f _ _ _ _ _ _ => 4 ≤ f.toNat && f.toNat ≤ 6
  | .vsubs f _ _ _ _ _ _ => 4 ≤ f.toNat && f.toNat ≤ 6
  | .vabsInt f _ _ _ _ => 4 ≤ f.toNat && f.toNat ≤ 6
  | .vand f _ _ _ _ _ _ => 4 ≤ f.toNat && f.toNat ≤ 6
  | .vor f _ _ _ _ _ _ => 4 ≤ f.toNat && f.toNat ≤ 6
  | .vxor f _ _ _ _ _ _ => 4 ≤ f.toNat && f.toNat ≤ 6
  | .vandn f _ _ _ _ _ _ => 4 ≤ f.toNat && f.toNat ≤ 6
  | .vnot f _ _ _ _ => 4 ≤ f.toNat && f.toNat ≤ 6
  | .vsll f _ _ _ _ _ _ => 4 ≤ f.toNat && f.toNat ≤ 6
  | .vsrl f _ _ _ _ _ _ => 4 ≤ f.toNat && f.toNat ≤ 6
  | .vsra f _ _ _ _ _ _ => 4 ≤ f.toNat && f.toNat ≤ 6
  | .vceq f _ _ _ _ _ _ => f.toNat ≤ 6
  | .vclt f _ _ _ _ _ _ => f.toNat ≤ 6
  | .vcle f _ _ _ _ _ _ => f.toNat ≤ 6
  | .vcne f _ _ _ _ _ _ => f.toNat ≤ 6
  | .vsel f _ _ _ _ _ => f.toNat ≤ 6
  | .vcvt f _ _ s _ _ => f != s
  | .vquant f _ _ _ _ _ => f.toNat != 0 && f.toNat != 4 && f.toNat != 5
  | .vpk3 _ _ _ => true
  | .vupk3 _ _ _ => true
  | .vredsum f _ _ _ => f.toNat ≤ 6
  | .vredmax f _ _ _ => f.toNat ≤ 6
  | .vredmin f _ _ _ => f.toNat ≤ 6
  | .vexp2 _ _ _ _ => true
  | .vlog2 _ _ _ _ => true
  | .vrcp _ _ _ _ => true
  | .vrsqrt _ _ _ _ => true
  | .vtanh _ _ _ _ => true
  | .vmov f _ _ _ _ => f.toNat ≤ 6
  | .vmovScalar f _ _ _ _ => f.toNat ≤ 6
  | .vgath f _ _ _ _ _ => f.toNat ≤ 6
  | .vscat f _ _ _ _ => f.toNat ≤ 6
  | .vtopk _ _ _ _ => true
  | .vfence => true
  | .vdrain => true
  | .arrMkboard _ _ width wscale => !(width.toNat == 0 || 4096 < width.toNat) && !(wscale.toNat % 32 != 0)
  | .arrClrboard _ _ => true
  | .arrMmt _ _ _ rowptr stride ascale accbase lead m _ mask => !(rowptr.toNat % 32 != 0) && !(stride.toNat % 32 != 0) && !(ascale.toNat % 8 != 0) && !(accbase.toNat % 32 != 0) && !(lead.toNat % 8 != 0 || 262144 < lead.toNat) && !(256 < m.toNat) && !(6 < popCount mask.toNat)
  | .arrAcmout _ _ scl accbase lead dst dstride cols rows rscale ofmt => !(accbase.toNat % 32 != 0) && !(lead.toNat % 8 != 0 || 262144 < lead.toNat) && !(dst.toNat % 32 != 0) && !(dstride.toNat % 32 != 0) && !(cols.toNat % 8 != 0 || 32768 < cols.toNat) && !(256 < rows.toNat) && !(!scl && rscale.toNat != 0) && !(ofmt.toNat == 3)
  | .cpyCopy _ cvt src sacc dst dacc len _ sstride dstride => !(cvt && (!sacc || dacc || len.toNat % 4 != 0 || dst.toNat % 2 != 0 || dstride.toNat % 2 != 0)) && !(sacc && (2097152 ≤ src.toNat || src.toNat % 4 != 0 || sstride.toNat % 4 != 0)) && !(dacc && (2097152 ≤ dst.toNat || dst.toNat % 4 != 0 || len.toNat % 4 != 0 || dstride.toNat % 4 != 0))
  | .cpyFill _ _ dst dacc len _ dstride => !(dacc && (2097152 ≤ dst.toNat || dst.toNat % 4 != 0 || len.toNat % 4 != 0 || dstride.toNat % 4 != 0))
  | .cpyPref _ addr _ => !(addr.toNat % 65536 != 0 || addr.toNat < 4294967296)
  | .cpyTierq _ addr => !(addr.toNat < 4294967296)
  | .colDecl _ _ _ _ => true
  | .colDeclT _ _ _ _ => true
  | .colAllgather _ _ src dst bytes => !(src.toNat % 32 != 0) && !(dst.toNat % 32 != 0) && !(badBlock bytes.toNat)
  | .colRedscat _ _ src dst bytes op fmt => !(src.toNat % 32 != 0) && !(dst.toNat % 32 != 0) && !(badBlock bytes.toNat) && !(op.toNat == 3) && !(fmt.toNat == 3)
  | .colAlltoall _ _ src dst bytes => !(src.toNat % 32 != 0) && !(dst.toNat % 32 != 0) && !(badBlock bytes.toNat)
  | .colBcast _ _ _ dst bytes _ => !(dst.toNat % 32 != 0) && !(badBlock bytes.toNat)
  | .colBarrier _ _ => true
  | .colMaxbar _ _ src dst => !(src.toNat % 4 != 0) && !(dst.toNat % 4 != 0)
  | .agtMapnew _ base zpg default _ l0 lmax _ vw _ => !(base.toNat % 65536 != 0) && !(base.toNat < 4294967296) && !(zpg.toNat == 0) && !(!vw && default.toNat / 4294967296 != 0) && !(lmax.toNat < l0.toNat) && !(25 < lmax.toNat || 1024 * zpg.toNat < 2 ^ lmax.toNat + 1)
  | .agtMapdel _ _ => true
  | .agtRtload _ src first count => !(src.toNat % 64 != 0) && !(first.toNat < 128) && !(count.toNat == 0 || 128 < count.toNat || 256 < first.toNat + count.toNat)
  | .preempt _ => true
  | .clusterFailure _ => true
  | .clusterLost _ => true
  | .spareTestDone _ _ => true
  | .fpEvent _ => true
  | .tabortWrite _ => true
  | .teamEnd _ _ => true
  | .shootGo _ => true
  | .shootdownComplete => true
  | .efaultClear _ => true
  | .spflagWrite _ => true
  | .wrrwWrite _ => true
  | .storeRelease _ => true
  | .storeAccept _ => true
  | .loadServed _ => true
  | .messageArrival _ => true
  | .blockedListRedecide _ => true
  | .zeroingDone _ => true
  | .pageRelocation _ => true
  | .barrierRelease _ _ _ => true
  | .barrierTimeout _ => true
  | .collectiveMatch _ => true
  | .collectivePacketArrival _ => true
  | .boardConversionDone _ _ => true
  | .boardClearDone _ _ => true
  | .rowGrant _ => true
  | .drainBeat _ => true
  | .copyGranuleGrant _ => true
  | .copyGranuleWrite _ => true
  | .tierMigration _ => true
  | .commandComplete _ => true
  | .vectorRetire _ => true
  | .sfuExecute _ => true
  | .topkMerge _ => true
  | .shippedOpPerform _ => true
  | .shippedReply _ => true
  | .mapOpPerform _ => true
  | .splitStep _ _ _ => true
  | .mapdelComplete _ => true
  | .rtloadTableWrite _ => true
  | .stackSelfRefresh _ => true
  | .memoryStall _ => true
  | .stackWake _ => true
  | .pagePrecharge _ => true
  | .bankRebuildStart _ _ _ => true
  | .bankRebuilt _ _ => true
  | .channelFailure _ _ => true
  | .channelRetired _ => true
  | .powerThrottle => true
  | .throttleEnd => true
  | .schedulingDecision => true
  | .threadStart _ _ => true
  | .coreFreed _ => true
  | .gridComplete _ => true
  | .hostDoorbell _ _ => true
  | .hostPacketCheck _ _ => true
  | .hsemTake _ _ => true
  | .hsemRelease _ _ => true
  | .hostLinkDown _ => true
  | .serviceCoreReset _ => true
  | .configRegisterWrite _ _ _ _ => true
  | .bufctlGo _ _ => true
  | .bufferAssignDone => true
  | .cfgrejClear _ _ => true
  | .fabidWrite _ _ => true
  | .pwrcapWrite _ _ => true
  | .spctlWrite _ _ => true
  | .tmstatClear _ _ _ => true
  | .affmissClear _ => true
  | .hostWindowRead _ _ _ => true
  | .hostWindowWrite _ _ _ => true
  | .attest _ => true
  | .keyLoad _ => true
  | .keyClear _ => true
  | .frzPin => true
  | .frzcmdWrite _ => true
  | .freeze => true
  | .idcode => true
  | .fmaddr => true
  | .fmdata => true
  | .bypass => true
  | .reset _ => true
  | .illegalInstruction _ => true
  | .reservedField _ => true
  | .fetchRegion _ => true
  | .peerLinkDown _ => true

end Sys2Proof
end

