-- ==== Sys2Proof/Decode.lean ====
section
/-! DEFINITION. The decoder of instruction words, command words and Rannen-port codes, total on every word, and the
encoder (spec/04 R78-R89, and each entry's encoding). Words are read as natural numbers. -/

namespace Sys2Proof

/-- Why a word is not an instruction (R84). -/
inductive Reject where
  /-- ILLEGAL_INSTRUCTION (0x01). -/
  | illegal
  /-- RESERVED_FIELD (0x02). -/
  | reserved
  deriving DecidableEq, Repr

/-- The field of `n` bits whose lowest bit is `lo`. -/
def fld (w lo n : Nat) : Nat := w / 2 ^ lo % 2 ^ n

/-- The order of checks of R84: illegal encodings, then reserved fields. -/
def pick (illegal reserved : Bool) (i : Instr) : Except Reject Instr :=
  if illegal then .error .illegal else if reserved then .error .reserved else .ok i

/-- Major 0x01: add to popc. -/
def decode01 (w : Nat) : Except Reject Instr :=
  match fld w 0 11 with
  | 0 => pick (false) (false) (.add (.ofNat 5 (fld w 21 5)) (.ofNat 5 (fld w 16 5)) (.ofNat 5 (fld w 11 5)))
  | 1 => pick (false) (false) (.sub (.ofNat 5 (fld w 21 5)) (.ofNat 5 (fld w 16 5)) (.ofNat 5 (fld w 11 5)))
  | 2 => pick (false) (false) (.and (.ofNat 5 (fld w 21 5)) (.ofNat 5 (fld w 16 5)) (.ofNat 5 (fld w 11 5)))
  | 3 => pick (false) (false) (.or (.ofNat 5 (fld w 21 5)) (.ofNat 5 (fld w 16 5)) (.ofNat 5 (fld w 11 5)))
  | 4 => pick (false) (false) (.xor (.ofNat 5 (fld w 21 5)) (.ofNat 5 (fld w 16 5)) (.ofNat 5 (fld w 11 5)))
  | 5 => pick (false) (false) (.sll (.ofNat 5 (fld w 21 5)) (.ofNat 5 (fld w 16 5)) (.ofNat 5 (fld w 11 5)))
  | 6 => pick (false) (false) (.srl (.ofNat 5 (fld w 21 5)) (.ofNat 5 (fld w 16 5)) (.ofNat 5 (fld w 11 5)))
  | 7 => pick (false) (false) (.sra (.ofNat 5 (fld w 21 5)) (.ofNat 5 (fld w 16 5)) (.ofNat 5 (fld w 11 5)))
  | 8 => pick (false) (false) (.slt (.ofNat 5 (fld w 21 5)) (.ofNat 5 (fld w 16 5)) (.ofNat 5 (fld w 11 5)))
  | 9 => pick (false) (false) (.sltu (.ofNat 5 (fld w 21 5)) (.ofNat 5 (fld w 16 5)) (.ofNat 5 (fld w 11 5)))
  | 10 => pick (false) (false) (.min (.ofNat 5 (fld w 21 5)) (.ofNat 5 (fld w 16 5)) (.ofNat 5 (fld w 11 5)))
  | 11 => pick (false) (false) (.max (.ofNat 5 (fld w 21 5)) (.ofNat 5 (fld w 16 5)) (.ofNat 5 (fld w 11 5)))
  | 12 => pick (false) (false) (.minu (.ofNat 5 (fld w 21 5)) (.ofNat 5 (fld w 16 5)) (.ofNat 5 (fld w 11 5)))
  | 13 => pick (false) (false) (.maxu (.ofNat 5 (fld w 21 5)) (.ofNat 5 (fld w 16 5)) (.ofNat 5 (fld w 11 5)))
  | 14 => pick (false) (false) (.ror (.ofNat 5 (fld w 21 5)) (.ofNat 5 (fld w 16 5)) (.ofNat 5 (fld w 11 5)))
  | 15 => pick (false) (fld w 11 5 != 0) (.clz (.ofNat 5 (fld w 21 5)) (.ofNat 5 (fld w 16 5)))
  | 16 => pick (false) (fld w 11 5 != 0) (.ctz (.ofNat 5 (fld w 21 5)) (.ofNat 5 (fld w 16 5)))
  | 17 => pick (false) (fld w 11 5 != 0) (.popc (.ofNat 5 (fld w 21 5)) (.ofNat 5 (fld w 16 5)))
  | _ => .error .illegal

/-- Major 0x02: addi. -/
def decode02 (w : Nat) : Except Reject Instr :=
  pick (false) (false) (.addi (.ofNat 5 (fld w 21 5)) (.ofNat 5 (fld w 16 5)) (.ofNat 16 (fld w 0 16)))

/-- Major 0x03: andi. -/
def decode03 (w : Nat) : Except Reject Instr :=
  pick (false) (false) (.andi (.ofNat 5 (fld w 21 5)) (.ofNat 5 (fld w 16 5)) (.ofNat 16 (fld w 0 16)))

/-- Major 0x04: ori. -/
def decode04 (w : Nat) : Except Reject Instr :=
  pick (false) (false) (.ori (.ofNat 5 (fld w 21 5)) (.ofNat 5 (fld w 16 5)) (.ofNat 16 (fld w 0 16)))

/-- Major 0x05: xori. -/
def decode05 (w : Nat) : Except Reject Instr :=
  pick (false) (false) (.xori (.ofNat 5 (fld w 21 5)) (.ofNat 5 (fld w 16 5)) (.ofNat 16 (fld w 0 16)))

/-- Major 0x06: slti. -/
def decode06 (w : Nat) : Except Reject Instr :=
  pick (false) (false) (.slti (.ofNat 5 (fld w 21 5)) (.ofNat 5 (fld w 16 5)) (.ofNat 16 (fld w 0 16)))

/-- Major 0x07: sltiu. -/
def decode07 (w : Nat) : Except Reject Instr :=
  pick (false) (false) (.sltiu (.ofNat 5 (fld w 21 5)) (.ofNat 5 (fld w 16 5)) (.ofNat 16 (fld w 0 16)))

/-- Major 0x08: slli, srli, srai, rori. -/
def decode08 (w : Nat) : Except Reject Instr :=
  match fld w 8 8 with
  | 0 => pick (false) (fld w 6 2 != 0) (.slli (.ofNat 5 (fld w 21 5)) (.ofNat 5 (fld w 16 5)) (.ofNat 6 (fld w 0 6)))
  | 1 => pick (false) (fld w 6 2 != 0) (.srli (.ofNat 5 (fld w 21 5)) (.ofNat 5 (fld w 16 5)) (.ofNat 6 (fld w 0 6)))
  | 2 => pick (false) (fld w 6 2 != 0) (.srai (.ofNat 5 (fld w 21 5)) (.ofNat 5 (fld w 16 5)) (.ofNat 6 (fld w 0 6)))
  | 3 => pick (false) (fld w 6 2 != 0) (.rori (.ofNat 5 (fld w 21 5)) (.ofNat 5 (fld w 16 5)) (.ofNat 6 (fld w 0 6)))
  | _ => .error .illegal

/-- Major 0x09: lui. -/
def decode09 (w : Nat) : Except Reject Instr :=
  pick (false) (fld w 16 5 != 0) (.lui (.ofNat 5 (fld w 21 5)) (.ofNat 16 (fld w 0 16)))

/-- Major 0x0A: addpc. -/
def decode0A (w : Nat) : Except Reject Instr :=
  pick (false) (fld w 16 5 != 0) (.addpc (.ofNat 5 (fld w 21 5)) (.ofNat 16 (fld w 0 16)))

/-- Major 0x0B: mul, mulh, mulhu, mulhsu, div, divu, rem, remu. -/
def decode0B (w : Nat) : Except Reject Instr :=
  match fld w 0 11 with
  | 0 => pick (false) (false) (.mul (.ofNat 5 (fld w 21 5)) (.ofNat 5 (fld w 16 5)) (.ofNat 5 (fld w 11 5)))
  | 1 => pick (false) (false) (.mulh (.ofNat 5 (fld w 21 5)) (.ofNat 5 (fld w 16 5)) (.ofNat 5 (fld w 11 5)))
  | 2 => pick (false) (false) (.mulhu (.ofNat 5 (fld w 21 5)) (.ofNat 5 (fld w 16 5)) (.ofNat 5 (fld w 11 5)))
  | 3 => pick (false) (false) (.mulhsu (.ofNat 5 (fld w 21 5)) (.ofNat 5 (fld w 16 5)) (.ofNat 5 (fld w 11 5)))
  | 4 => pick (false) (false) (.div (.ofNat 5 (fld w 21 5)) (.ofNat 5 (fld w 16 5)) (.ofNat 5 (fld w 11 5)))
  | 5 => pick (false) (false) (.divu (.ofNat 5 (fld w 21 5)) (.ofNat 5 (fld w 16 5)) (.ofNat 5 (fld w 11 5)))
  | 6 => pick (false) (false) (.rem (.ofNat 5 (fld w 21 5)) (.ofNat 5 (fld w 16 5)) (.ofNat 5 (fld w 11 5)))
  | 7 => pick (false) (false) (.remu (.ofNat 5 (fld w 21 5)) (.ofNat 5 (fld w 16 5)) (.ofNat 5 (fld w 11 5)))
  | _ => .error .illegal

/-- Major 0x0C: ldb. -/
def decode0C (w : Nat) : Except Reject Instr :=
  pick (false) (false) (.ldb (.ofNat 5 (fld w 21 5)) (.ofNat 5 (fld w 16 5)) (.ofNat 16 (fld w 0 16)))

/-- Major 0x0D: ldbu. -/
def decode0D (w : Nat) : Except Reject Instr :=
  pick (false) (false) (.ldbu (.ofNat 5 (fld w 21 5)) (.ofNat 5 (fld w 16 5)) (.ofNat 16 (fld w 0 16)))

/-- Major 0x0E: ldh. -/
def decode0E (w : Nat) : Except Reject Instr :=
  pick (false) (false) (.ldh (.ofNat 5 (fld w 21 5)) (.ofNat 5 (fld w 16 5)) (.ofNat 16 (fld w 0 16)))

/-- Major 0x0F: ldhu. -/
def decode0F (w : Nat) : Except Reject Instr :=
  pick (false) (false) (.ldhu (.ofNat 5 (fld w 21 5)) (.ofNat 5 (fld w 16 5)) (.ofNat 16 (fld w 0 16)))

/-- Major 0x10: ldw. -/
def decode10 (w : Nat) : Except Reject Instr :=
  pick (false) (false) (.ldw (.ofNat 5 (fld w 21 5)) (.ofNat 5 (fld w 16 5)) (.ofNat 16 (fld w 0 16)))

/-- Major 0x11: ldwu. -/
def decode11 (w : Nat) : Except Reject Instr :=
  pick (false) (false) (.ldwu (.ofNat 5 (fld w 21 5)) (.ofNat 5 (fld w 16 5)) (.ofNat 16 (fld w 0 16)))

/-- Major 0x12: ld. -/
def decode12 (w : Nat) : Except Reject Instr :=
  pick (false) (false) (.ld (.ofNat 5 (fld w 21 5)) (.ofNat 5 (fld w 16 5)) (.ofNat 16 (fld w 0 16)))

/-- Major 0x13: stb. -/
def decode13 (w : Nat) : Except Reject Instr :=
  pick (false) (false) (.stb (.ofNat 5 (fld w 21 5)) (.ofNat 5 (fld w 16 5)) (.ofNat 16 (fld w 0 16)))

/-- Major 0x14: sth. -/
def decode14 (w : Nat) : Except Reject Instr :=
  pick (false) (false) (.sth (.ofNat 5 (fld w 21 5)) (.ofNat 5 (fld w 16 5)) (.ofNat 16 (fld w 0 16)))

/-- Major 0x15: stw. -/
def decode15 (w : Nat) : Except Reject Instr :=
  pick (false) (false) (.stw (.ofNat 5 (fld w 21 5)) (.ofNat 5 (fld w 16 5)) (.ofNat 16 (fld w 0 16)))

/-- Major 0x16: st. -/
def decode16 (w : Nat) : Except Reject Instr :=
  pick (false) (false) (.st (.ofNat 5 (fld w 21 5)) (.ofNat 5 (fld w 16 5)) (.ofNat 16 (fld w 0 16)))

/-- Major 0x17: fldw. -/
def decode17 (w : Nat) : Except Reject Instr :=
  pick (false) (false) (.fldw (.ofNat 5 (fld w 21 5)) (.ofNat 5 (fld w 16 5)) (.ofNat 16 (fld w 0 16)))

/-- Major 0x18: fldd. -/
def decode18 (w : Nat) : Except Reject Instr :=
  pick (false) (false) (.fldd (.ofNat 5 (fld w 21 5)) (.ofNat 5 (fld w 16 5)) (.ofNat 16 (fld w 0 16)))

/-- Major 0x19: fstw. -/
def decode19 (w : Nat) : Except Reject Instr :=
  pick (false) (false) (.fstw (.ofNat 5 (fld w 21 5)) (.ofNat 5 (fld w 16 5)) (.ofNat 16 (fld w 0 16)))

/-- Major 0x1A: fstd. -/
def decode1A (w : Nat) : Except Reject Instr :=
  pick (false) (false) (.fstd (.ofNat 5 (fld w 21 5)) (.ofNat 5 (fld w 16 5)) (.ofNat 16 (fld w 0 16)))

/-- Major 0x1B: savem_g to fence_system. -/
def decode1B (w : Nat) : Except Reject Instr :=
  match fld w 0 11 with
  | 0 => pick (fld w 11 5 < fld w 21 5) (false) (.savemG (.ofNat 5 (fld w 21 5)) (.ofNat 5 (fld w 16 5)) (.ofNat 5 (fld w 11 5)))
  | 1 => pick (fld w 11 5 < fld w 21 5 || (fld w 21 5 ≤ fld w 16 5 && fld w 16 5 ≤ fld w 11 5)) (false) (.loadmG (.ofNat 5 (fld w 21 5)) (.ofNat 5 (fld w 16 5)) (.ofNat 5 (fld w 11 5)))
  | 2 => pick (fld w 11 5 < fld w 21 5) (false) (.savemF (.ofNat 5 (fld w 21 5)) (.ofNat 5 (fld w 16 5)) (.ofNat 5 (fld w 11 5)))
  | 3 => pick (fld w 11 5 < fld w 21 5) (false) (.loadmF (.ofNat 5 (fld w 21 5)) (.ofNat 5 (fld w 16 5)) (.ofNat 5 (fld w 11 5)))
  | 16 => pick (false) (fld w 11 15 != 0) (.fenceCore)
  | 17 => pick (false) (fld w 11 15 != 0) (.fenceTeam)
  | 18 => pick (false) (fld w 11 15 != 0) (.fenceCluster)
  | 19 => pick (false) (fld w 11 15 != 0) (.fenceDie)
  | 20 => pick (false) (fld w 11 15 != 0) (.fencePackage)
  | 21 => pick (false) (fld w 11 15 != 0) (.fenceFabric)
  | 22 => pick (false) (fld w 11 15 != 0) (.fenceSystem)
  | _ => .error .illegal

/-- Major 0x1C: beq. -/
def decode1C (w : Nat) : Except Reject Instr :=
  pick (false) (false) (.beq (.ofNat 5 (fld w 21 5)) (.ofNat 5 (fld w 16 5)) (.ofNat 16 (fld w 0 16)))

/-- Major 0x1D: bne. -/
def decode1D (w : Nat) : Except Reject Instr :=
  pick (false) (false) (.bne (.ofNat 5 (fld w 21 5)) (.ofNat 5 (fld w 16 5)) (.ofNat 16 (fld w 0 16)))

/-- Major 0x1E: blt. -/
def decode1E (w : Nat) : Except Reject Instr :=
  pick (false) (false) (.blt (.ofNat 5 (fld w 21 5)) (.ofNat 5 (fld w 16 5)) (.ofNat 16 (fld w 0 16)))

/-- Major 0x1F: bge. -/
def decode1F (w : Nat) : Except Reject Instr :=
  pick (false) (false) (.bge (.ofNat 5 (fld w 21 5)) (.ofNat 5 (fld w 16 5)) (.ofNat 16 (fld w 0 16)))

/-- Major 0x20: bltu. -/
def decode20 (w : Nat) : Except Reject Instr :=
  pick (false) (false) (.bltu (.ofNat 5 (fld w 21 5)) (.ofNat 5 (fld w 16 5)) (.ofNat 16 (fld w 0 16)))

/-- Major 0x21: bgeu. -/
def decode21 (w : Nat) : Except Reject Instr :=
  pick (false) (false) (.bgeu (.ofNat 5 (fld w 21 5)) (.ofNat 5 (fld w 16 5)) (.ofNat 16 (fld w 0 16)))

/-- Major 0x22: jal. -/
def decode22 (w : Nat) : Except Reject Instr :=
  pick (false) (false) (.jal (.ofNat 5 (fld w 21 5)) (.ofNat 21 (fld w 0 21)))

/-- Major 0x23: jalr. -/
def decode23 (w : Nat) : Except Reject Instr :=
  pick (false) (false) (.jalr (.ofNat 5 (fld w 21 5)) (.ofNat 5 (fld w 16 5)) (.ofNat 16 (fld w 0 16)))

/-- Major 0x24: fadd to fcvt_s_e5. -/
def decode24 (w : Nat) : Except Reject Instr :=
  match fld w 0 11 with
  | 0 => pick (false) (false) (.fadd (.ofNat 5 (fld w 21 5)) (.ofNat 5 (fld w 16 5)) (.ofNat 5 (fld w 11 5)) (fld w 10 1 == 1))
  | 1 => pick (false) (false) (.fsub (.ofNat 5 (fld w 21 5)) (.ofNat 5 (fld w 16 5)) (.ofNat 5 (fld w 11 5)) (fld w 10 1 == 1))
  | 2 => pick (false) (false) (.fmul (.ofNat 5 (fld w 21 5)) (.ofNat 5 (fld w 16 5)) (.ofNat 5 (fld w 11 5)) (fld w 10 1 == 1))
  | 3 => pick (false) (false) (.fdiv (.ofNat 5 (fld w 21 5)) (.ofNat 5 (fld w 16 5)) (.ofNat 5 (fld w 11 5)) (fld w 10 1 == 1))
  | 4 => pick (false) (fld w 11 5 != 0) (.fsqrt (.ofNat 5 (fld w 21 5)) (.ofNat 5 (fld w 16 5)) (fld w 10 1 == 1))
  | 5 => pick (false) (false) (.fmin (.ofNat 5 (fld w 21 5)) (.ofNat 5 (fld w 16 5)) (.ofNat 5 (fld w 11 5)) (fld w 10 1 == 1))
  | 6 => pick (false) (false) (.fmax (.ofNat 5 (fld w 21 5)) (.ofNat 5 (fld w 16 5)) (.ofNat 5 (fld w 11 5)) (fld w 10 1 == 1))
  | 7 => pick (false) (false) (.fsgnj (.ofNat 5 (fld w 21 5)) (.ofNat 5 (fld w 16 5)) (.ofNat 5 (fld w 11 5)) (fld w 10 1 == 1))
  | 8 => pick (false) (false) (.fsgnjn (.ofNat 5 (fld w 21 5)) (.ofNat 5 (fld w 16 5)) (.ofNat 5 (fld w 11 5)) (fld w 10 1 == 1))
  | 9 => pick (false) (false) (.fsgnjx (.ofNat 5 (fld w 21 5)) (.ofNat 5 (fld w 16 5)) (.ofNat 5 (fld w 11 5)) (fld w 10 1 == 1))
  | 10 => pick (false) (false) (.feq (.ofNat 5 (fld w 21 5)) (.ofNat 5 (fld w 16 5)) (.ofNat 5 (fld w 11 5)) (fld w 10 1 == 1))
  | 11 => pick (false) (false) (.flt (.ofNat 5 (fld w 21 5)) (.ofNat 5 (fld w 16 5)) (.ofNat 5 (fld w 11 5)) (fld w 10 1 == 1))
  | 12 => pick (false) (false) (.fle (.ofNat 5 (fld w 21 5)) (.ofNat 5 (fld w 16 5)) (.ofNat 5 (fld w 11 5)) (fld w 10 1 == 1))
  | 13 => pick (false) (fld w 11 5 != 0) (.fclass (.ofNat 5 (fld w 21 5)) (.ofNat 5 (fld w 16 5)) (fld w 10 1 == 1))
  | 32 => pick (false) (fld w 11 5 != 0) (.fcvtSD (.ofNat 5 (fld w 21 5)) (.ofNat 5 (fld w 16 5)))
  | 33 => pick (false) (fld w 11 5 != 0) (.fcvtDS (.ofNat 5 (fld w 21 5)) (.ofNat 5 (fld w 16 5)))
  | 34 => pick (false) (fld w 11 5 != 0) (.fcvtWS (.ofNat 5 (fld w 21 5)) (.ofNat 5 (fld w 16 5)))
  | 35 => pick (false) (fld w 11 5 != 0) (.fcvtLS (.ofNat 5 (fld w 21 5)) (.ofNat 5 (fld w 16 5)))
  | 36 => pick (false) (fld w 11 5 != 0) (.fcvtSW (.ofNat 5 (fld w 21 5)) (.ofNat 5 (fld w 16 5)))
  | 37 => pick (false) (fld w 11 5 != 0) (.fcvtSL (.ofNat 5 (fld w 21 5)) (.ofNat 5 (fld w 16 5)))
  | 38 => pick (false) (fld w 11 5 != 0) (.fcvtWD (.ofNat 5 (fld w 21 5)) (.ofNat 5 (fld w 16 5)))
  | 39 => pick (false) (fld w 11 5 != 0) (.fcvtLD (.ofNat 5 (fld w 21 5)) (.ofNat 5 (fld w 16 5)))
  | 40 => pick (false) (fld w 11 5 != 0) (.fcvtDW (.ofNat 5 (fld w 21 5)) (.ofNat 5 (fld w 16 5)))
  | 41 => pick (false) (fld w 11 5 != 0) (.fcvtDL (.ofNat 5 (fld w 21 5)) (.ofNat 5 (fld w 16 5)))
  | 42 => pick (false) (fld w 11 5 != 0) (.fmvX (.ofNat 5 (fld w 21 5)) (.ofNat 5 (fld w 16 5)))
  | 43 => pick (false) (fld w 11 5 != 0) (.fmvF (.ofNat 5 (fld w 21 5)) (.ofNat 5 (fld w 16 5)))
  | 44 => pick (false) (fld w 11 5 != 0) (.fcvtBfS (.ofNat 5 (fld w 21 5)) (.ofNat 5 (fld w 16 5)))
  | 45 => pick (false) (fld w 11 5 != 0) (.fcvtSBf (.ofNat 5 (fld w 21 5)) (.ofNat 5 (fld w 16 5)))
  | 46 => pick (false) (fld w 11 5 != 0) (.fcvtE4S (.ofNat 5 (fld w 21 5)) (.ofNat 5 (fld w 16 5)))
  | 47 => pick (false) (fld w 11 5 != 0) (.fcvtSE4 (.ofNat 5 (fld w 21 5)) (.ofNat 5 (fld w 16 5)))
  | 48 => pick (false) (fld w 11 5 != 0) (.fcvtE5S (.ofNat 5 (fld w 21 5)) (.ofNat 5 (fld w 16 5)))
  | 49 => pick (false) (fld w 11 5 != 0) (.fcvtSE5 (.ofNat 5 (fld w 21 5)) (.ofNat 5 (fld w 16 5)))
  | 1024 => pick (false) (false) (.fadd (.ofNat 5 (fld w 21 5)) (.ofNat 5 (fld w 16 5)) (.ofNat 5 (fld w 11 5)) (fld w 10 1 == 1))
  | 1025 => pick (false) (false) (.fsub (.ofNat 5 (fld w 21 5)) (.ofNat 5 (fld w 16 5)) (.ofNat 5 (fld w 11 5)) (fld w 10 1 == 1))
  | 1026 => pick (false) (false) (.fmul (.ofNat 5 (fld w 21 5)) (.ofNat 5 (fld w 16 5)) (.ofNat 5 (fld w 11 5)) (fld w 10 1 == 1))
  | 1027 => pick (false) (false) (.fdiv (.ofNat 5 (fld w 21 5)) (.ofNat 5 (fld w 16 5)) (.ofNat 5 (fld w 11 5)) (fld w 10 1 == 1))
  | 1028 => pick (false) (fld w 11 5 != 0) (.fsqrt (.ofNat 5 (fld w 21 5)) (.ofNat 5 (fld w 16 5)) (fld w 10 1 == 1))
  | 1029 => pick (false) (false) (.fmin (.ofNat 5 (fld w 21 5)) (.ofNat 5 (fld w 16 5)) (.ofNat 5 (fld w 11 5)) (fld w 10 1 == 1))
  | 1030 => pick (false) (false) (.fmax (.ofNat 5 (fld w 21 5)) (.ofNat 5 (fld w 16 5)) (.ofNat 5 (fld w 11 5)) (fld w 10 1 == 1))
  | 1031 => pick (false) (false) (.fsgnj (.ofNat 5 (fld w 21 5)) (.ofNat 5 (fld w 16 5)) (.ofNat 5 (fld w 11 5)) (fld w 10 1 == 1))
  | 1032 => pick (false) (false) (.fsgnjn (.ofNat 5 (fld w 21 5)) (.ofNat 5 (fld w 16 5)) (.ofNat 5 (fld w 11 5)) (fld w 10 1 == 1))
  | 1033 => pick (false) (false) (.fsgnjx (.ofNat 5 (fld w 21 5)) (.ofNat 5 (fld w 16 5)) (.ofNat 5 (fld w 11 5)) (fld w 10 1 == 1))
  | 1034 => pick (false) (false) (.feq (.ofNat 5 (fld w 21 5)) (.ofNat 5 (fld w 16 5)) (.ofNat 5 (fld w 11 5)) (fld w 10 1 == 1))
  | 1035 => pick (false) (false) (.flt (.ofNat 5 (fld w 21 5)) (.ofNat 5 (fld w 16 5)) (.ofNat 5 (fld w 11 5)) (fld w 10 1 == 1))
  | 1036 => pick (false) (false) (.fle (.ofNat 5 (fld w 21 5)) (.ofNat 5 (fld w 16 5)) (.ofNat 5 (fld w 11 5)) (fld w 10 1 == 1))
  | 1037 => pick (false) (fld w 11 5 != 0) (.fclass (.ofNat 5 (fld w 21 5)) (.ofNat 5 (fld w 16 5)) (fld w 10 1 == 1))
  | _ => .error .illegal

/-- Major 0x25: fmadd, fmsub, fnmadd, fnmsub. -/
def decode25 (w : Nat) : Except Reject Instr :=
  match fld w 0 6 with
  | 0 => pick (false) (false) (.fmadd (.ofNat 5 (fld w 21 5)) (.ofNat 5 (fld w 16 5)) (.ofNat 5 (fld w 11 5)) (.ofNat 5 (fld w 6 5)) (fld w 2 1 == 1))
  | 1 => pick (false) (false) (.fmsub (.ofNat 5 (fld w 21 5)) (.ofNat 5 (fld w 16 5)) (.ofNat 5 (fld w 11 5)) (.ofNat 5 (fld w 6 5)) (fld w 2 1 == 1))
  | 2 => pick (false) (false) (.fnmadd (.ofNat 5 (fld w 21 5)) (.ofNat 5 (fld w 16 5)) (.ofNat 5 (fld w 11 5)) (.ofNat 5 (fld w 6 5)) (fld w 2 1 == 1))
  | 3 => pick (false) (false) (.fnmsub (.ofNat 5 (fld w 21 5)) (.ofNat 5 (fld w 16 5)) (.ofNat 5 (fld w 11 5)) (.ofNat 5 (fld w 6 5)) (fld w 2 1 == 1))
  | 4 => pick (false) (false) (.fmadd (.ofNat 5 (fld w 21 5)) (.ofNat 5 (fld w 16 5)) (.ofNat 5 (fld w 11 5)) (.ofNat 5 (fld w 6 5)) (fld w 2 1 == 1))
  | 5 => pick (false) (false) (.fmsub (.ofNat 5 (fld w 21 5)) (.ofNat 5 (fld w 16 5)) (.ofNat 5 (fld w 11 5)) (.ofNat 5 (fld w 6 5)) (fld w 2 1 == 1))
  | 6 => pick (false) (false) (.fnmadd (.ofNat 5 (fld w 21 5)) (.ofNat 5 (fld w 16 5)) (.ofNat 5 (fld w 11 5)) (.ofNat 5 (fld w 6 5)) (fld w 2 1 == 1))
  | 7 => pick (false) (false) (.fnmsub (.ofNat 5 (fld w 21 5)) (.ofNat 5 (fld w 16 5)) (.ofNat 5 (fld w 11 5)) (.ofNat 5 (fld w 6 5)) (fld w 2 1 == 1))
  | _ => .error .illegal

/-- Major 0x26: rdc, wrc, eret, wfi, end, resume. -/
def decode26 (w : Nat) : Except Reject Instr :=
  match fld w 0 4 with
  | 0 => pick (!(assignedCreg (fld w 4 12))) (fld w 16 5 != 0) (.rdc (.ofNat 5 (fld w 21 5)) (.ofNat 12 (fld w 4 12)))
  | 1 => pick (!(assignedCreg (fld w 4 12))) (fld w 21 5 != 0) (.wrc (.ofNat 5 (fld w 16 5)) (.ofNat 12 (fld w 4 12)))
  | 2 => pick (false) (fld w 4 22 != 0) (.eret)
  | 3 => pick (false) (fld w 4 22 != 0) (.wfi)
  | 4 => pick (false) (fld w 4 22 != 0) (.endThread)
  | 5 => pick (false) (fld w 4 12 != 0) (.resume (.ofNat 5 (fld w 21 5)) (.ofNat 5 (fld w 16 5)))
  | _ => .error .illegal

/-- Major 0x27: amo_add to ship. -/
def decode27 (w : Nat) : Except Reject Instr :=
  match fld w 0 6 with
  | 0 => pick (false) (fld w 6 5 != 0 || (fld w 5 1 == 1 && fld w 21 5 != 0)) (.amoAdd (.ofNat 5 (fld w 21 5)) (.ofNat 5 (fld w 16 5)) (.ofNat 5 (fld w 11 5)) (fld w 5 1 == 1) (fld w 4 1 == 1))
  | 1 => pick (false) (fld w 6 5 != 0 || (fld w 5 1 == 1 && fld w 21 5 != 0)) (.amoMin (.ofNat 5 (fld w 21 5)) (.ofNat 5 (fld w 16 5)) (.ofNat 5 (fld w 11 5)) (fld w 5 1 == 1) (fld w 4 1 == 1))
  | 2 => pick (false) (fld w 6 5 != 0 || (fld w 5 1 == 1 && fld w 21 5 != 0)) (.amoMax (.ofNat 5 (fld w 21 5)) (.ofNat 5 (fld w 16 5)) (.ofNat 5 (fld w 11 5)) (fld w 5 1 == 1) (fld w 4 1 == 1))
  | 3 => pick (false) (fld w 6 5 != 0 || (fld w 5 1 == 1 && fld w 21 5 != 0)) (.amoSwap (.ofNat 5 (fld w 21 5)) (.ofNat 5 (fld w 16 5)) (.ofNat 5 (fld w 11 5)) (fld w 5 1 == 1) (fld w 4 1 == 1))
  | 4 => pick (false) ((fld w 5 1 == 1 && fld w 21 5 != 0)) (.amoCas (.ofNat 5 (fld w 21 5)) (.ofNat 5 (fld w 16 5)) (.ofNat 5 (fld w 11 5)) (.ofNat 5 (fld w 6 5)) (fld w 5 1 == 1) (fld w 4 1 == 1))
  | 5 => pick (false) (fld w 6 5 != 0 || (fld w 5 1 == 1 && fld w 21 5 != 0)) (.amoAnd (.ofNat 5 (fld w 21 5)) (.ofNat 5 (fld w 16 5)) (.ofNat 5 (fld w 11 5)) (fld w 5 1 == 1) (fld w 4 1 == 1))
  | 6 => pick (false) (fld w 6 5 != 0 || (fld w 5 1 == 1 && fld w 21 5 != 0)) (.amoOr (.ofNat 5 (fld w 21 5)) (.ofNat 5 (fld w 16 5)) (.ofNat 5 (fld w 11 5)) (fld w 5 1 == 1) (fld w 4 1 == 1))
  | 7 => pick (false) (fld w 6 5 != 0 || (fld w 5 1 == 1 && fld w 21 5 != 0)) (.amoXor (.ofNat 5 (fld w 21 5)) (.ofNat 5 (fld w 16 5)) (.ofNat 5 (fld w 11 5)) (fld w 5 1 == 1) (fld w 4 1 == 1))
  | 8 => pick (false) (fld w 6 5 != 0 || (fld w 5 1 == 1 && fld w 21 5 != 0)) (.amoWimin (.ofNat 5 (fld w 21 5)) (.ofNat 5 (fld w 16 5)) (.ofNat 5 (fld w 11 5)) (fld w 5 1 == 1) (fld w 4 1 == 1))
  | 9 => pick (false) (fld w 6 5 != 0 || (fld w 5 1 == 1 && fld w 21 5 != 0)) (.amoMinu (.ofNat 5 (fld w 21 5)) (.ofNat 5 (fld w 16 5)) (.ofNat 5 (fld w 11 5)) (fld w 5 1 == 1) (fld w 4 1 == 1))
  | 10 => pick (false) (fld w 6 5 != 0 || (fld w 5 1 == 1 && fld w 21 5 != 0)) (.amoMaxu (.ofNat 5 (fld w 21 5)) (.ofNat 5 (fld w 16 5)) (.ofNat 5 (fld w 11 5)) (fld w 5 1 == 1) (fld w 4 1 == 1))
  | 11 => pick (false) (fld w 6 5 != 0 || (fld w 5 1 == 1 && fld w 21 5 != 0)) (.amoFadd (.ofNat 5 (fld w 21 5)) (.ofNat 5 (fld w 16 5)) (.ofNat 5 (fld w 11 5)) (fld w 5 1 == 1) (fld w 4 1 == 1))
  | 16 => pick (false) (fld w 6 5 != 0 || (fld w 5 1 == 1 && fld w 21 5 != 0)) (.amoAdd (.ofNat 5 (fld w 21 5)) (.ofNat 5 (fld w 16 5)) (.ofNat 5 (fld w 11 5)) (fld w 5 1 == 1) (fld w 4 1 == 1))
  | 17 => pick (false) (fld w 6 5 != 0 || (fld w 5 1 == 1 && fld w 21 5 != 0)) (.amoMin (.ofNat 5 (fld w 21 5)) (.ofNat 5 (fld w 16 5)) (.ofNat 5 (fld w 11 5)) (fld w 5 1 == 1) (fld w 4 1 == 1))
  | 18 => pick (false) (fld w 6 5 != 0 || (fld w 5 1 == 1 && fld w 21 5 != 0)) (.amoMax (.ofNat 5 (fld w 21 5)) (.ofNat 5 (fld w 16 5)) (.ofNat 5 (fld w 11 5)) (fld w 5 1 == 1) (fld w 4 1 == 1))
  | 19 => pick (false) (fld w 6 5 != 0 || (fld w 5 1 == 1 && fld w 21 5 != 0)) (.amoSwap (.ofNat 5 (fld w 21 5)) (.ofNat 5 (fld w 16 5)) (.ofNat 5 (fld w 11 5)) (fld w 5 1 == 1) (fld w 4 1 == 1))
  | 20 => pick (false) ((fld w 5 1 == 1 && fld w 21 5 != 0)) (.amoCas (.ofNat 5 (fld w 21 5)) (.ofNat 5 (fld w 16 5)) (.ofNat 5 (fld w 11 5)) (.ofNat 5 (fld w 6 5)) (fld w 5 1 == 1) (fld w 4 1 == 1))
  | 21 => pick (false) (fld w 6 5 != 0 || (fld w 5 1 == 1 && fld w 21 5 != 0)) (.amoAnd (.ofNat 5 (fld w 21 5)) (.ofNat 5 (fld w 16 5)) (.ofNat 5 (fld w 11 5)) (fld w 5 1 == 1) (fld w 4 1 == 1))
  | 22 => pick (false) (fld w 6 5 != 0 || (fld w 5 1 == 1 && fld w 21 5 != 0)) (.amoOr (.ofNat 5 (fld w 21 5)) (.ofNat 5 (fld w 16 5)) (.ofNat 5 (fld w 11 5)) (fld w 5 1 == 1) (fld w 4 1 == 1))
  | 23 => pick (false) (fld w 6 5 != 0 || (fld w 5 1 == 1 && fld w 21 5 != 0)) (.amoXor (.ofNat 5 (fld w 21 5)) (.ofNat 5 (fld w 16 5)) (.ofNat 5 (fld w 11 5)) (fld w 5 1 == 1) (fld w 4 1 == 1))
  | 24 => pick (false) (fld w 6 5 != 0 || (fld w 5 1 == 1 && fld w 21 5 != 0)) (.amoWimin (.ofNat 5 (fld w 21 5)) (.ofNat 5 (fld w 16 5)) (.ofNat 5 (fld w 11 5)) (fld w 5 1 == 1) (fld w 4 1 == 1))
  | 25 => pick (false) (fld w 6 5 != 0 || (fld w 5 1 == 1 && fld w 21 5 != 0)) (.amoMinu (.ofNat 5 (fld w 21 5)) (.ofNat 5 (fld w 16 5)) (.ofNat 5 (fld w 11 5)) (fld w 5 1 == 1) (fld w 4 1 == 1))
  | 26 => pick (false) (fld w 6 5 != 0 || (fld w 5 1 == 1 && fld w 21 5 != 0)) (.amoMaxu (.ofNat 5 (fld w 21 5)) (.ofNat 5 (fld w 16 5)) (.ofNat 5 (fld w 11 5)) (fld w 5 1 == 1) (fld w 4 1 == 1))
  | 27 => pick (false) (fld w 6 5 != 0 || (fld w 5 1 == 1 && fld w 21 5 != 0)) (.amoFadd (.ofNat 5 (fld w 21 5)) (.ofNat 5 (fld w 16 5)) (.ofNat 5 (fld w 11 5)) (fld w 5 1 == 1) (fld w 4 1 == 1))
  | 31 => pick (false) (fld w 6 5 != 0 || (fld w 5 1 == 1 && fld w 21 5 != 0)) (.ship (.ofNat 5 (fld w 21 5)) (.ofNat 5 (fld w 16 5)) (.ofNat 5 (fld w 11 5)) (fld w 5 1 == 1))
  | 32 => pick (false) (fld w 6 5 != 0 || (fld w 5 1 == 1 && fld w 21 5 != 0)) (.amoAdd (.ofNat 5 (fld w 21 5)) (.ofNat 5 (fld w 16 5)) (.ofNat 5 (fld w 11 5)) (fld w 5 1 == 1) (fld w 4 1 == 1))
  | 33 => pick (false) (fld w 6 5 != 0 || (fld w 5 1 == 1 && fld w 21 5 != 0)) (.amoMin (.ofNat 5 (fld w 21 5)) (.ofNat 5 (fld w 16 5)) (.ofNat 5 (fld w 11 5)) (fld w 5 1 == 1) (fld w 4 1 == 1))
  | 34 => pick (false) (fld w 6 5 != 0 || (fld w 5 1 == 1 && fld w 21 5 != 0)) (.amoMax (.ofNat 5 (fld w 21 5)) (.ofNat 5 (fld w 16 5)) (.ofNat 5 (fld w 11 5)) (fld w 5 1 == 1) (fld w 4 1 == 1))
  | 35 => pick (false) (fld w 6 5 != 0 || (fld w 5 1 == 1 && fld w 21 5 != 0)) (.amoSwap (.ofNat 5 (fld w 21 5)) (.ofNat 5 (fld w 16 5)) (.ofNat 5 (fld w 11 5)) (fld w 5 1 == 1) (fld w 4 1 == 1))
  | 36 => pick (false) ((fld w 5 1 == 1 && fld w 21 5 != 0)) (.amoCas (.ofNat 5 (fld w 21 5)) (.ofNat 5 (fld w 16 5)) (.ofNat 5 (fld w 11 5)) (.ofNat 5 (fld w 6 5)) (fld w 5 1 == 1) (fld w 4 1 == 1))
  | 37 => pick (false) (fld w 6 5 != 0 || (fld w 5 1 == 1 && fld w 21 5 != 0)) (.amoAnd (.ofNat 5 (fld w 21 5)) (.ofNat 5 (fld w 16 5)) (.ofNat 5 (fld w 11 5)) (fld w 5 1 == 1) (fld w 4 1 == 1))
  | 38 => pick (false) (fld w 6 5 != 0 || (fld w 5 1 == 1 && fld w 21 5 != 0)) (.amoOr (.ofNat 5 (fld w 21 5)) (.ofNat 5 (fld w 16 5)) (.ofNat 5 (fld w 11 5)) (fld w 5 1 == 1) (fld w 4 1 == 1))
  | 39 => pick (false) (fld w 6 5 != 0 || (fld w 5 1 == 1 && fld w 21 5 != 0)) (.amoXor (.ofNat 5 (fld w 21 5)) (.ofNat 5 (fld w 16 5)) (.ofNat 5 (fld w 11 5)) (fld w 5 1 == 1) (fld w 4 1 == 1))
  | 40 => pick (false) (fld w 6 5 != 0 || (fld w 5 1 == 1 && fld w 21 5 != 0)) (.amoWimin (.ofNat 5 (fld w 21 5)) (.ofNat 5 (fld w 16 5)) (.ofNat 5 (fld w 11 5)) (fld w 5 1 == 1) (fld w 4 1 == 1))
  | 41 => pick (false) (fld w 6 5 != 0 || (fld w 5 1 == 1 && fld w 21 5 != 0)) (.amoMinu (.ofNat 5 (fld w 21 5)) (.ofNat 5 (fld w 16 5)) (.ofNat 5 (fld w 11 5)) (fld w 5 1 == 1) (fld w 4 1 == 1))
  | 42 => pick (false) (fld w 6 5 != 0 || (fld w 5 1 == 1 && fld w 21 5 != 0)) (.amoMaxu (.ofNat 5 (fld w 21 5)) (.ofNat 5 (fld w 16 5)) (.ofNat 5 (fld w 11 5)) (fld w 5 1 == 1) (fld w 4 1 == 1))
  | 43 => pick (false) (fld w 6 5 != 0 || (fld w 5 1 == 1 && fld w 21 5 != 0)) (.amoFadd (.ofNat 5 (fld w 21 5)) (.ofNat 5 (fld w 16 5)) (.ofNat 5 (fld w 11 5)) (fld w 5 1 == 1) (fld w 4 1 == 1))
  | 48 => pick (false) (fld w 6 5 != 0 || (fld w 5 1 == 1 && fld w 21 5 != 0)) (.amoAdd (.ofNat 5 (fld w 21 5)) (.ofNat 5 (fld w 16 5)) (.ofNat 5 (fld w 11 5)) (fld w 5 1 == 1) (fld w 4 1 == 1))
  | 49 => pick (false) (fld w 6 5 != 0 || (fld w 5 1 == 1 && fld w 21 5 != 0)) (.amoMin (.ofNat 5 (fld w 21 5)) (.ofNat 5 (fld w 16 5)) (.ofNat 5 (fld w 11 5)) (fld w 5 1 == 1) (fld w 4 1 == 1))
  | 50 => pick (false) (fld w 6 5 != 0 || (fld w 5 1 == 1 && fld w 21 5 != 0)) (.amoMax (.ofNat 5 (fld w 21 5)) (.ofNat 5 (fld w 16 5)) (.ofNat 5 (fld w 11 5)) (fld w 5 1 == 1) (fld w 4 1 == 1))
  | 51 => pick (false) (fld w 6 5 != 0 || (fld w 5 1 == 1 && fld w 21 5 != 0)) (.amoSwap (.ofNat 5 (fld w 21 5)) (.ofNat 5 (fld w 16 5)) (.ofNat 5 (fld w 11 5)) (fld w 5 1 == 1) (fld w 4 1 == 1))
  | 52 => pick (false) ((fld w 5 1 == 1 && fld w 21 5 != 0)) (.amoCas (.ofNat 5 (fld w 21 5)) (.ofNat 5 (fld w 16 5)) (.ofNat 5 (fld w 11 5)) (.ofNat 5 (fld w 6 5)) (fld w 5 1 == 1) (fld w 4 1 == 1))
  | 53 => pick (false) (fld w 6 5 != 0 || (fld w 5 1 == 1 && fld w 21 5 != 0)) (.amoAnd (.ofNat 5 (fld w 21 5)) (.ofNat 5 (fld w 16 5)) (.ofNat 5 (fld w 11 5)) (fld w 5 1 == 1) (fld w 4 1 == 1))
  | 54 => pick (false) (fld w 6 5 != 0 || (fld w 5 1 == 1 && fld w 21 5 != 0)) (.amoOr (.ofNat 5 (fld w 21 5)) (.ofNat 5 (fld w 16 5)) (.ofNat 5 (fld w 11 5)) (fld w 5 1 == 1) (fld w 4 1 == 1))
  | 55 => pick (false) (fld w 6 5 != 0 || (fld w 5 1 == 1 && fld w 21 5 != 0)) (.amoXor (.ofNat 5 (fld w 21 5)) (.ofNat 5 (fld w 16 5)) (.ofNat 5 (fld w 11 5)) (fld w 5 1 == 1) (fld w 4 1 == 1))
  | 56 => pick (false) (fld w 6 5 != 0 || (fld w 5 1 == 1 && fld w 21 5 != 0)) (.amoWimin (.ofNat 5 (fld w 21 5)) (.ofNat 5 (fld w 16 5)) (.ofNat 5 (fld w 11 5)) (fld w 5 1 == 1) (fld w 4 1 == 1))
  | 57 => pick (false) (fld w 6 5 != 0 || (fld w 5 1 == 1 && fld w 21 5 != 0)) (.amoMinu (.ofNat 5 (fld w 21 5)) (.ofNat 5 (fld w 16 5)) (.ofNat 5 (fld w 11 5)) (fld w 5 1 == 1) (fld w 4 1 == 1))
  | 58 => pick (false) (fld w 6 5 != 0 || (fld w 5 1 == 1 && fld w 21 5 != 0)) (.amoMaxu (.ofNat 5 (fld w 21 5)) (.ofNat 5 (fld w 16 5)) (.ofNat 5 (fld w 11 5)) (fld w 5 1 == 1) (fld w 4 1 == 1))
  | 59 => pick (false) (fld w 6 5 != 0 || (fld w 5 1 == 1 && fld w 21 5 != 0)) (.amoFadd (.ofNat 5 (fld w 21 5)) (.ofNat 5 (fld w 16 5)) (.ofNat 5 (fld w 11 5)) (fld w 5 1 == 1) (fld w 4 1 == 1))
  | 63 => pick (false) (fld w 6 5 != 0 || (fld w 5 1 == 1 && fld w 21 5 != 0)) (.ship (.ofNat 5 (fld w 21 5)) (.ofNat 5 (fld w 16 5)) (.ofNat 5 (fld w 11 5)) (fld w 5 1 == 1))
  | _ => .error .illegal

/-- Major 0x28: mprb to miter. -/
def decode28 (w : Nat) : Except Reject Instr :=
  match fld w 0 6 with
  | 0 => pick (fld w 21 5 == 0 || fld w 21 5 % 2 == 1) (fld w 6 5 != 0) (.mprb (.ofNat 5 (fld w 21 5)) (.ofNat 5 (fld w 16 5)) (.ofNat 5 (fld w 11 5)))
  | 1 => pick (fld w 21 5 == 0 || fld w 21 5 % 2 == 1) (false) (.mins (.ofNat 5 (fld w 21 5)) (.ofNat 5 (fld w 16 5)) (.ofNat 5 (fld w 11 5)) (.ofNat 5 (fld w 6 5)))
  | 2 => pick (fld w 21 5 == 0 || fld w 21 5 % 2 == 1) (false) (.mupsAdd (.ofNat 5 (fld w 21 5)) (.ofNat 5 (fld w 16 5)) (.ofNat 5 (fld w 11 5)) (.ofNat 5 (fld w 6 5)))
  | 3 => pick (fld w 21 5 == 0 || fld w 21 5 % 2 == 1) (false) (.mupsMin (.ofNat 5 (fld w 21 5)) (.ofNat 5 (fld w 16 5)) (.ofNat 5 (fld w 11 5)) (.ofNat 5 (fld w 6 5)))
  | 4 => pick (fld w 21 5 == 0 || fld w 21 5 % 2 == 1) (false) (.mupsMax (.ofNat 5 (fld w 21 5)) (.ofNat 5 (fld w 16 5)) (.ofNat 5 (fld w 11 5)) (.ofNat 5 (fld w 6 5)))
  | 5 => pick (fld w 21 5 == 0 || fld w 21 5 % 2 == 1) (false) (.mupsOr (.ofNat 5 (fld w 21 5)) (.ofNat 5 (fld w 16 5)) (.ofNat 5 (fld w 11 5)) (.ofNat 5 (fld w 6 5)))
  | 6 => pick (fld w 21 5 == 0 || fld w 21 5 % 2 == 1) (false) (.mupsAnd (.ofNat 5 (fld w 21 5)) (.ofNat 5 (fld w 16 5)) (.ofNat 5 (fld w 11 5)) (.ofNat 5 (fld w 6 5)))
  | 7 => pick (fld w 21 5 == 0 || fld w 21 5 % 2 == 1) (false) (.mupsXor (.ofNat 5 (fld w 21 5)) (.ofNat 5 (fld w 16 5)) (.ofNat 5 (fld w 11 5)) (.ofNat 5 (fld w 6 5)))
  | 8 => pick (fld w 21 5 == 0 || fld w 21 5 % 2 == 1) (false) (.mupsReplace (.ofNat 5 (fld w 21 5)) (.ofNat 5 (fld w 16 5)) (.ofNat 5 (fld w 11 5)) (.ofNat 5 (fld w 6 5)))
  | 9 => pick (fld w 21 5 == 0 || fld w 21 5 % 2 == 1) (false) (.mupsFirst (.ofNat 5 (fld w 21 5)) (.ofNat 5 (fld w 16 5)) (.ofNat 5 (fld w 11 5)) (.ofNat 5 (fld w 6 5)))
  | 10 => pick (fld w 21 5 == 0 || fld w 21 5 % 2 == 1) (fld w 6 5 != 0) (.mrem (.ofNat 5 (fld w 21 5)) (.ofNat 5 (fld w 16 5)) (.ofNat 5 (fld w 11 5)))
  | 11 => pick (fld w 21 5 == 0 || fld w 21 5 % 2 == 1) (fld w 6 5 != 0) (.mhash (.ofNat 5 (fld w 21 5)) (.ofNat 5 (fld w 16 5)) (.ofNat 5 (fld w 11 5)))
  | 12 => pick (fld w 21 5 == 0 || fld w 21 5 % 2 == 1 || fld w 6 5 == fld w 21 5 || fld w 6 5 == fld w 21 5 + 1) (false) (.miter (.ofNat 5 (fld w 21 5)) (.ofNat 5 (fld w 16 5)) (.ofNat 5 (fld w 11 5)) (.ofNat 5 (fld w 6 5)))
  | _ => .error .illegal

/-- Major 0x29: claim, acq, acq.t, rel, relall, vclaim, vreneg. -/
def decode29 (w : Nat) : Except Reject Instr :=
  match fld w 0 11 with
  | 0 => pick (false) (fld w 11 5 != 0 || fld w 21 5 != 0) (.claim (.ofNat 5 (fld w 16 5)))
  | 1 => pick (false) (fld w 11 5 != 0 || fld w 21 5 != 0) (.acq (.ofNat 5 (fld w 16 5)))
  | 2 => pick (false) (fld w 11 5 != 0) (.acqT (.ofNat 5 (fld w 21 5)) (.ofNat 5 (fld w 16 5)))
  | 3 => pick (false) (fld w 11 5 != 0 || fld w 21 5 != 0) (.rel (.ofNat 5 (fld w 16 5)))
  | 4 => pick (false) (fld w 11 15 != 0) (.relall)
  | 5 => pick (false) (false) (.vclaim (.ofNat 5 (fld w 21 5)) (.ofNat 5 (fld w 16 5)) (.ofNat 5 (fld w 11 5)))
  | 6 => pick (false) (fld w 11 10 != 0) (.vreneg (.ofNat 5 (fld w 21 5)))
  | _ => .error .illegal

/-- Major 0x2A: bar.def, bar.arrive, bar.wait, bar.sync, bar.drop, bar.max. -/
def decode2A (w : Nat) : Except Reject Instr :=
  match fld w 0 11 with
  | 0 => pick (false) (fld w 21 5 != 0) (.barDef (.ofNat 5 (fld w 16 5)) (.ofNat 5 (fld w 11 5)))
  | 1 => pick (false) (fld w 11 5 != 0 || fld w 21 5 != 0) (.barArrive (.ofNat 5 (fld w 16 5)))
  | 2 => pick (false) (fld w 11 5 != 0 || fld w 21 5 != 0) (.barWait (.ofNat 5 (fld w 16 5)))
  | 3 => pick (false) (fld w 11 5 != 0 || fld w 21 5 != 0) (.barSync (.ofNat 5 (fld w 16 5)))
  | 4 => pick (false) (fld w 11 5 != 0 || fld w 21 5 != 0) (.barDrop (.ofNat 5 (fld w 16 5)))
  | 5 => pick (false) (false) (.barMax (.ofNat 5 (fld w 21 5)) (.ofNat 5 (fld w 16 5)) (.ofNat 5 (fld w 11 5)))
  | _ => .error .illegal

/-- Major 0x2B: waitc, waitc, rdcnt, send, recv, recv.t. A send of dest 9 to 15 is illegal
at execution, and so behind its reserved field (R84, R154). -/
def decode2B (w : Nat) : Except Reject Instr :=
  match fld w 12 4 with
  | 0 => pick (fld w 0 8 == 0) (fld w 8 4 != 0 || fld w 16 5 != 0 || fld w 25 1 != 0) (.waitc (.ofNat 4 (fld w 21 4)) (.ofNat 8 (fld w 0 8)))
  | 1 => pick (false) (fld w 0 12 != 0 || fld w 25 1 != 0) (.waitcReg (.ofNat 4 (fld w 21 4)) (.ofNat 5 (fld w 16 5)))
  | 2 => pick (false) (fld w 0 12 != 0 || fld w 20 1 != 0) (.rdcnt (.ofNat 5 (fld w 21 5)) (.ofNat 4 (fld w 16 4)))
  | 3 => if fld w 4 8 != 0 then .error .reserved
    else pick (8 < fld w 0 4) false (.send (.ofNat 5 (fld w 21 5)) (.ofNat 5 (fld w 16 5)) (.ofNat 4 (fld w 0 4)))
  | 4 => if fld w 0 1 = 0 then pick (false) (fld w 1 11 != 0 || fld w 16 5 != 0) (.recv (.ofNat 5 (fld w 21 5)))
    else pick (false) (fld w 1 11 != 0 || fld w 16 5 != 0) (.recvT (.ofNat 5 (fld w 21 5)))
  | _ => .error .illegal

/-- Major 0x2C: enq. -/
def decode2C (w : Nat) : Except Reject Instr :=
  pick (3 < fld w 23 3) (fld w 0 9 != 0) (.enq (.ofNat 3 (fld w 23 3)) (.ofNat 4 (fld w 19 4)) (.ofNat 5 (fld w 14 5)) (.ofNat 5 (fld w 9 5)))

/-- Major 0x2D: pset, pstep, prd, prdstep, mkset, mkget, mkand, mkor, mkxor, mkandn. -/
def decode2D (w : Nat) : Except Reject Instr :=
  match fld w 0 11 with
  | 0 => pick (false) (fld w 11 5 != 0 || fld w 25 1 != 0) (.pset (.ofNat 4 (fld w 21 4)) (.ofNat 5 (fld w 16 5)))
  | 1 => pick (false) (fld w 11 5 != 0 || fld w 25 1 != 0) (.pstep (.ofNat 4 (fld w 21 4)) (.ofNat 5 (fld w 16 5)))
  | 2 => pick (false) (fld w 11 5 != 0 || fld w 20 1 != 0) (.prd (.ofNat 5 (fld w 21 5)) (.ofNat 4 (fld w 16 4)))
  | 3 => pick (false) (fld w 11 5 != 0 || fld w 20 1 != 0) (.prdstep (.ofNat 5 (fld w 21 5)) (.ofNat 4 (fld w 16 4)))
  | 4 => pick (false) (fld w 11 5 != 0 || fld w 24 2 != 0) (.mkset (.ofNat 3 (fld w 21 3)) (.ofNat 5 (fld w 16 5)))
  | 5 => pick (false) (fld w 11 5 != 0 || fld w 19 2 != 0) (.mkget (.ofNat 5 (fld w 21 5)) (.ofNat 3 (fld w 16 3)))
  | 6 => pick (false) (fld w 14 2 != 0 || fld w 19 2 != 0 || fld w 24 2 != 0) (.mkand (.ofNat 3 (fld w 21 3)) (.ofNat 3 (fld w 16 3)) (.ofNat 3 (fld w 11 3)))
  | 7 => pick (false) (fld w 14 2 != 0 || fld w 19 2 != 0 || fld w 24 2 != 0) (.mkor (.ofNat 3 (fld w 21 3)) (.ofNat 3 (fld w 16 3)) (.ofNat 3 (fld w 11 3)))
  | 8 => pick (false) (fld w 14 2 != 0 || fld w 19 2 != 0 || fld w 24 2 != 0) (.mkxor (.ofNat 3 (fld w 21 3)) (.ofNat 3 (fld w 16 3)) (.ofNat 3 (fld w 11 3)))
  | 9 => pick (false) (fld w 14 2 != 0 || fld w 19 2 != 0 || fld w 24 2 != 0) (.mkandn (.ofNat 3 (fld w 21 3)) (.ofNat 3 (fld w 16 3)) (.ofNat 3 (fld w 11 3)))
  | _ => .error .illegal

/-- Major 0x2E: acmrd, acmrd.n, acmwr. -/
def decode2E (w : Nat) : Except Reject Instr :=
  match fld w 0 11 with
  | 0 => pick (false) (fld w 11 5 != 0) (.acmrd (.ofNat 5 (fld w 21 5)) (.ofNat 5 (fld w 16 5)))
  | 1 => pick (false) (fld w 11 5 != 0) (.acmrdN (.ofNat 5 (fld w 21 5)) (.ofNat 5 (fld w 16 5)))
  | 2 => pick (false) (fld w 21 5 != 0) (.acmwr (.ofNat 5 (fld w 16 5)) (.ofNat 5 (fld w 11 5)))
  | _ => .error .illegal

/-- Major 0x2F: grid. -/
def decode2F (w : Nat) : Except Reject Instr :=
  match fld w 0 11 with
  | 0 => pick (false) (false) (.grid (.ofNat 5 (fld w 21 5)) (.ofNat 5 (fld w 16 5)) (.ofNat 5 (fld w 11 5)))
  | _ => .error .illegal

/-- Major 0x30: vadd, vsub, vmul, vfma, vfms, vmin, vmax, vabs, vneg. -/
def decode30 (w : Nat) : Except Reject Instr :=
  match fld w 20 6 with
  | 0 => pick (3 < fld w 17 3) (false) (.vaddFp (.ofNat 3 (fld w 17 3)) (.ofNat 4 (fld w 13 4)) (.ofNat 4 (fld w 9 4)) (.ofNat 4 (fld w 5 4)) (.ofNat 3 (fld w 2 3)) (fld w 1 1 == 1) (fld w 0 1 == 1))
  | 1 => pick (3 < fld w 17 3) (false) (.vsubFp (.ofNat 3 (fld w 17 3)) (.ofNat 4 (fld w 13 4)) (.ofNat 4 (fld w 9 4)) (.ofNat 4 (fld w 5 4)) (.ofNat 3 (fld w 2 3)) (fld w 1 1 == 1) (fld w 0 1 == 1))
  | 2 => pick (3 < fld w 17 3) (false) (.vmulFp (.ofNat 3 (fld w 17 3)) (.ofNat 4 (fld w 13 4)) (.ofNat 4 (fld w 9 4)) (.ofNat 4 (fld w 5 4)) (.ofNat 3 (fld w 2 3)) (fld w 1 1 == 1) (fld w 0 1 == 1))
  | 3 => pick (3 < fld w 17 3) (false) (.vfma (.ofNat 3 (fld w 17 3)) (.ofNat 4 (fld w 13 4)) (.ofNat 4 (fld w 9 4)) (.ofNat 4 (fld w 5 4)) (.ofNat 3 (fld w 2 3)) (fld w 1 1 == 1) (fld w 0 1 == 1))
  | 4 => pick (3 < fld w 17 3) (false) (.vfms (.ofNat 3 (fld w 17 3)) (.ofNat 4 (fld w 13 4)) (.ofNat 4 (fld w 9 4)) (.ofNat 4 (fld w 5 4)) (.ofNat 3 (fld w 2 3)) (fld w 1 1 == 1) (fld w 0 1 == 1))
  | 5 => pick (3 < fld w 17 3) (false) (.vminFp (.ofNat 3 (fld w 17 3)) (.ofNat 4 (fld w 13 4)) (.ofNat 4 (fld w 9 4)) (.ofNat 4 (fld w 5 4)) (.ofNat 3 (fld w 2 3)) (fld w 1 1 == 1) (fld w 0 1 == 1))
  | 6 => pick (3 < fld w 17 3) (false) (.vmaxFp (.ofNat 3 (fld w 17 3)) (.ofNat 4 (fld w 13 4)) (.ofNat 4 (fld w 9 4)) (.ofNat 4 (fld w 5 4)) (.ofNat 3 (fld w 2 3)) (fld w 1 1 == 1) (fld w 0 1 == 1))
  | 7 => pick (3 < fld w 17 3) (fld w 0 1 != 0 || fld w 5 4 != 0) (.vabsFp (.ofNat 3 (fld w 17 3)) (.ofNat 4 (fld w 13 4)) (.ofNat 4 (fld w 9 4)) (.ofNat 3 (fld w 2 3)) (fld w 1 1 == 1))
  | 8 => pick (3 < fld w 17 3) (fld w 0 1 != 0 || fld w 5 4 != 0) (.vneg (.ofNat 3 (fld w 17 3)) (.ofNat 4 (fld w 13 4)) (.ofNat 4 (fld w 9 4)) (.ofNat 3 (fld w 2 3)) (fld w 1 1 == 1))
  | _ => .error .illegal

/-- Major 0x31: vadd, vsub, vmul, vmulh, vmin, vmax, vminu, vmaxu, vadds, vsubs, vabs. -/
def decode31 (w : Nat) : Except Reject Instr :=
  match fld w 20 6 with
  | 0 => pick (fld w 17 3 < 4 || 6 < fld w 17 3) (false) (.vaddInt (.ofNat 3 (fld w 17 3)) (.ofNat 4 (fld w 13 4)) (.ofNat 4 (fld w 9 4)) (.ofNat 4 (fld w 5 4)) (.ofNat 3 (fld w 2 3)) (fld w 1 1 == 1) (fld w 0 1 == 1))
  | 1 => pick (fld w 17 3 < 4 || 6 < fld w 17 3) (false) (.vsubInt (.ofNat 3 (fld w 17 3)) (.ofNat 4 (fld w 13 4)) (.ofNat 4 (fld w 9 4)) (.ofNat 4 (fld w 5 4)) (.ofNat 3 (fld w 2 3)) (fld w 1 1 == 1) (fld w 0 1 == 1))
  | 2 => pick (fld w 17 3 < 4 || 6 < fld w 17 3) (false) (.vmulInt (.ofNat 3 (fld w 17 3)) (.ofNat 4 (fld w 13 4)) (.ofNat 4 (fld w 9 4)) (.ofNat 4 (fld w 5 4)) (.ofNat 3 (fld w 2 3)) (fld w 1 1 == 1) (fld w 0 1 == 1))
  | 3 => pick (fld w 17 3 < 4 || 6 < fld w 17 3) (false) (.vmulh (.ofNat 3 (fld w 17 3)) (.ofNat 4 (fld w 13 4)) (.ofNat 4 (fld w 9 4)) (.ofNat 4 (fld w 5 4)) (.ofNat 3 (fld w 2 3)) (fld w 1 1 == 1) (fld w 0 1 == 1))
  | 4 => pick (fld w 17 3 < 4 || 6 < fld w 17 3) (false) (.vminInt (.ofNat 3 (fld w 17 3)) (.ofNat 4 (fld w 13 4)) (.ofNat 4 (fld w 9 4)) (.ofNat 4 (fld w 5 4)) (.ofNat 3 (fld w 2 3)) (fld w 1 1 == 1) (fld w 0 1 == 1))
  | 5 => pick (fld w 17 3 < 4 || 6 < fld w 17 3) (false) (.vmaxInt (.ofNat 3 (fld w 17 3)) (.ofNat 4 (fld w 13 4)) (.ofNat 4 (fld w 9 4)) (.ofNat 4 (fld w 5 4)) (.ofNat 3 (fld w 2 3)) (fld w 1 1 == 1) (fld w 0 1 == 1))
  | 6 => pick (fld w 17 3 < 4 || 6 < fld w 17 3) (false) (.vminu (.ofNat 3 (fld w 17 3)) (.ofNat 4 (fld w 13 4)) (.ofNat 4 (fld w 9 4)) (.ofNat 4 (fld w 5 4)) (.ofNat 3 (fld w 2 3)) (fld w 1 1 == 1) (fld w 0 1 == 1))
  | 7 => pick (fld w 17 3 < 4 || 6 < fld w 17 3) (false) (.vmaxu (.ofNat 3 (fld w 17 3)) (.ofNat 4 (fld w 13 4)) (.ofNat 4 (fld w 9 4)) (.ofNat 4 (fld w 5 4)) (.ofNat 3 (fld w 2 3)) (fld w 1 1 == 1) (fld w 0 1 == 1))
  | 8 => pick (fld w 17 3 < 4 || 6 < fld w 17 3) (false) (.vadds (.ofNat 3 (fld w 17 3)) (.ofNat 4 (fld w 13 4)) (.ofNat 4 (fld w 9 4)) (.ofNat 4 (fld w 5 4)) (.ofNat 3 (fld w 2 3)) (fld w 1 1 == 1) (fld w 0 1 == 1))
  | 9 => pick (fld w 17 3 < 4 || 6 < fld w 17 3) (false) (.vsubs (.ofNat 3 (fld w 17 3)) (.ofNat 4 (fld w 13 4)) (.ofNat 4 (fld w 9 4)) (.ofNat 4 (fld w 5 4)) (.ofNat 3 (fld w 2 3)) (fld w 1 1 == 1) (fld w 0 1 == 1))
  | 10 => pick (fld w 17 3 < 4 || 6 < fld w 17 3) (fld w 0 1 != 0 || fld w 5 4 != 0) (.vabsInt (.ofNat 3 (fld w 17 3)) (.ofNat 4 (fld w 13 4)) (.ofNat 4 (fld w 9 4)) (.ofNat 3 (fld w 2 3)) (fld w 1 1 == 1))
  | _ => .error .illegal

/-- Major 0x32: vand, vor, vxor, vandn, vnot, vsll, vsrl, vsra. -/
def decode32 (w : Nat) : Except Reject Instr :=
  match fld w 20 6 with
  | 0 => pick (fld w 17 3 < 4 || 6 < fld w 17 3) (false) (.vand (.ofNat 3 (fld w 17 3)) (.ofNat 4 (fld w 13 4)) (.ofNat 4 (fld w 9 4)) (.ofNat 4 (fld w 5 4)) (.ofNat 3 (fld w 2 3)) (fld w 1 1 == 1) (fld w 0 1 == 1))
  | 1 => pick (fld w 17 3 < 4 || 6 < fld w 17 3) (false) (.vor (.ofNat 3 (fld w 17 3)) (.ofNat 4 (fld w 13 4)) (.ofNat 4 (fld w 9 4)) (.ofNat 4 (fld w 5 4)) (.ofNat 3 (fld w 2 3)) (fld w 1 1 == 1) (fld w 0 1 == 1))
  | 2 => pick (fld w 17 3 < 4 || 6 < fld w 17 3) (false) (.vxor (.ofNat 3 (fld w 17 3)) (.ofNat 4 (fld w 13 4)) (.ofNat 4 (fld w 9 4)) (.ofNat 4 (fld w 5 4)) (.ofNat 3 (fld w 2 3)) (fld w 1 1 == 1) (fld w 0 1 == 1))
  | 3 => pick (fld w 17 3 < 4 || 6 < fld w 17 3) (false) (.vandn (.ofNat 3 (fld w 17 3)) (.ofNat 4 (fld w 13 4)) (.ofNat 4 (fld w 9 4)) (.ofNat 4 (fld w 5 4)) (.ofNat 3 (fld w 2 3)) (fld w 1 1 == 1) (fld w 0 1 == 1))
  | 4 => pick (fld w 17 3 < 4 || 6 < fld w 17 3) (fld w 0 1 != 0 || fld w 5 4 != 0) (.vnot (.ofNat 3 (fld w 17 3)) (.ofNat 4 (fld w 13 4)) (.ofNat 4 (fld w 9 4)) (.ofNat 3 (fld w 2 3)) (fld w 1 1 == 1))
  | 5 => pick (fld w 17 3 < 4 || 6 < fld w 17 3) (false) (.vsll (.ofNat 3 (fld w 17 3)) (.ofNat 4 (fld w 13 4)) (.ofNat 4 (fld w 9 4)) (.ofNat 4 (fld w 5 4)) (.ofNat 3 (fld w 2 3)) (fld w 1 1 == 1) (fld w 0 1 == 1))
  | 6 => pick (fld w 17 3 < 4 || 6 < fld w 17 3) (false) (.vsrl (.ofNat 3 (fld w 17 3)) (.ofNat 4 (fld w 13 4)) (.ofNat 4 (fld w 9 4)) (.ofNat 4 (fld w 5 4)) (.ofNat 3 (fld w 2 3)) (fld w 1 1 == 1) (fld w 0 1 == 1))
  | 7 => pick (fld w 17 3 < 4 || 6 < fld w 17 3) (false) (.vsra (.ofNat 3 (fld w 17 3)) (.ofNat 4 (fld w 13 4)) (.ofNat 4 (fld w 9 4)) (.ofNat 4 (fld w 5 4)) (.ofNat 3 (fld w 2 3)) (fld w 1 1 == 1) (fld w 0 1 == 1))
  | _ => .error .illegal

/-- Major 0x33: vceq, vclt, vcle, vcne, vsel. -/
def decode33 (w : Nat) : Except Reject Instr :=
  match fld w 20 6 with
  | 0 => pick (6 < fld w 17 3) (fld w 16 1 != 0) (.vceq (.ofNat 3 (fld w 17 3)) (.ofNat 3 (fld w 13 3)) (.ofNat 4 (fld w 9 4)) (.ofNat 4 (fld w 5 4)) (.ofNat 3 (fld w 2 3)) (fld w 1 1 == 1) (fld w 0 1 == 1))
  | 1 => pick (6 < fld w 17 3) (fld w 16 1 != 0) (.vclt (.ofNat 3 (fld w 17 3)) (.ofNat 3 (fld w 13 3)) (.ofNat 4 (fld w 9 4)) (.ofNat 4 (fld w 5 4)) (.ofNat 3 (fld w 2 3)) (fld w 1 1 == 1) (fld w 0 1 == 1))
  | 2 => pick (6 < fld w 17 3) (fld w 16 1 != 0) (.vcle (.ofNat 3 (fld w 17 3)) (.ofNat 3 (fld w 13 3)) (.ofNat 4 (fld w 9 4)) (.ofNat 4 (fld w 5 4)) (.ofNat 3 (fld w 2 3)) (fld w 1 1 == 1) (fld w 0 1 == 1))
  | 3 => pick (6 < fld w 17 3) (fld w 16 1 != 0) (.vcne (.ofNat 3 (fld w 17 3)) (.ofNat 3 (fld w 13 3)) (.ofNat 4 (fld w 9 4)) (.ofNat 4 (fld w 5 4)) (.ofNat 3 (fld w 2 3)) (fld w 1 1 == 1) (fld w 0 1 == 1))
  | 4 => pick (6 < fld w 17 3) (fld w 1 1 != 0) (.vsel (.ofNat 3 (fld w 17 3)) (.ofNat 4 (fld w 13 4)) (.ofNat 4 (fld w 9 4)) (.ofNat 4 (fld w 5 4)) (.ofNat 3 (fld w 2 3)) (fld w 0 1 == 1))
  | _ => .error .illegal

/-- Major 0x34: vcvt, vquant, vpk3, vupk3. -/
def decode34 (w : Nat) : Except Reject Instr :=
  match fld w 20 6 with
  | 0 => pick (fld w 17 3 == fld w 5 3) (fld w 0 1 != 0 || fld w 8 1 != 0) (.vcvt (.ofNat 3 (fld w 17 3)) (.ofNat 4 (fld w 13 4)) (.ofNat 4 (fld w 9 4)) (.ofNat 3 (fld w 5 3)) (.ofNat 3 (fld w 2 3)) (fld w 1 1 == 1))
  | 1 => pick (fld w 0 1 == 0 || fld w 17 3 == 0 || fld w 17 3 == 4 || fld w 17 3 == 5) (false) (.vquant (.ofNat 3 (fld w 17 3)) (.ofNat 4 (fld w 13 4)) (.ofNat 4 (fld w 9 4)) (.ofNat 4 (fld w 5 4)) (.ofNat 3 (fld w 2 3)) (fld w 1 1 == 1))
  | 2 => pick (fld w 2 3 != 0 || fld w 1 1 != 0) (fld w 0 1 != 0 || fld w 5 4 != 0) (.vpk3 (.ofNat 3 (fld w 17 3)) (.ofNat 4 (fld w 13 4)) (.ofNat 4 (fld w 9 4)))
  | 3 => pick (fld w 2 3 != 0 || fld w 1 1 != 0) (fld w 0 1 != 0 || fld w 5 4 != 0) (.vupk3 (.ofNat 3 (fld w 17 3)) (.ofNat 4 (fld w 13 4)) (.ofNat 4 (fld w 9 4)))
  | _ => .error .illegal

/-- Major 0x35: vredsum, vredmax, vredmin, vexp2, vlog2, vrcp, vrsqrt, vtanh. -/
def decode35 (w : Nat) : Except Reject Instr :=
  match fld w 20 6 with
  | 0 => pick (6 < fld w 17 3) (fld w 0 2 != 0 || fld w 5 4 != 0) (.vredsum (.ofNat 3 (fld w 17 3)) (.ofNat 4 (fld w 13 4)) (.ofNat 4 (fld w 9 4)) (.ofNat 3 (fld w 2 3)))
  | 1 => pick (6 < fld w 17 3) (fld w 0 2 != 0 || fld w 5 4 != 0) (.vredmax (.ofNat 3 (fld w 17 3)) (.ofNat 4 (fld w 13 4)) (.ofNat 4 (fld w 9 4)) (.ofNat 3 (fld w 2 3)))
  | 2 => pick (6 < fld w 17 3) (fld w 0 2 != 0 || fld w 5 4 != 0) (.vredmin (.ofNat 3 (fld w 17 3)) (.ofNat 4 (fld w 13 4)) (.ofNat 4 (fld w 9 4)) (.ofNat 3 (fld w 2 3)))
  | 8 => pick (fld w 17 3 != 0) (fld w 0 1 != 0 || fld w 5 4 != 0) (.vexp2 (.ofNat 4 (fld w 13 4)) (.ofNat 4 (fld w 9 4)) (.ofNat 3 (fld w 2 3)) (fld w 1 1 == 1))
  | 9 => pick (fld w 17 3 != 0) (fld w 0 1 != 0 || fld w 5 4 != 0) (.vlog2 (.ofNat 4 (fld w 13 4)) (.ofNat 4 (fld w 9 4)) (.ofNat 3 (fld w 2 3)) (fld w 1 1 == 1))
  | 10 => pick (fld w 17 3 != 0) (fld w 0 1 != 0 || fld w 5 4 != 0) (.vrcp (.ofNat 4 (fld w 13 4)) (.ofNat 4 (fld w 9 4)) (.ofNat 3 (fld w 2 3)) (fld w 1 1 == 1))
  | 11 => pick (fld w 17 3 != 0) (fld w 0 1 != 0 || fld w 5 4 != 0) (.vrsqrt (.ofNat 4 (fld w 13 4)) (.ofNat 4 (fld w 9 4)) (.ofNat 3 (fld w 2 3)) (fld w 1 1 == 1))
  | 12 => pick (fld w 17 3 != 0) (fld w 0 1 != 0 || fld w 5 4 != 0) (.vtanh (.ofNat 4 (fld w 13 4)) (.ofNat 4 (fld w 9 4)) (.ofNat 3 (fld w 2 3)) (fld w 1 1 == 1))
  | _ => .error .illegal

/-- Major 0x36: vmov, vmov, vgath, vscat, vtopk. -/
def decode36 (w : Nat) : Except Reject Instr :=
  match fld w 20 6 with
  | 0 => if fld w 0 1 = 0 then pick (6 < fld w 17 3) (fld w 5 4 != 0) (.vmov (.ofNat 3 (fld w 17 3)) (.ofNat 4 (fld w 13 4)) (.ofNat 4 (fld w 9 4)) (.ofNat 3 (fld w 2 3)) (fld w 1 1 == 1))
    else pick (6 < fld w 17 3) (fld w 9 4 != 0) (.vmovScalar (.ofNat 3 (fld w 17 3)) (.ofNat 4 (fld w 13 4)) (.ofNat 4 (fld w 5 4)) (.ofNat 3 (fld w 2 3)) (fld w 1 1 == 1))
  | 1 => pick (6 < fld w 17 3) (fld w 0 1 != 0) (.vgath (.ofNat 3 (fld w 17 3)) (.ofNat 4 (fld w 13 4)) (.ofNat 4 (fld w 9 4)) (.ofNat 4 (fld w 5 4)) (.ofNat 3 (fld w 2 3)) (fld w 1 1 == 1))
  | 2 => pick (6 < fld w 17 3) (fld w 0 2 != 0) (.vscat (.ofNat 3 (fld w 17 3)) (.ofNat 4 (fld w 13 4)) (.ofNat 4 (fld w 9 4)) (.ofNat 4 (fld w 5 4)) (.ofNat 3 (fld w 2 3)))
  | 3 => pick (fld w 17 3 != 0) (fld w 0 2 != 0) (.vtopk (.ofNat 4 (fld w 13 4)) (.ofNat 4 (fld w 9 4)) (.ofNat 4 (fld w 5 4)) (.ofNat 3 (fld w 2 3)))
  | _ => .error .illegal

/-- Major 0x37: vfence, vdrain. -/
def decode37 (w : Nat) : Except Reject Instr :=
  match fld w 20 6 with
  | 0 => pick (fld w 17 3 != 0) (fld w 0 17 != 0) (.vfence)
  | 1 => pick (fld w 17 3 != 0) (fld w 0 17 != 0) (.vdrain)
  | _ => .error .illegal

/-- An instruction word, by its major opcode (R83, R84). -/
def decodeNat (w : Nat) : Except Reject Instr :=
  match fld w 26 6 with
  | 1 => decode01 w
  | 2 => decode02 w
  | 3 => decode03 w
  | 4 => decode04 w
  | 5 => decode05 w
  | 6 => decode06 w
  | 7 => decode07 w
  | 8 => decode08 w
  | 9 => decode09 w
  | 10 => decode0A w
  | 11 => decode0B w
  | 12 => decode0C w
  | 13 => decode0D w
  | 14 => decode0E w
  | 15 => decode0F w
  | 16 => decode10 w
  | 17 => decode11 w
  | 18 => decode12 w
  | 19 => decode13 w
  | 20 => decode14 w
  | 21 => decode15 w
  | 22 => decode16 w
  | 23 => decode17 w
  | 24 => decode18 w
  | 25 => decode19 w
  | 26 => decode1A w
  | 27 => decode1B w
  | 28 => decode1C w
  | 29 => decode1D w
  | 30 => decode1E w
  | 31 => decode1F w
  | 32 => decode20 w
  | 33 => decode21 w
  | 34 => decode22 w
  | 35 => decode23 w
  | 36 => decode24 w
  | 37 => decode25 w
  | 38 => decode26 w
  | 39 => decode27 w
  | 40 => decode28 w
  | 41 => decode29 w
  | 42 => decode2A w
  | 43 => decode2B w
  | 44 => decode2C w
  | 45 => decode2D w
  | 46 => decode2E w
  | 47 => decode2F w
  | 48 => decode30 w
  | 49 => decode31 w
  | 50 => decode32 w
  | 51 => decode33 w
  | 52 => decode34 w
  | 53 => decode35 w
  | 54 => decode36 w
  | 55 => decode37 w
  | _ => .error .illegal

/-- The instruction that a 32-bit word holds, or why it holds none (R84). -/
def decode (w : BitVec 32) : Except Reject Instr := decodeNat w.toNat

/-- An instruction of the Rannen port: every unassigned code selects BYPASS (R394). -/
def decodeTap (ir : BitVec 8) : Instr :=
  if ir = 0x01 then .idcode else if ir = 0x10 then .fmaddr else if ir = 0x11 then .fmdata else .bypass

/-- The lowest set bit of the field of `n` bits at `lo` of word `k`, where its reserved bits are not all zero (R5,
R282). -/
def reservedAt (k w lo n : Nat) : Option (Nat × Nat) :=
  if fld w lo n = 0 then none
  else some (k, lo + ((List.range n).find? (fun b => fld w (lo + b) 1 = 1)).getD 0)

/-- A failing field check, reported at word `k`, bit `b` (R282). -/
def failsAt (k b : Nat) (bad : Bool) : Option (Nat × Nat) := if bad then some (k, b) else none

/-- The scope a 3-bit code names in a command header; 0 and 7 are reserved there (R53, R59). -/
def scopeOf (n : Nat) : Option Scope :=
  match n with
  | 1 => some .team | 2 => some .cluster | 3 => some .die | 4 => some .package | 5 => some .fabric | 6 => some .system
  | _ => none

/-- The code of a scope (R53). -/
def scopeCode : Scope → Nat
  | .team => 1 | .cluster => 2 | .die => 3 | .package => 4 | .fabric => 5 | .system => 6

/-- The acquire and release fields of a header word (R59). -/
def hdrOf (w : Nat) : Hdr :=
  { acq := if fld w 15 1 = 1 then scopeOf (fld w 12 3) else none,
    rel := if fld w 19 1 = 1 then scopeOf (fld w 16 3) else none }

/-- The scope checks of a header (R59, R88 step 4). -/
def scopeErr (w : Nat) : Option (Nat × Nat) :=
  (failsAt 0 12 (if fld w 15 1 = 1 then (scopeOf (fld w 12 3)).isNone else fld w 12 3 != 0)).or
    (failsAt 0 16 (if fld w 19 1 = 1 then (scopeOf (fld w 16 3)).isNone else fld w 16 3 != 0))

/-- The code of an engine (R11). -/
def engineCode : Engine → Nat
  | .arr => 0 | .cpy => 1 | .col => 2 | .agt => 3

/-- The engine of a code below 4; ENQ accepts no other (R84). -/
def engineOf (n : Nat) : Engine :=
  match n with
  | 0 => .arr | 1 => .cpy | 2 => .col | _ => .agt

/-- The instruction, where no check of the list fails; else the first failing one as word and bit (R88, R282). -/
def firstErr (cs : List (Option (Nat × Nat))) (i : Instr) : Except (Nat × Nat) Instr :=
  match cs.findSome? id with
  | some e => .error e
  | none => .ok i

/-- The field checks of arr.mkboard, in the order of R282 (R286). -/
def arrMkboardChecks (width : BitVec 13) (wscale : BitVec 21) : List (Option (Nat × Nat)) :=
  [failsAt 2 0 (width.toNat == 0 || 4096 < width.toNat), failsAt 3 0 (wscale.toNat % 32 != 0)]

/-- arr.mkboard from its words, header reserved bits first, then scopes, then words 1 to 7 (R88, R282). -/
def decodeArrMkboard (c : CmdWord) : Except (Nat × Nat) Instr :=
  let slot : BitVec 3 := .ofNat 3 (fld c.w1.toNat 0 3)
  let width : BitVec 13 := .ofNat 13 (fld c.w2.toNat 0 13)
  let wscale : BitVec 21 := .ofNat 21 (fld c.w3.toNat 0 21)
  firstErr ([reservedAt 0 c.w0.toNat 20 12, scopeErr c.w0.toNat,
    reservedAt 1 c.w1.toNat 3 29,
    failsAt 2 0 (width.toNat == 0 || 4096 < width.toNat),
    reservedAt 2 c.w2.toNat 13 19,
    failsAt 3 0 (wscale.toNat % 32 != 0),
    reservedAt 3 c.w3.toNat 21 11,
    reservedAt 4 c.w4.toNat 0 32,
    reservedAt 5 c.w5.toNat 0 32,
    reservedAt 6 c.w6.toNat 0 32,
    reservedAt 7 c.w7.toNat 0 32])
    (.arrMkboard (hdrOf c.w0.toNat) slot width wscale)

/-- The field checks of arr.clrboard, in the order of R282 (R287). -/
def arrClrboardChecks : List (Option (Nat × Nat)) :=
  []

/-- arr.clrboard from its words, header reserved bits first, then scopes, then words 1 to 7 (R88, R282). -/
def decodeArrClrboard (c : CmdWord) : Except (Nat × Nat) Instr :=
  let slot : BitVec 3 := .ofNat 3 (fld c.w1.toNat 0 3)
  firstErr ([reservedAt 0 c.w0.toNat 20 12, scopeErr c.w0.toNat,
    reservedAt 1 c.w1.toNat 3 29,
    reservedAt 2 c.w2.toNat 0 32,
    reservedAt 3 c.w3.toNat 0 32,
    reservedAt 4 c.w4.toNat 0 32,
    reservedAt 5 c.w5.toNat 0 32,
    reservedAt 6 c.w6.toNat 0 32,
    reservedAt 7 c.w7.toNat 0 32])
    (.arrClrboard (hdrOf c.w0.toNat) slot)

/-- The field checks of arr.mmt, in the order of R282 (R290). -/
def arrMmtChecks (rowptr : BitVec 21) (stride : BitVec 21) (ascale : BitVec 21) (accbase : BitVec 21) (lead : BitVec 19) (m : BitVec 9) (mask : BitVec 8) : List (Option (Nat × Nat)) :=
  [failsAt 1 0 (rowptr.toNat % 32 != 0), failsAt 2 0 (stride.toNat % 32 != 0), failsAt 3 0 (ascale.toNat % 8 != 0), failsAt 4 0 (accbase.toNat % 32 != 0), failsAt 5 0 (lead.toNat % 8 != 0 || 262144 < lead.toNat), failsAt 6 0 (256 < m.toNat), failsAt 6 16 (6 < popCount mask.toNat)]

/-- arr.mmt from its words, header reserved bits first, then scopes, then words 1 to 7 (R88, R282). -/
def decodeArrMmt (c : CmdWord) : Except (Nat × Nat) Instr :=
  let kchain : Bool := fld c.w0.toNat 24 1 == 1
  let accum : Bool := fld c.w0.toNat 25 1 == 1
  let rowptr : BitVec 21 := .ofNat 21 (fld c.w1.toNat 0 21)
  let stride : BitVec 21 := .ofNat 21 (fld c.w2.toNat 0 21)
  let ascale : BitVec 21 := .ofNat 21 (fld c.w3.toNat 0 21)
  let accbase : BitVec 21 := .ofNat 21 (fld c.w4.toNat 0 21)
  let lead : BitVec 19 := .ofNat 19 (fld c.w5.toNat 0 19)
  let m : BitVec 9 := .ofNat 9 (fld c.w6.toNat 0 9)
  let fmt : BitVec 2 := .ofNat 2 (fld c.w6.toNat 12 2)
  let mask : BitVec 8 := .ofNat 8 (fld c.w6.toNat 16 8)
  firstErr ([reservedAt 0 c.w0.toNat 20 4, reservedAt 0 c.w0.toNat 26 6, scopeErr c.w0.toNat,
    failsAt 1 0 (rowptr.toNat % 32 != 0),
    reservedAt 1 c.w1.toNat 21 11,
    failsAt 2 0 (stride.toNat % 32 != 0),
    reservedAt 2 c.w2.toNat 21 11,
    failsAt 3 0 (ascale.toNat % 8 != 0),
    reservedAt 3 c.w3.toNat 21 11,
    failsAt 4 0 (accbase.toNat % 32 != 0),
    reservedAt 4 c.w4.toNat 21 11,
    failsAt 5 0 (lead.toNat % 8 != 0 || 262144 < lead.toNat),
    reservedAt 5 c.w5.toNat 19 13,
    failsAt 6 0 (256 < m.toNat),
    reservedAt 6 c.w6.toNat 9 3,
    reservedAt 6 c.w6.toNat 14 2,
    failsAt 6 16 (6 < popCount mask.toNat),
    reservedAt 6 c.w6.toNat 24 8,
    reservedAt 7 c.w7.toNat 0 32])
    (.arrMmt (hdrOf c.w0.toNat) kchain accum rowptr stride ascale accbase lead m fmt mask)

/-- The field checks of arr.acmout, in the order of R282 (R293). -/
def arrAcmoutChecks (scl : Bool) (accbase : BitVec 21) (lead : BitVec 19) (dst : BitVec 21) (dstride : BitVec 21) (cols : BitVec 16) (rows : BitVec 9) (rscale : BitVec 32) (ofmt : BitVec 2) : List (Option (Nat × Nat)) :=
  [failsAt 1 0 (accbase.toNat % 32 != 0), failsAt 2 0 (lead.toNat % 8 != 0 || 262144 < lead.toNat), failsAt 3 0 (dst.toNat % 32 != 0), failsAt 4 0 (dstride.toNat % 32 != 0), failsAt 5 0 (cols.toNat % 8 != 0 || 32768 < cols.toNat), failsAt 5 16 (256 < rows.toNat), failsAt 6 0 (!scl && rscale.toNat != 0), failsAt 7 0 (ofmt.toNat == 3)]

/-- arr.acmout from its words, header reserved bits first, then scopes, then words 1 to 7 (R88, R282). -/
def decodeArrAcmout (c : CmdWord) : Except (Nat × Nat) Instr :=
  let clear : Bool := fld c.w0.toNat 24 1 == 1
  let scl : Bool := fld c.w0.toNat 25 1 == 1
  let accbase : BitVec 21 := .ofNat 21 (fld c.w1.toNat 0 21)
  let lead : BitVec 19 := .ofNat 19 (fld c.w2.toNat 0 19)
  let dst : BitVec 21 := .ofNat 21 (fld c.w3.toNat 0 21)
  let dstride : BitVec 21 := .ofNat 21 (fld c.w4.toNat 0 21)
  let cols : BitVec 16 := .ofNat 16 (fld c.w5.toNat 0 16)
  let rows : BitVec 9 := .ofNat 9 (fld c.w5.toNat 16 9)
  let rscale : BitVec 32 := .ofNat 32 (fld c.w6.toNat 0 32)
  let ofmt : BitVec 2 := .ofNat 2 (fld c.w7.toNat 0 2)
  firstErr ([reservedAt 0 c.w0.toNat 20 4, reservedAt 0 c.w0.toNat 26 6, scopeErr c.w0.toNat,
    failsAt 1 0 (accbase.toNat % 32 != 0),
    reservedAt 1 c.w1.toNat 21 11,
    failsAt 2 0 (lead.toNat % 8 != 0 || 262144 < lead.toNat),
    reservedAt 2 c.w2.toNat 19 13,
    failsAt 3 0 (dst.toNat % 32 != 0),
    reservedAt 3 c.w3.toNat 21 11,
    failsAt 4 0 (dstride.toNat % 32 != 0),
    reservedAt 4 c.w4.toNat 21 11,
    failsAt 5 0 (cols.toNat % 8 != 0 || 32768 < cols.toNat),
    failsAt 5 16 (256 < rows.toNat),
    reservedAt 5 c.w5.toNat 25 7,
    failsAt 6 0 (!scl && rscale.toNat != 0),
    failsAt 7 0 (ofmt.toNat == 3),
    reservedAt 7 c.w7.toNat 2 30])
    (.arrAcmout (hdrOf c.w0.toNat) clear scl accbase lead dst dstride cols rows rscale ofmt)

/-- The field checks of cpy.copy, in the order of R282 (R304). -/
def cpyCopyChecks (cvt : Bool) (src : BitVec 48) (sacc : Bool) (dst : BitVec 48) (dacc : Bool) (len : BitVec 20) (sstride : BitVec 32) (dstride : BitVec 32) : List (Option (Nat × Nat)) :=
  [failsAt 0 24 (cvt && (!sacc || dacc || len.toNat % 4 != 0 || dst.toNat % 2 != 0 || dstride.toNat % 2 != 0)), failsAt 1 0 (sacc && (2097152 ≤ src.toNat || src.toNat % 4 != 0 || sstride.toNat % 4 != 0)), failsAt 3 0 (dacc && (2097152 ≤ dst.toNat || dst.toNat % 4 != 0 || len.toNat % 4 != 0 || dstride.toNat % 4 != 0))]

/-- cpy.copy from its words, header reserved bits first, then scopes, then words 1 to 7 (R88, R282). -/
def decodeCpyCopy (c : CmdWord) : Except (Nat × Nat) Instr :=
  let cvt : Bool := fld c.w0.toNat 24 1 == 1
  let src : BitVec 48 := .ofNat 48 (fld c.w1.toNat 0 32 + fld c.w2.toNat 0 16 * 4294967296)
  let sacc : Bool := fld c.w2.toNat 16 1 == 1
  let dst : BitVec 48 := .ofNat 48 (fld c.w3.toNat 0 32 + fld c.w4.toNat 0 16 * 4294967296)
  let dacc : Bool := fld c.w4.toNat 16 1 == 1
  let len : BitVec 20 := .ofNat 20 (fld c.w5.toNat 0 20)
  let rows : BitVec 12 := .ofNat 12 (fld c.w5.toNat 20 12)
  let sstride : BitVec 32 := .ofNat 32 (fld c.w6.toNat 0 32)
  let dstride : BitVec 32 := .ofNat 32 (fld c.w7.toNat 0 32)
  firstErr ([reservedAt 0 c.w0.toNat 20 4, reservedAt 0 c.w0.toNat 25 7, scopeErr c.w0.toNat,
    failsAt 0 24 (cvt && (!sacc || dacc || len.toNat % 4 != 0 || dst.toNat % 2 != 0 || dstride.toNat % 2 != 0)),
    failsAt 1 0 (sacc && (2097152 ≤ src.toNat || src.toNat % 4 != 0 || sstride.toNat % 4 != 0)),
    reservedAt 2 c.w2.toNat 17 15,
    failsAt 3 0 (dacc && (2097152 ≤ dst.toNat || dst.toNat % 4 != 0 || len.toNat % 4 != 0 || dstride.toNat % 4 != 0)),
    reservedAt 4 c.w4.toNat 17 15])
    (.cpyCopy (hdrOf c.w0.toNat) cvt src sacc dst dacc len rows sstride dstride)

/-- The field checks of cpy.fill, in the order of R282 (R307). -/
def cpyFillChecks (dst : BitVec 48) (dacc : Bool) (len : BitVec 20) (dstride : BitVec 32) : List (Option (Nat × Nat)) :=
  [failsAt 3 0 (dacc && (2097152 ≤ dst.toNat || dst.toNat % 4 != 0 || len.toNat % 4 != 0 || dstride.toNat % 4 != 0))]

/-- cpy.fill from its words, header reserved bits first, then scopes, then words 1 to 7 (R88, R282). -/
def decodeCpyFill (c : CmdWord) : Except (Nat × Nat) Instr :=
  let pattern : BitVec 32 := .ofNat 32 (fld c.w1.toNat 0 32)
  let dst : BitVec 48 := .ofNat 48 (fld c.w3.toNat 0 32 + fld c.w4.toNat 0 16 * 4294967296)
  let dacc : Bool := fld c.w4.toNat 16 1 == 1
  let len : BitVec 20 := .ofNat 20 (fld c.w5.toNat 0 20)
  let rows : BitVec 12 := .ofNat 12 (fld c.w5.toNat 20 12)
  let dstride : BitVec 32 := .ofNat 32 (fld c.w7.toNat 0 32)
  firstErr ([reservedAt 0 c.w0.toNat 20 12, scopeErr c.w0.toNat,
    reservedAt 2 c.w2.toNat 0 32,
    failsAt 3 0 (dacc && (2097152 ≤ dst.toNat || dst.toNat % 4 != 0 || len.toNat % 4 != 0 || dstride.toNat % 4 != 0)),
    reservedAt 4 c.w4.toNat 17 15,
    reservedAt 6 c.w6.toNat 0 32])
    (.cpyFill (hdrOf c.w0.toNat) pattern dst dacc len rows dstride)

/-- The field checks of cpy.pref, in the order of R282 (R313). -/
def cpyPrefChecks (addr : BitVec 48) : List (Option (Nat × Nat)) :=
  [failsAt 1 0 (addr.toNat % 65536 != 0 || addr.toNat < 4294967296)]

/-- cpy.pref from its words, header reserved bits first, then scopes, then words 1 to 7 (R88, R282). -/
def decodeCpyPref (c : CmdWord) : Except (Nat × Nat) Instr :=
  let addr : BitVec 48 := .ofNat 48 (fld c.w1.toNat 0 32 + fld c.w2.toNat 0 16 * 4294967296)
  let count : BitVec 16 := .ofNat 16 (fld c.w5.toNat 0 16)
  firstErr ([reservedAt 0 c.w0.toNat 20 12, scopeErr c.w0.toNat,
    failsAt 1 0 (addr.toNat % 65536 != 0 || addr.toNat < 4294967296),
    reservedAt 2 c.w2.toNat 16 16,
    reservedAt 3 c.w3.toNat 0 32,
    reservedAt 4 c.w4.toNat 0 32,
    reservedAt 5 c.w5.toNat 16 16,
    reservedAt 6 c.w6.toNat 0 32,
    reservedAt 7 c.w7.toNat 0 32])
    (.cpyPref (hdrOf c.w0.toNat) addr count)

/-- The field checks of cpy.tierq, in the order of R282 (R314). -/
def cpyTierqChecks (addr : BitVec 48) : List (Option (Nat × Nat)) :=
  [failsAt 1 0 (addr.toNat < 4294967296)]

/-- cpy.tierq from its words, header reserved bits first, then scopes, then words 1 to 7 (R88, R282). -/
def decodeCpyTierq (c : CmdWord) : Except (Nat × Nat) Instr :=
  let addr : BitVec 48 := .ofNat 48 (fld c.w1.toNat 0 32 + fld c.w2.toNat 0 16 * 4294967296)
  firstErr ([reservedAt 0 c.w0.toNat 20 12, scopeErr c.w0.toNat,
    failsAt 1 0 (addr.toNat < 4294967296),
    reservedAt 2 c.w2.toNat 16 16,
    reservedAt 3 c.w3.toNat 0 32,
    reservedAt 4 c.w4.toNat 0 32,
    reservedAt 5 c.w5.toNat 0 32,
    reservedAt 6 c.w6.toNat 0 32,
    reservedAt 7 c.w7.toNat 0 32])
    (.cpyTierq (hdrOf c.w0.toNat) addr)

/-- The field checks of col.decl, in the order of R282 (R194). -/
def colDeclChecks : List (Option (Nat × Nat)) :=
  []

/-- col.decl from its words, header reserved bits first, then scopes, then words 1 to 7 (R88, R282). -/
def decodeColDecl (c : CmdWord) : Except (Nat × Nat) Instr :=
  let gid : BitVec 12 := .ofNat 12 (fld c.w1.toNat 0 12)
  let mem : BitVec 128 := .ofNat 128 (fld c.w2.toNat 0 32 + fld c.w3.toNat 0 32 * 4294967296 + fld c.w4.toNat 0 32 * 18446744073709551616 + fld c.w5.toNat 0 32 * 79228162514264337593543950336)
  let fab : BitVec 32 := .ofNat 32 (fld c.w6.toNat 0 32)
  firstErr ([reservedAt 0 c.w0.toNat 20 12, scopeErr c.w0.toNat,
    reservedAt 1 c.w1.toNat 12 20,
    reservedAt 7 c.w7.toNat 0 32])
    (.colDecl (hdrOf c.w0.toNat) gid mem fab)

/-- The field checks of col.decl_t, in the order of R282 (R194). -/
def colDeclTChecks : List (Option (Nat × Nat)) :=
  []

/-- col.decl_t from its words, header reserved bits first, then scopes, then words 1 to 7 (R88, R282). -/
def decodeColDeclT (c : CmdWord) : Except (Nat × Nat) Instr :=
  let gid : BitVec 12 := .ofNat 12 (fld c.w1.toNat 0 12)
  let mem : BitVec 128 := .ofNat 128 (fld c.w2.toNat 0 32 + fld c.w3.toNat 0 32 * 4294967296 + fld c.w4.toNat 0 32 * 18446744073709551616 + fld c.w5.toNat 0 32 * 79228162514264337593543950336)
  let fab : BitVec 32 := .ofNat 32 (fld c.w6.toNat 0 32)
  firstErr ([reservedAt 0 c.w0.toNat 20 12, scopeErr c.w0.toNat,
    reservedAt 1 c.w1.toNat 12 20,
    reservedAt 7 c.w7.toNat 0 32])
    (.colDeclT (hdrOf c.w0.toNat) gid mem fab)

/-- The field checks of col.allgather, in the order of R282 (R199). -/
def colAllgatherChecks (src : BitVec 22) (dst : BitVec 22) (bytes : BitVec 21) : List (Option (Nat × Nat)) :=
  [failsAt 2 0 (src.toNat % 32 != 0), failsAt 3 0 (dst.toNat % 32 != 0), failsAt 4 0 (badBlock bytes.toNat)]

/-- col.allgather from its words, header reserved bits first, then scopes, then words 1 to 7 (R88, R282). -/
def decodeColAllgather (c : CmdWord) : Except (Nat × Nat) Instr :=
  let gid : BitVec 12 := .ofNat 12 (fld c.w1.toNat 0 12)
  let src : BitVec 22 := .ofNat 22 (fld c.w2.toNat 0 22)
  let dst : BitVec 22 := .ofNat 22 (fld c.w3.toNat 0 22)
  let bytes : BitVec 21 := .ofNat 21 (fld c.w4.toNat 0 21)
  firstErr ([reservedAt 0 c.w0.toNat 20 12, scopeErr c.w0.toNat,
    reservedAt 1 c.w1.toNat 12 20,
    failsAt 2 0 (src.toNat % 32 != 0),
    reservedAt 2 c.w2.toNat 22 10,
    failsAt 3 0 (dst.toNat % 32 != 0),
    reservedAt 3 c.w3.toNat 22 10,
    failsAt 4 0 (badBlock bytes.toNat),
    reservedAt 4 c.w4.toNat 21 11,
    reservedAt 5 c.w5.toNat 0 32,
    reservedAt 6 c.w6.toNat 0 32,
    reservedAt 7 c.w7.toNat 0 32])
    (.colAllgather (hdrOf c.w0.toNat) gid src dst bytes)

/-- The field checks of col.redscat, in the order of R282 (R199). -/
def colRedscatChecks (src : BitVec 22) (dst : BitVec 22) (bytes : BitVec 21) (op : BitVec 2) (fmt : BitVec 2) : List (Option (Nat × Nat)) :=
  [failsAt 2 0 (src.toNat % 32 != 0), failsAt 3 0 (dst.toNat % 32 != 0), failsAt 4 0 (badBlock bytes.toNat), failsAt 5 0 (op.toNat == 3), failsAt 5 4 (fmt.toNat == 3)]

/-- col.redscat from its words, header reserved bits first, then scopes, then words 1 to 7 (R88, R282). -/
def decodeColRedscat (c : CmdWord) : Except (Nat × Nat) Instr :=
  let gid : BitVec 12 := .ofNat 12 (fld c.w1.toNat 0 12)
  let src : BitVec 22 := .ofNat 22 (fld c.w2.toNat 0 22)
  let dst : BitVec 22 := .ofNat 22 (fld c.w3.toNat 0 22)
  let bytes : BitVec 21 := .ofNat 21 (fld c.w4.toNat 0 21)
  let op : BitVec 2 := .ofNat 2 (fld c.w5.toNat 0 2)
  let fmt : BitVec 2 := .ofNat 2 (fld c.w5.toNat 4 2)
  firstErr ([reservedAt 0 c.w0.toNat 20 12, scopeErr c.w0.toNat,
    reservedAt 1 c.w1.toNat 12 20,
    failsAt 2 0 (src.toNat % 32 != 0),
    reservedAt 2 c.w2.toNat 22 10,
    failsAt 3 0 (dst.toNat % 32 != 0),
    reservedAt 3 c.w3.toNat 22 10,
    failsAt 4 0 (badBlock bytes.toNat),
    reservedAt 4 c.w4.toNat 21 11,
    failsAt 5 0 (op.toNat == 3),
    reservedAt 5 c.w5.toNat 2 2,
    failsAt 5 4 (fmt.toNat == 3),
    reservedAt 5 c.w5.toNat 6 26,
    reservedAt 6 c.w6.toNat 0 32,
    reservedAt 7 c.w7.toNat 0 32])
    (.colRedscat (hdrOf c.w0.toNat) gid src dst bytes op fmt)

/-- The field checks of col.alltoall, in the order of R282 (R199). -/
def colAlltoallChecks (src : BitVec 22) (dst : BitVec 22) (bytes : BitVec 21) : List (Option (Nat × Nat)) :=
  [failsAt 2 0 (src.toNat % 32 != 0), failsAt 3 0 (dst.toNat % 32 != 0), failsAt 4 0 (badBlock bytes.toNat)]

/-- col.alltoall from its words, header reserved bits first, then scopes, then words 1 to 7 (R88, R282). -/
def decodeColAlltoall (c : CmdWord) : Except (Nat × Nat) Instr :=
  let gid : BitVec 12 := .ofNat 12 (fld c.w1.toNat 0 12)
  let src : BitVec 22 := .ofNat 22 (fld c.w2.toNat 0 22)
  let dst : BitVec 22 := .ofNat 22 (fld c.w3.toNat 0 22)
  let bytes : BitVec 21 := .ofNat 21 (fld c.w4.toNat 0 21)
  firstErr ([reservedAt 0 c.w0.toNat 20 12, scopeErr c.w0.toNat,
    reservedAt 1 c.w1.toNat 12 20,
    failsAt 2 0 (src.toNat % 32 != 0),
    reservedAt 2 c.w2.toNat 22 10,
    failsAt 3 0 (dst.toNat % 32 != 0),
    reservedAt 3 c.w3.toNat 22 10,
    failsAt 4 0 (badBlock bytes.toNat),
    reservedAt 4 c.w4.toNat 21 11,
    reservedAt 5 c.w5.toNat 0 32,
    reservedAt 6 c.w6.toNat 0 32,
    reservedAt 7 c.w7.toNat 0 32])
    (.colAlltoall (hdrOf c.w0.toNat) gid src dst bytes)

/-- The field checks of col.bcast, in the order of R282 (R199). -/
def colBcastChecks (dst : BitVec 22) (bytes : BitVec 21) : List (Option (Nat × Nat)) :=
  [failsAt 3 0 (dst.toNat % 32 != 0), failsAt 4 0 (badBlock bytes.toNat)]

/-- col.bcast from its words, header reserved bits first, then scopes, then words 1 to 7 (R88, R282). The alignment of
SRC is the root's to check (R197). -/
def decodeColBcast (c : CmdWord) : Except (Nat × Nat) Instr :=
  let gid : BitVec 12 := .ofNat 12 (fld c.w1.toNat 0 12)
  let src : BitVec 22 := .ofNat 22 (fld c.w2.toNat 0 22)
  let dst : BitVec 22 := .ofNat 22 (fld c.w3.toNat 0 22)
  let bytes : BitVec 21 := .ofNat 21 (fld c.w4.toNat 0 21)
  let root : BitVec 12 := .ofNat 12 (fld c.w5.toNat 16 12)
  firstErr ([reservedAt 0 c.w0.toNat 20 12, scopeErr c.w0.toNat,
    reservedAt 1 c.w1.toNat 12 20,
    reservedAt 2 c.w2.toNat 22 10,
    failsAt 3 0 (dst.toNat % 32 != 0),
    reservedAt 3 c.w3.toNat 22 10,
    failsAt 4 0 (badBlock bytes.toNat),
    reservedAt 4 c.w4.toNat 21 11,
    reservedAt 5 c.w5.toNat 0 16,
    reservedAt 5 c.w5.toNat 28 4,
    reservedAt 6 c.w6.toNat 0 32,
    reservedAt 7 c.w7.toNat 0 32])
    (.colBcast (hdrOf c.w0.toNat) gid src dst bytes root)

/-- The field checks of col.barrier, in the order of R282 (R199). -/
def colBarrierChecks : List (Option (Nat × Nat)) :=
  []

/-- col.barrier from its words, header reserved bits first, then scopes, then words 1 to 7 (R88, R282). -/
def decodeColBarrier (c : CmdWord) : Except (Nat × Nat) Instr :=
  let gid : BitVec 12 := .ofNat 12 (fld c.w1.toNat 0 12)
  firstErr ([reservedAt 0 c.w0.toNat 20 12, scopeErr c.w0.toNat,
    reservedAt 1 c.w1.toNat 12 20,
    reservedAt 2 c.w2.toNat 0 32,
    reservedAt 3 c.w3.toNat 0 32,
    reservedAt 4 c.w4.toNat 0 32,
    reservedAt 5 c.w5.toNat 0 32,
    reservedAt 6 c.w6.toNat 0 32,
    reservedAt 7 c.w7.toNat 0 32])
    (.colBarrier (hdrOf c.w0.toNat) gid)

/-- The field checks of col.maxbar, in the order of R282 (R199). -/
def colMaxbarChecks (src : BitVec 22) (dst : BitVec 22) : List (Option (Nat × Nat)) :=
  [failsAt 2 0 (src.toNat % 4 != 0), failsAt 3 0 (dst.toNat % 4 != 0)]

/-- col.maxbar from its words, header reserved bits first, then scopes, then words 1 to 7 (R88, R282). -/
def decodeColMaxbar (c : CmdWord) : Except (Nat × Nat) Instr :=
  let gid : BitVec 12 := .ofNat 12 (fld c.w1.toNat 0 12)
  let src : BitVec 22 := .ofNat 22 (fld c.w2.toNat 0 22)
  let dst : BitVec 22 := .ofNat 22 (fld c.w3.toNat 0 22)
  firstErr ([reservedAt 0 c.w0.toNat 20 12, scopeErr c.w0.toNat,
    reservedAt 1 c.w1.toNat 12 20,
    failsAt 2 0 (src.toNat % 4 != 0),
    reservedAt 2 c.w2.toNat 22 10,
    failsAt 3 0 (dst.toNat % 4 != 0),
    reservedAt 3 c.w3.toNat 22 10,
    reservedAt 4 c.w4.toNat 0 32,
    reservedAt 5 c.w5.toNat 0 32,
    reservedAt 6 c.w6.toNat 0 32,
    reservedAt 7 c.w7.toNat 0 32])
    (.colMaxbar (hdrOf c.w0.toNat) gid src dst)

/-- The field checks of agt.mapnew, in the order of R282 (R339). -/
def agtMapnewChecks (base : BitVec 48) (zpg : BitVec 16) (default : BitVec 64) (l0 : BitVec 5) (lmax : BitVec 5) (vw : Bool) : List (Option (Nat × Nat)) :=
  [failsAt 1 0 (base.toNat % 65536 != 0), failsAt 2 0 (base.toNat < 4294967296), failsAt 2 16 (zpg.toNat == 0), failsAt 4 0 (!vw && default.toNat / 4294967296 != 0), failsAt 7 0 (lmax.toNat < l0.toNat), failsAt 7 8 (25 < lmax.toNat || 1024 * zpg.toNat < 2 ^ lmax.toNat + 1)]

/-- agt.mapnew from its words, header reserved bits first, then scopes, then words 1 to 7 (R88, R282). -/
def decodeAgtMapnew (c : CmdWord) : Except (Nat × Nat) Instr :=
  let base : BitVec 48 := .ofNat 48 (fld c.w1.toNat 0 32 + fld c.w2.toNat 0 16 * 4294967296)
  let zpg : BitVec 16 := .ofNat 16 (fld c.w2.toNat 16 16)
  let default : BitVec 64 := .ofNat 64 (fld c.w3.toNat 0 32 + fld c.w4.toNat 0 32 * 4294967296)
  let seed : BitVec 64 := .ofNat 64 (fld c.w5.toNat 0 32 + fld c.w6.toNat 0 32 * 4294967296)
  let l0 : BitVec 5 := .ofNat 5 (fld c.w7.toNat 0 5)
  let lmax : BitVec 5 := .ofNat 5 (fld c.w7.toNat 8 5)
  let kw : Bool := fld c.w7.toNat 16 1 == 1
  let vw : Bool := fld c.w7.toNat 17 1 == 1
  let comb : BitVec 3 := .ofNat 3 (fld c.w7.toNat 20 3)
  firstErr ([reservedAt 0 c.w0.toNat 20 12, scopeErr c.w0.toNat,
    failsAt 1 0 (base.toNat % 65536 != 0),
    failsAt 2 0 (base.toNat < 4294967296),
    failsAt 2 16 (zpg.toNat == 0),
    failsAt 4 0 (!vw && default.toNat / 4294967296 != 0),
    failsAt 7 0 (lmax.toNat < l0.toNat),
    reservedAt 7 c.w7.toNat 5 3,
    failsAt 7 8 (25 < lmax.toNat || 1024 * zpg.toNat < 2 ^ lmax.toNat + 1),
    reservedAt 7 c.w7.toNat 13 3,
    reservedAt 7 c.w7.toNat 18 2,
    reservedAt 7 c.w7.toNat 23 9])
    (.agtMapnew (hdrOf c.w0.toNat) base zpg default seed l0 lmax kw vw comb)

/-- The field checks of agt.mapdel, in the order of R282 (R340). -/
def agtMapdelChecks : List (Option (Nat × Nat)) :=
  []

/-- agt.mapdel from its words, header reserved bits first, then scopes, then words 1 to 7 (R88, R282). -/
def decodeAgtMapdel (c : CmdWord) : Except (Nat × Nat) Instr :=
  let handle : BitVec 10 := .ofNat 10 (fld c.w1.toNat 0 10)
  firstErr ([reservedAt 0 c.w0.toNat 20 12, scopeErr c.w0.toNat,
    reservedAt 1 c.w1.toNat 10 22,
    reservedAt 2 c.w2.toNat 0 32,
    reservedAt 3 c.w3.toNat 0 32,
    reservedAt 4 c.w4.toNat 0 32,
    reservedAt 5 c.w5.toNat 0 32,
    reservedAt 6 c.w6.toNat 0 32,
    reservedAt 7 c.w7.toNat 0 32])
    (.agtMapdel (hdrOf c.w0.toNat) handle)

/-- The field checks of agt.rtload, in the order of R282 (R332). -/
def agtRtloadChecks (src : BitVec 48) (first : BitVec 8) (count : BitVec 8) : List (Option (Nat × Nat)) :=
  [failsAt 1 0 (src.toNat % 64 != 0), failsAt 3 0 (first.toNat < 128), failsAt 3 8 (count.toNat == 0 || 128 < count.toNat || 256 < first.toNat + count.toNat)]

/-- agt.rtload from its words, header reserved bits first, then scopes, then words 1 to 7 (R88, R282). -/
def decodeAgtRtload (c : CmdWord) : Except (Nat × Nat) Instr :=
  let src : BitVec 48 := .ofNat 48 (fld c.w1.toNat 0 32 + fld c.w2.toNat 0 16 * 4294967296)
  let first : BitVec 8 := .ofNat 8 (fld c.w3.toNat 0 8)
  let count : BitVec 8 := .ofNat 8 (fld c.w3.toNat 8 8)
  firstErr ([reservedAt 0 c.w0.toNat 20 12, scopeErr c.w0.toNat,
    failsAt 1 0 (src.toNat % 64 != 0),
    reservedAt 2 c.w2.toNat 16 16,
    failsAt 3 0 (first.toNat < 128),
    failsAt 3 8 (count.toNat == 0 || 128 < count.toNat || 256 < first.toNat + count.toNat),
    reservedAt 3 c.w3.toNat 16 16,
    reservedAt 4 c.w4.toNat 0 32,
    reservedAt 5 c.w5.toNat 0 32,
    reservedAt 6 c.w6.toNat 0 32,
    reservedAt 7 c.w7.toNat 0 32])
    (.agtRtload (hdrOf c.w0.toNat) src first count)

/-- A command word issued by an ENQ that names engine `e`: CHK, then OPC, then the rest (R88, R89). The error is the
word and the bit that ENGFA reports. -/
def decodeCommand (e : Engine) (c : CmdWord) : Except (Nat × Nat) Instr :=
  if fld c.w0.toNat 8 4 ≠ engineCode e then .error (0, 8)
  else match engineCode e * 256 + fld c.w0.toNat 0 8 with
  | 1 => decodeArrMkboard c
  | 2 => decodeArrClrboard c
  | 3 => decodeArrMmt c
  | 4 => decodeArrAcmout c
  | 257 => decodeCpyCopy c
  | 258 => decodeCpyFill c
  | 259 => decodeCpyPref c
  | 260 => decodeCpyTierq c
  | 513 => decodeColDecl c
  | 514 => decodeColDeclT c
  | 515 => decodeColAllgather c
  | 516 => decodeColRedscat c
  | 517 => decodeColAlltoall c
  | 518 => decodeColBcast c
  | 519 => decodeColBarrier c
  | 520 => decodeColMaxbar c
  | 769 => decodeAgtMapnew c
  | 770 => decodeAgtMapdel c
  | 771 => decodeAgtRtload c
  | _ => .error (0, 0)

/-- Formats RRR, I16 and B16, J21, M4, S, E and V as numbers (R79). -/
def encRrr (mj d a b fn : Nat) : Nat := mj * 2 ^ 26 + d * 2 ^ 21 + a * 2 ^ 16 + b * 2 ^ 11 + fn

/-- Format I16, and B16 with its two registers in the same places (R79). -/
def encI16 (mj d a i : Nat) : Nat := mj * 2 ^ 26 + d * 2 ^ 21 + a * 2 ^ 16 + i

/-- Format J21 (R79). -/
def encJ21 (mj d i : Nat) : Nat := mj * 2 ^ 26 + d * 2 ^ 21 + i

/-- Format M4 (R79). -/
def encM4 (mj d a b c fn : Nat) : Nat := mj * 2 ^ 26 + d * 2 ^ 21 + a * 2 ^ 16 + b * 2 ^ 11 + c * 2 ^ 6 + fn

/-- Format S (R79). -/
def encS (d a r fn : Nat) : Nat := 0x26 * 2 ^ 26 + d * 2 ^ 21 + a * 2 ^ 16 + r * 2 ^ 4 + fn

/-- Format E (R79). -/
def encE (e c a d : Nat) : Nat := 0x2C * 2 ^ 26 + e * 2 ^ 23 + c * 2 ^ 19 + a * 2 ^ 14 + d * 2 ^ 9

/-- Format V (R79, R240). -/
def encV (mj fn fmt pd pa pb mask pol sc : Nat) : Nat :=
  mj * 2 ^ 26 + fn * 2 ^ 20 + fmt * 2 ^ 17 + pd * 2 ^ 13 + pa * 2 ^ 9 + pb * 2 ^ 5 + mask * 2 ^ 2 + pol * 2 + sc

/-- The word of an instruction as a number; none for a command, an event or a Rannen-port code. -/
def encodeNat : Instr → Option Nat
  | .add d a b => some (encRrr 0x1 d.toNat a.toNat b.toNat 0)
  | .sub d a b => some (encRrr 0x1 d.toNat a.toNat b.toNat 1)
  | .and d a b => some (encRrr 0x1 d.toNat a.toNat b.toNat 2)
  | .or d a b => some (encRrr 0x1 d.toNat a.toNat b.toNat 3)
  | .xor d a b => some (encRrr 0x1 d.toNat a.toNat b.toNat 4)
  | .sll d a b => some (encRrr 0x1 d.toNat a.toNat b.toNat 5)
  | .srl d a b => some (encRrr 0x1 d.toNat a.toNat b.toNat 6)
  | .sra d a b => some (encRrr 0x1 d.toNat a.toNat b.toNat 7)
  | .slt d a b => some (encRrr 0x1 d.toNat a.toNat b.toNat 8)
  | .sltu d a b => some (encRrr 0x1 d.toNat a.toNat b.toNat 9)
  | .min d a b => some (encRrr 0x1 d.toNat a.toNat b.toNat 10)
  | .max d a b => some (encRrr 0x1 d.toNat a.toNat b.toNat 11)
  | .minu d a b => some (encRrr 0x1 d.toNat a.toNat b.toNat 12)
  | .maxu d a b => some (encRrr 0x1 d.toNat a.toNat b.toNat 13)
  | .ror d a b => some (encRrr 0x1 d.toNat a.toNat b.toNat 14)
  | .clz d a => some (encRrr 0x1 d.toNat a.toNat 0 15)
  | .ctz d a => some (encRrr 0x1 d.toNat a.toNat 0 16)
  | .popc d a => some (encRrr 0x1 d.toNat a.toNat 0 17)
  | .addi d a i => some (encI16 0x2 d.toNat a.toNat i.toNat)
  | .andi d a i => some (encI16 0x3 d.toNat a.toNat i.toNat)
  | .ori d a i => some (encI16 0x4 d.toNat a.toNat i.toNat)
  | .xori d a i => some (encI16 0x5 d.toNat a.toNat i.toNat)
  | .slti d a i => some (encI16 0x6 d.toNat a.toNat i.toNat)
  | .sltiu d a i => some (encI16 0x7 d.toNat a.toNat i.toNat)
  | .slli d a s => some (encI16 0x8 d.toNat a.toNat s.toNat)
  | .srli d a s => some (encI16 0x8 d.toNat a.toNat (s.toNat + 256))
  | .srai d a s => some (encI16 0x8 d.toNat a.toNat (s.toNat + 512))
  | .rori d a s => some (encI16 0x8 d.toNat a.toNat (s.toNat + 768))
  | .lui d i => some (encI16 0x9 d.toNat 0 i.toNat)
  | .addpc d i => some (encI16 0xA d.toNat 0 i.toNat)
  | .mul d a b => some (encRrr 0xB d.toNat a.toNat b.toNat 0)
  | .mulh d a b => some (encRrr 0xB d.toNat a.toNat b.toNat 1)
  | .mulhu d a b => some (encRrr 0xB d.toNat a.toNat b.toNat 2)
  | .mulhsu d a b => some (encRrr 0xB d.toNat a.toNat b.toNat 3)
  | .div d a b => some (encRrr 0xB d.toNat a.toNat b.toNat 4)
  | .divu d a b => some (encRrr 0xB d.toNat a.toNat b.toNat 5)
  | .rem d a b => some (encRrr 0xB d.toNat a.toNat b.toNat 6)
  | .remu d a b => some (encRrr 0xB d.toNat a.toNat b.toNat 7)
  | .ldb d a i => some (encI16 0xC d.toNat a.toNat i.toNat)
  | .ldbu d a i => some (encI16 0xD d.toNat a.toNat i.toNat)
  | .ldh d a i => some (encI16 0xE d.toNat a.toNat i.toNat)
  | .ldhu d a i => some (encI16 0xF d.toNat a.toNat i.toNat)
  | .ldw d a i => some (encI16 0x10 d.toNat a.toNat i.toNat)
  | .ldwu d a i => some (encI16 0x11 d.toNat a.toNat i.toNat)
  | .ld d a i => some (encI16 0x12 d.toNat a.toNat i.toNat)
  | .stb d a i => some (encI16 0x13 d.toNat a.toNat i.toNat)
  | .sth d a i => some (encI16 0x14 d.toNat a.toNat i.toNat)
  | .stw d a i => some (encI16 0x15 d.toNat a.toNat i.toNat)
  | .st d a i => some (encI16 0x16 d.toNat a.toNat i.toNat)
  | .fldw d a i => some (encI16 0x17 d.toNat a.toNat i.toNat)
  | .fldd d a i => some (encI16 0x18 d.toNat a.toNat i.toNat)
  | .fstw d a i => some (encI16 0x19 d.toNat a.toNat i.toNat)
  | .fstd d a i => some (encI16 0x1A d.toNat a.toNat i.toNat)
  | .savemG d a b => some (encRrr 0x1B d.toNat a.toNat b.toNat 0)
  | .loadmG d a b => some (encRrr 0x1B d.toNat a.toNat b.toNat 1)
  | .savemF d a b => some (encRrr 0x1B d.toNat a.toNat b.toNat 2)
  | .loadmF d a b => some (encRrr 0x1B d.toNat a.toNat b.toNat 3)
  | .fenceCore => some (encRrr 0x1B 0 0 0 16)
  | .fenceTeam => some (encRrr 0x1B 0 0 0 17)
  | .fenceCluster => some (encRrr 0x1B 0 0 0 18)
  | .fenceDie => some (encRrr 0x1B 0 0 0 19)
  | .fencePackage => some (encRrr 0x1B 0 0 0 20)
  | .fenceFabric => some (encRrr 0x1B 0 0 0 21)
  | .fenceSystem => some (encRrr 0x1B 0 0 0 22)
  | .beq a b i => some (encI16 0x1C a.toNat b.toNat i.toNat)
  | .bne a b i => some (encI16 0x1D a.toNat b.toNat i.toNat)
  | .blt a b i => some (encI16 0x1E a.toNat b.toNat i.toNat)
  | .bge a b i => some (encI16 0x1F a.toNat b.toNat i.toNat)
  | .bltu a b i => some (encI16 0x20 a.toNat b.toNat i.toNat)
  | .bgeu a b i => some (encI16 0x21 a.toNat b.toNat i.toNat)
  | .jal d i => some (encJ21 0x22 d.toNat i.toNat)
  | .jalr d a i => some (encI16 0x23 d.toNat a.toNat i.toNat)
  | .fadd d a b p => some (encRrr 0x24 d.toNat a.toNat b.toNat (p.toNat * 1024))
  | .fsub d a b p => some (encRrr 0x24 d.toNat a.toNat b.toNat (p.toNat * 1024 + 1))
  | .fmul d a b p => some (encRrr 0x24 d.toNat a.toNat b.toNat (p.toNat * 1024 + 2))
  | .fdiv d a b p => some (encRrr 0x24 d.toNat a.toNat b.toNat (p.toNat * 1024 + 3))
  | .fsqrt d a p => some (encRrr 0x24 d.toNat a.toNat 0 (p.toNat * 1024 + 4))
  | .fmin d a b p => some (encRrr 0x24 d.toNat a.toNat b.toNat (p.toNat * 1024 + 5))
  | .fmax d a b p => some (encRrr 0x24 d.toNat a.toNat b.toNat (p.toNat * 1024 + 6))
  | .fsgnj d a b p => some (encRrr 0x24 d.toNat a.toNat b.toNat (p.toNat * 1024 + 7))
  | .fsgnjn d a b p => some (encRrr 0x24 d.toNat a.toNat b.toNat (p.toNat * 1024 + 8))
  | .fsgnjx d a b p => some (encRrr 0x24 d.toNat a.toNat b.toNat (p.toNat * 1024 + 9))
  | .feq d a b p => some (encRrr 0x24 d.toNat a.toNat b.toNat (p.toNat * 1024 + 10))
  | .flt d a b p => some (encRrr 0x24 d.toNat a.toNat b.toNat (p.toNat * 1024 + 11))
  | .fle d a b p => some (encRrr 0x24 d.toNat a.toNat b.toNat (p.toNat * 1024 + 12))
  | .fclass d a p => some (encRrr 0x24 d.toNat a.toNat 0 (p.toNat * 1024 + 13))
  | .fcvtSD d a => some (encRrr 0x24 d.toNat a.toNat 0 32)
  | .fcvtDS d a => some (encRrr 0x24 d.toNat a.toNat 0 33)
  | .fcvtWS d a => some (encRrr 0x24 d.toNat a.toNat 0 34)
  | .fcvtLS d a => some (encRrr 0x24 d.toNat a.toNat 0 35)
  | .fcvtSW d a => some (encRrr 0x24 d.toNat a.toNat 0 36)
  | .fcvtSL d a => some (encRrr 0x24 d.toNat a.toNat 0 37)
  | .fcvtWD d a => some (encRrr 0x24 d.toNat a.toNat 0 38)
  | .fcvtLD d a => some (encRrr 0x24 d.toNat a.toNat 0 39)
  | .fcvtDW d a => some (encRrr 0x24 d.toNat a.toNat 0 40)
  | .fcvtDL d a => some (encRrr 0x24 d.toNat a.toNat 0 41)
  | .fmvX d a => some (encRrr 0x24 d.toNat a.toNat 0 42)
  | .fmvF d a => some (encRrr 0x24 d.toNat a.toNat 0 43)
  | .fcvtBfS d a => some (encRrr 0x24 d.toNat a.toNat 0 44)
  | .fcvtSBf d a => some (encRrr 0x24 d.toNat a.toNat 0 45)
  | .fcvtE4S d a => some (encRrr 0x24 d.toNat a.toNat 0 46)
  | .fcvtSE4 d a => some (encRrr 0x24 d.toNat a.toNat 0 47)
  | .fcvtE5S d a => some (encRrr 0x24 d.toNat a.toNat 0 48)
  | .fcvtSE5 d a => some (encRrr 0x24 d.toNat a.toNat 0 49)
  | .fmadd d a b c p => some (encM4 0x25 d.toNat a.toNat b.toNat c.toNat (p.toNat * 4))
  | .fmsub d a b c p => some (encM4 0x25 d.toNat a.toNat b.toNat c.toNat (p.toNat * 4 + 1))
  | .fnmadd d a b c p => some (encM4 0x25 d.toNat a.toNat b.toNat c.toNat (p.toNat * 4 + 2))
  | .fnmsub d a b c p => some (encM4 0x25 d.toNat a.toNat b.toNat c.toNat (p.toNat * 4 + 3))
  | .rdc d r => some (encS d.toNat 0 r.toNat 0)
  | .wrc a r => some (encS 0 a.toNat r.toNat 1)
  | .eret => some (encS 0 0 0 2)
  | .wfi => some (encS 0 0 0 3)
  | .endThread => some (encS 0 0 0 4)
  | .resume d a => some (encS d.toNat a.toNat 0 5)
  | .amoAdd d a b n w => some (encM4 0x27 d.toNat a.toNat b.toNat 0 (n.toNat * 32 + w.toNat * 16))
  | .amoMin d a b n w => some (encM4 0x27 d.toNat a.toNat b.toNat 0 (n.toNat * 32 + w.toNat * 16 + 1))
  | .amoMax d a b n w => some (encM4 0x27 d.toNat a.toNat b.toNat 0 (n.toNat * 32 + w.toNat * 16 + 2))
  | .amoSwap d a b n w => some (encM4 0x27 d.toNat a.toNat b.toNat 0 (n.toNat * 32 + w.toNat * 16 + 3))
  | .amoCas d a b c n w => some (encM4 0x27 d.toNat a.toNat b.toNat c.toNat (n.toNat * 32 + w.toNat * 16 + 4))
  | .amoAnd d a b n w => some (encM4 0x27 d.toNat a.toNat b.toNat 0 (n.toNat * 32 + w.toNat * 16 + 5))
  | .amoOr d a b n w => some (encM4 0x27 d.toNat a.toNat b.toNat 0 (n.toNat * 32 + w.toNat * 16 + 6))
  | .amoXor d a b n w => some (encM4 0x27 d.toNat a.toNat b.toNat 0 (n.toNat * 32 + w.toNat * 16 + 7))
  | .amoWimin d a b n w => some (encM4 0x27 d.toNat a.toNat b.toNat 0 (n.toNat * 32 + w.toNat * 16 + 8))
  | .amoMinu d a b n w => some (encM4 0x27 d.toNat a.toNat b.toNat 0 (n.toNat * 32 + w.toNat * 16 + 9))
  | .amoMaxu d a b n w => some (encM4 0x27 d.toNat a.toNat b.toNat 0 (n.toNat * 32 + w.toNat * 16 + 10))
  | .amoFadd d a b n w => some (encM4 0x27 d.toNat a.toNat b.toNat 0 (n.toNat * 32 + w.toNat * 16 + 11))
  | .ship d a b n => some (encM4 0x27 d.toNat a.toNat b.toNat 0 (n.toNat * 32 + 31))
  | .mprb d a b => some (encM4 0x28 d.toNat a.toNat b.toNat 0 0)
  | .mins d a b c => some (encM4 0x28 d.toNat a.toNat b.toNat c.toNat 1)
  | .mupsAdd d a b c => some (encM4 0x28 d.toNat a.toNat b.toNat c.toNat 2)
  | .mupsMin d a b c => some (encM4 0x28 d.toNat a.toNat b.toNat c.toNat 3)
  | .mupsMax d a b c => some (encM4 0x28 d.toNat a.toNat b.toNat c.toNat 4)
  | .mupsOr d a b c => some (encM4 0x28 d.toNat a.toNat b.toNat c.toNat 5)
  | .mupsAnd d a b c => some (encM4 0x28 d.toNat a.toNat b.toNat c.toNat 6)
  | .mupsXor d a b c => some (encM4 0x28 d.toNat a.toNat b.toNat c.toNat 7)
  | .mupsReplace d a b c => some (encM4 0x28 d.toNat a.toNat b.toNat c.toNat 8)
  | .mupsFirst d a b c => some (encM4 0x28 d.toNat a.toNat b.toNat c.toNat 9)
  | .mrem d a b => some (encM4 0x28 d.toNat a.toNat b.toNat 0 10)
  | .mhash d a b => some (encM4 0x28 d.toNat a.toNat b.toNat 0 11)
  | .miter d a b c => some (encM4 0x28 d.toNat a.toNat b.toNat c.toNat 12)
  | .claim a => some (encRrr 0x29 0 a.toNat 0 0)
  | .acq a => some (encRrr 0x29 0 a.toNat 0 1)
  | .acqT d a => some (encRrr 0x29 d.toNat a.toNat 0 2)
  | .rel a => some (encRrr 0x29 0 a.toNat 0 3)
  | .relall => some (encRrr 0x29 0 0 0 4)
  | .vclaim d a b => some (encRrr 0x29 d.toNat a.toNat b.toNat 5)
  | .vreneg d => some (encRrr 0x29 d.toNat 0 0 6)
  | .barDef a b => some (encRrr 0x2A 0 a.toNat b.toNat 0)
  | .barArrive a => some (encRrr 0x2A 0 a.toNat 0 1)
  | .barWait a => some (encRrr 0x2A 0 a.toNat 0 2)
  | .barSync a => some (encRrr 0x2A 0 a.toNat 0 3)
  | .barDrop a => some (encRrr 0x2A 0 a.toNat 0 4)
  | .barMax d a b => some (encRrr 0x2A d.toNat a.toNat b.toNat 5)
  | .waitc d i => some (encI16 0x2B d.toNat 0 i.toNat)
  | .waitcReg d a => some (encI16 0x2B d.toNat a.toNat 4096)
  | .rdcnt d a => some (encI16 0x2B d.toNat a.toNat 8192)
  | .send d a t => some (encI16 0x2B d.toNat a.toNat (t.toNat + 12288))
  | .recv d => some (encI16 0x2B d.toNat 0 16384)
  | .recvT d => some (encI16 0x2B d.toNat 0 16385)
  | .enq e c a d => some (encE e.toNat c.toNat a.toNat d.toNat)
  | .pset d a => some (encRrr 0x2D d.toNat a.toNat 0 0)
  | .pstep d a => some (encRrr 0x2D d.toNat a.toNat 0 1)
  | .prd d a => some (encRrr 0x2D d.toNat a.toNat 0 2)
  | .prdstep d a => some (encRrr 0x2D d.toNat a.toNat 0 3)
  | .mkset d a => some (encRrr 0x2D d.toNat a.toNat 0 4)
  | .mkget d a => some (encRrr 0x2D d.toNat a.toNat 0 5)
  | .mkand d a b => some (encRrr 0x2D d.toNat a.toNat b.toNat 6)
  | .mkor d a b => some (encRrr 0x2D d.toNat a.toNat b.toNat 7)
  | .mkxor d a b => some (encRrr 0x2D d.toNat a.toNat b.toNat 8)
  | .mkandn d a b => some (encRrr 0x2D d.toNat a.toNat b.toNat 9)
  | .acmrd d a => some (encRrr 0x2E d.toNat a.toNat 0 0)
  | .acmrdN d a => some (encRrr 0x2E d.toNat a.toNat 0 1)
  | .acmwr a b => some (encRrr 0x2E 0 a.toNat b.toNat 2)
  | .grid d a b => some (encRrr 0x2F d.toNat a.toNat b.toNat 0)
  | .vaddFp f d a b m p s => some (encV 0x30 0 f.toNat d.toNat a.toNat b.toNat m.toNat p.toNat s.toNat)
  | .vsubFp f d a b m p s => some (encV 0x30 1 f.toNat d.toNat a.toNat b.toNat m.toNat p.toNat s.toNat)
  | .vmulFp f d a b m p s => some (encV 0x30 2 f.toNat d.toNat a.toNat b.toNat m.toNat p.toNat s.toNat)
  | .vfma f d a b m p s => some (encV 0x30 3 f.toNat d.toNat a.toNat b.toNat m.toNat p.toNat s.toNat)
  | .vfms f d a b m p s => some (encV 0x30 4 f.toNat d.toNat a.toNat b.toNat m.toNat p.toNat s.toNat)
  | .vminFp f d a b m p s => some (encV 0x30 5 f.toNat d.toNat a.toNat b.toNat m.toNat p.toNat s.toNat)
  | .vmaxFp f d a b m p s => some (encV 0x30 6 f.toNat d.toNat a.toNat b.toNat m.toNat p.toNat s.toNat)
  | .vabsFp f d a m p => some (encV 0x30 7 f.toNat d.toNat a.toNat 0 m.toNat p.toNat 0)
  | .vneg f d a m p => some (encV 0x30 8 f.toNat d.toNat a.toNat 0 m.toNat p.toNat 0)
  | .vaddInt f d a b m p s => some (encV 0x31 0 f.toNat d.toNat a.toNat b.toNat m.toNat p.toNat s.toNat)
  | .vsubInt f d a b m p s => some (encV 0x31 1 f.toNat d.toNat a.toNat b.toNat m.toNat p.toNat s.toNat)
  | .vmulInt f d a b m p s => some (encV 0x31 2 f.toNat d.toNat a.toNat b.toNat m.toNat p.toNat s.toNat)
  | .vmulh f d a b m p s => some (encV 0x31 3 f.toNat d.toNat a.toNat b.toNat m.toNat p.toNat s.toNat)
  | .vminInt f d a b m p s => some (encV 0x31 4 f.toNat d.toNat a.toNat b.toNat m.toNat p.toNat s.toNat)
  | .vmaxInt f d a b m p s => some (encV 0x31 5 f.toNat d.toNat a.toNat b.toNat m.toNat p.toNat s.toNat)
  | .vminu f d a b m p s => some (encV 0x31 6 f.toNat d.toNat a.toNat b.toNat m.toNat p.toNat s.toNat)
  | .vmaxu f d a b m p s => some (encV 0x31 7 f.toNat d.toNat a.toNat b.toNat m.toNat p.toNat s.toNat)
  | .vadds f d a b m p s => some (encV 0x31 8 f.toNat d.toNat a.toNat b.toNat m.toNat p.toNat s.toNat)
  | .vsubs f d a b m p s => some (encV 0x31 9 f.toNat d.toNat a.toNat b.toNat m.toNat p.toNat s.toNat)
  | .vabsInt f d a m p => some (encV 0x31 10 f.toNat d.toNat a.toNat 0 m.toNat p.toNat 0)
  | .vand f d a b m p s => some (encV 0x32 0 f.toNat d.toNat a.toNat b.toNat m.toNat p.toNat s.toNat)
  | .vor f d a b m p s => some (encV 0x32 1 f.toNat d.toNat a.toNat b.toNat m.toNat p.toNat s.toNat)
  | .vxor f d a b m p s => some (encV 0x32 2 f.toNat d.toNat a.toNat b.toNat m.toNat p.toNat s.toNat)
  | .vandn f d a b m p s => some (encV 0x32 3 f.toNat d.toNat a.toNat b.toNat m.toNat p.toNat s.toNat)
  | .vnot f d a m p => some (encV 0x32 4 f.toNat d.toNat a.toNat 0 m.toNat p.toNat 0)
  | .vsll f d a b m p s => some (encV 0x32 5 f.toNat d.toNat a.toNat b.toNat m.toNat p.toNat s.toNat)
  | .vsrl f d a b m p s => some (encV 0x32 6 f.toNat d.toNat a.toNat b.toNat m.toNat p.toNat s.toNat)
  | .vsra f d a b m p s => some (encV 0x32 7 f.toNat d.toNat a.toNat b.toNat m.toNat p.toNat s.toNat)
  | .vceq f d a b m p s => some (encV 0x33 0 f.toNat d.toNat a.toNat b.toNat m.toNat p.toNat s.toNat)
  | .vclt f d a b m p s => some (encV 0x33 1 f.toNat d.toNat a.toNat b.toNat m.toNat p.toNat s.toNat)
  | .vcle f d a b m p s => some (encV 0x33 2 f.toNat d.toNat a.toNat b.toNat m.toNat p.toNat s.toNat)
  | .vcne f d a b m p s => some (encV 0x33 3 f.toNat d.toNat a.toNat b.toNat m.toNat p.toNat s.toNat)
  | .vsel f d a b m s => some (encV 0x33 4 f.toNat d.toNat a.toNat b.toNat m.toNat 0 s.toNat)
  | .vcvt f d a s m p => some (encV 0x34 0 f.toNat d.toNat a.toNat s.toNat m.toNat p.toNat 0)
  | .vquant f d a b m p => some (encV 0x34 1 f.toNat d.toNat a.toNat b.toNat m.toNat p.toNat 1)
  | .vpk3 f d a => some (encV 0x34 2 f.toNat d.toNat a.toNat 0 0 0 0)
  | .vupk3 f d a => some (encV 0x34 3 f.toNat d.toNat a.toNat 0 0 0 0)
  | .vredsum f d a m => some (encV 0x35 0 f.toNat d.toNat a.toNat 0 m.toNat 0 0)
  | .vredmax f d a m => some (encV 0x35 1 f.toNat d.toNat a.toNat 0 m.toNat 0 0)
  | .vredmin f d a m => some (encV 0x35 2 f.toNat d.toNat a.toNat 0 m.toNat 0 0)
  | .vexp2 d a m p => some (encV 0x35 8 0 d.toNat a.toNat 0 m.toNat p.toNat 0)
  | .vlog2 d a m p => some (encV 0x35 9 0 d.toNat a.toNat 0 m.toNat p.toNat 0)
  | .vrcp d a m p => some (encV 0x35 10 0 d.toNat a.toNat 0 m.toNat p.toNat 0)
  | .vrsqrt d a m p => some (encV 0x35 11 0 d.toNat a.toNat 0 m.toNat p.toNat 0)
  | .vtanh d a m p => some (encV 0x35 12 0 d.toNat a.toNat 0 m.toNat p.toNat 0)
  | .vmov f d a m p => some (encV 0x36 0 f.toNat d.toNat a.toNat 0 m.toNat p.toNat 0)
  | .vmovScalar f d b m p => some (encV 0x36 0 f.toNat d.toNat 0 b.toNat m.toNat p.toNat 1)
  | .vgath f d a b m p => some (encV 0x36 1 f.toNat d.toNat a.toNat b.toNat m.toNat p.toNat 0)
  | .vscat f d a b m => some (encV 0x36 2 f.toNat d.toNat a.toNat b.toNat m.toNat 0 0)
  | .vtopk d a b m => some (encV 0x36 3 0 d.toNat a.toNat b.toNat m.toNat 0 0)
  | .vfence => some (encV 0x37 0 0 0 0 0 0 0 0)
  | .vdrain => some (encV 0x37 1 0 0 0 0 0 0 0)
  | .arrMkboard _ _ _ _ => none
  | .arrClrboard _ _ => none
  | .arrMmt _ _ _ _ _ _ _ _ _ _ _ => none
  | .arrAcmout _ _ _ _ _ _ _ _ _ _ _ => none
  | .cpyCopy _ _ _ _ _ _ _ _ _ _ => none
  | .cpyFill _ _ _ _ _ _ _ => none
  | .cpyPref _ _ _ => none
  | .cpyTierq _ _ => none
  | .colDecl _ _ _ _ => none
  | .colDeclT _ _ _ _ => none
  | .colAllgather _ _ _ _ _ => none
  | .colRedscat _ _ _ _ _ _ _ => none
  | .colAlltoall _ _ _ _ _ => none
  | .colBcast _ _ _ _ _ _ => none
  | .colBarrier _ _ => none
  | .colMaxbar _ _ _ _ => none
  | .agtMapnew _ _ _ _ _ _ _ _ _ _ => none
  | .agtMapdel _ _ => none
  | .agtRtload _ _ _ _ => none
  | .preempt _ => none
  | .clusterFailure _ => none
  | .clusterLost _ => none
  | .spareTestDone _ _ => none
  | .fpEvent _ => none
  | .tabortWrite _ => none
  | .teamEnd _ _ => none
  | .shootGo _ => none
  | .shootdownComplete => none
  | .efaultClear _ => none
  | .spflagWrite _ => none
  | .wrrwWrite _ => none
  | .storeRelease _ => none
  | .storeAccept _ => none
  | .loadServed _ => none
  | .messageArrival _ => none
  | .blockedListRedecide _ => none
  | .zeroingDone _ => none
  | .pageRelocation _ => none
  | .barrierRelease _ _ _ => none
  | .barrierTimeout _ => none
  | .collectiveMatch _ => none
  | .collectivePacketArrival _ => none
  | .boardConversionDone _ _ => none
  | .boardClearDone _ _ => none
  | .rowGrant _ => none
  | .drainBeat _ => none
  | .copyGranuleGrant _ => none
  | .copyGranuleWrite _ => none
  | .tierMigration _ => none
  | .commandComplete _ => none
  | .vectorRetire _ => none
  | .sfuExecute _ => none
  | .topkMerge _ => none
  | .shippedOpPerform _ => none
  | .shippedReply _ => none
  | .mapOpPerform _ => none
  | .splitStep _ _ _ => none
  | .mapdelComplete _ => none
  | .rtloadTableWrite _ => none
  | .stackSelfRefresh _ => none
  | .memoryStall _ => none
  | .stackWake _ => none
  | .pagePrecharge _ => none
  | .bankRebuildStart _ _ _ => none
  | .bankRebuilt _ _ => none
  | .channelFailure _ _ => none
  | .channelRetired _ => none
  | .powerThrottle => none
  | .throttleEnd => none
  | .schedulingDecision => none
  | .threadStart _ _ => none
  | .coreFreed _ => none
  | .gridComplete _ => none
  | .hostDoorbell _ _ => none
  | .hostPacketCheck _ _ => none
  | .hsemTake _ _ => none
  | .hsemRelease _ _ => none
  | .hostLinkDown _ => none
  | .serviceCoreReset _ => none
  | .configRegisterWrite _ _ _ _ => none
  | .bufctlGo _ _ => none
  | .bufferAssignDone => none
  | .cfgrejClear _ _ => none
  | .fabidWrite _ _ => none
  | .pwrcapWrite _ _ => none
  | .spctlWrite _ _ => none
  | .tmstatClear _ _ _ => none
  | .affmissClear _ => none
  | .hostWindowRead _ _ _ => none
  | .hostWindowWrite _ _ _ => none
  | .attest _ => none
  | .keyLoad _ => none
  | .keyClear _ => none
  | .frzPin => none
  | .frzcmdWrite _ => none
  | .freeze => none
  | .idcode => none
  | .fmaddr => none
  | .fmdata => none
  | .bypass => none
  | .reset _ => none
  | .illegalInstruction _ => none
  | .reservedField _ => none
  | .fetchRegion _ => none
  | .peerLinkDown _ => none

/-- The 32-bit word of a core instruction; 0, which is always illegal, for every other instruction. -/
def encode32 (i : Instr) : BitVec 32 := .ofNat 32 ((encodeNat i).getD 0)

/-- Word 0 of a command without its FLAGS (R87). -/
def encHdr (h : Hdr) (chk opc : Nat) : Nat :=
  (match h.rel with | some s => 2 ^ 19 + scopeCode s * 2 ^ 16 | none => 0) +
  (match h.acq with | some s => 2 ^ 15 + scopeCode s * 2 ^ 12 | none => 0) + chk * 2 ^ 8 + opc

/-- The 256-bit word of a command (R87-R89); none for every other instruction. -/
def encodeCommand : Instr → Option CmdWord
  | .arrMkboard h slot width wscale => some ⟨.ofNat 32 (encHdr h 0 1), .ofNat 32 (slot.toNat), .ofNat 32 (width.toNat), .ofNat 32 (wscale.toNat), 0, 0, 0, 0⟩
  | .arrClrboard h slot => some ⟨.ofNat 32 (encHdr h 0 2), .ofNat 32 (slot.toNat), 0, 0, 0, 0, 0, 0⟩
  | .arrMmt h kchain accum rowptr stride ascale accbase lead m fmt mask => some ⟨.ofNat 32 (encHdr h 0 3 + kchain.toNat * 16777216 + accum.toNat * 33554432), .ofNat 32 (rowptr.toNat), .ofNat 32 (stride.toNat), .ofNat 32 (ascale.toNat), .ofNat 32 (accbase.toNat), .ofNat 32 (lead.toNat), .ofNat 32 (m.toNat + fmt.toNat * 4096 + mask.toNat * 65536), 0⟩
  | .arrAcmout h clear scl accbase lead dst dstride cols rows rscale ofmt => some ⟨.ofNat 32 (encHdr h 0 4 + clear.toNat * 16777216 + scl.toNat * 33554432), .ofNat 32 (accbase.toNat), .ofNat 32 (lead.toNat), .ofNat 32 (dst.toNat), .ofNat 32 (dstride.toNat), .ofNat 32 (cols.toNat + rows.toNat * 65536), .ofNat 32 (rscale.toNat), .ofNat 32 (ofmt.toNat)⟩
  | .cpyCopy h cvt src sacc dst dacc len rows sstride dstride => some ⟨.ofNat 32 (encHdr h 1 1 + cvt.toNat * 16777216), .ofNat 32 (src.toNat % 4294967296), .ofNat 32 (src.toNat / 4294967296 + sacc.toNat * 65536), .ofNat 32 (dst.toNat % 4294967296), .ofNat 32 (dst.toNat / 4294967296 + dacc.toNat * 65536), .ofNat 32 (len.toNat + rows.toNat * 1048576), .ofNat 32 (sstride.toNat), .ofNat 32 (dstride.toNat)⟩
  | .cpyFill h pattern dst dacc len rows dstride => some ⟨.ofNat 32 (encHdr h 1 2), .ofNat 32 (pattern.toNat), 0, .ofNat 32 (dst.toNat % 4294967296), .ofNat 32 (dst.toNat / 4294967296 + dacc.toNat * 65536), .ofNat 32 (len.toNat + rows.toNat * 1048576), 0, .ofNat 32 (dstride.toNat)⟩
  | .cpyPref h addr count => some ⟨.ofNat 32 (encHdr h 1 3), .ofNat 32 (addr.toNat % 4294967296), .ofNat 32 (addr.toNat / 4294967296), 0, 0, .ofNat 32 (count.toNat), 0, 0⟩
  | .cpyTierq h addr => some ⟨.ofNat 32 (encHdr h 1 4), .ofNat 32 (addr.toNat % 4294967296), .ofNat 32 (addr.toNat / 4294967296), 0, 0, 0, 0, 0⟩
  | .colDecl h gid mem fab => some ⟨.ofNat 32 (encHdr h 2 1), .ofNat 32 (gid.toNat), .ofNat 32 (mem.toNat % 4294967296), .ofNat 32 (mem.toNat / 4294967296 % 4294967296), .ofNat 32 (mem.toNat / 18446744073709551616 % 4294967296), .ofNat 32 (mem.toNat / 79228162514264337593543950336), .ofNat 32 (fab.toNat), 0⟩
  | .colDeclT h gid mem fab => some ⟨.ofNat 32 (encHdr h 2 2), .ofNat 32 (gid.toNat), .ofNat 32 (mem.toNat % 4294967296), .ofNat 32 (mem.toNat / 4294967296 % 4294967296), .ofNat 32 (mem.toNat / 18446744073709551616 % 4294967296), .ofNat 32 (mem.toNat / 79228162514264337593543950336), .ofNat 32 (fab.toNat), 0⟩
  | .colAllgather h gid src dst bytes => some ⟨.ofNat 32 (encHdr h 2 3), .ofNat 32 (gid.toNat), .ofNat 32 (src.toNat), .ofNat 32 (dst.toNat), .ofNat 32 (bytes.toNat), 0, 0, 0⟩
  | .colRedscat h gid src dst bytes op fmt => some ⟨.ofNat 32 (encHdr h 2 4), .ofNat 32 (gid.toNat), .ofNat 32 (src.toNat), .ofNat 32 (dst.toNat), .ofNat 32 (bytes.toNat), .ofNat 32 (op.toNat + fmt.toNat * 16), 0, 0⟩
  | .colAlltoall h gid src dst bytes => some ⟨.ofNat 32 (encHdr h 2 5), .ofNat 32 (gid.toNat), .ofNat 32 (src.toNat), .ofNat 32 (dst.toNat), .ofNat 32 (bytes.toNat), 0, 0, 0⟩
  | .colBcast h gid src dst bytes root => some ⟨.ofNat 32 (encHdr h 2 6), .ofNat 32 (gid.toNat), .ofNat 32 (src.toNat), .ofNat 32 (dst.toNat), .ofNat 32 (bytes.toNat), .ofNat 32 (root.toNat * 65536), 0, 0⟩
  | .colBarrier h gid => some ⟨.ofNat 32 (encHdr h 2 7), .ofNat 32 (gid.toNat), 0, 0, 0, 0, 0, 0⟩
  | .colMaxbar h gid src dst => some ⟨.ofNat 32 (encHdr h 2 8), .ofNat 32 (gid.toNat), .ofNat 32 (src.toNat), .ofNat 32 (dst.toNat), 0, 0, 0, 0⟩
  | .agtMapnew h base zpg default seed l0 lmax kw vw comb => some ⟨.ofNat 32 (encHdr h 3 1), .ofNat 32 (base.toNat % 4294967296), .ofNat 32 (base.toNat / 4294967296 + zpg.toNat * 65536), .ofNat 32 (default.toNat % 4294967296), .ofNat 32 (default.toNat / 4294967296), .ofNat 32 (seed.toNat % 4294967296), .ofNat 32 (seed.toNat / 4294967296), .ofNat 32 (l0.toNat + lmax.toNat * 256 + kw.toNat * 65536 + vw.toNat * 131072 + comb.toNat * 1048576)⟩
  | .agtMapdel h handle => some ⟨.ofNat 32 (encHdr h 3 2), .ofNat 32 (handle.toNat), 0, 0, 0, 0, 0, 0⟩
  | .agtRtload h src first count => some ⟨.ofNat 32 (encHdr h 3 3), .ofNat 32 (src.toNat % 4294967296), .ofNat 32 (src.toNat / 4294967296), .ofNat 32 (first.toNat + count.toNat * 256), 0, 0, 0, 0⟩
  | .add _ _ _ => none
  | .sub _ _ _ => none
  | .and _ _ _ => none
  | .or _ _ _ => none
  | .xor _ _ _ => none
  | .sll _ _ _ => none
  | .srl _ _ _ => none
  | .sra _ _ _ => none
  | .slt _ _ _ => none
  | .sltu _ _ _ => none
  | .min _ _ _ => none
  | .max _ _ _ => none
  | .minu _ _ _ => none
  | .maxu _ _ _ => none
  | .ror _ _ _ => none
  | .clz _ _ => none
  | .ctz _ _ => none
  | .popc _ _ => none
  | .addi _ _ _ => none
  | .andi _ _ _ => none
  | .ori _ _ _ => none
  | .xori _ _ _ => none
  | .slti _ _ _ => none
  | .sltiu _ _ _ => none
  | .slli _ _ _ => none
  | .srli _ _ _ => none
  | .srai _ _ _ => none
  | .rori _ _ _ => none
  | .lui _ _ => none
  | .addpc _ _ => none
  | .mul _ _ _ => none
  | .mulh _ _ _ => none
  | .mulhu _ _ _ => none
  | .mulhsu _ _ _ => none
  | .div _ _ _ => none
  | .divu _ _ _ => none
  | .rem _ _ _ => none
  | .remu _ _ _ => none
  | .ldb _ _ _ => none
  | .ldbu _ _ _ => none
  | .ldh _ _ _ => none
  | .ldhu _ _ _ => none
  | .ldw _ _ _ => none
  | .ldwu _ _ _ => none
  | .ld _ _ _ => none
  | .stb _ _ _ => none
  | .sth _ _ _ => none
  | .stw _ _ _ => none
  | .st _ _ _ => none
  | .fldw _ _ _ => none
  | .fldd _ _ _ => none
  | .fstw _ _ _ => none
  | .fstd _ _ _ => none
  | .savemG _ _ _ => none
  | .loadmG _ _ _ => none
  | .savemF _ _ _ => none
  | .loadmF _ _ _ => none
  | .fenceCore => none
  | .fenceTeam => none
  | .fenceCluster => none
  | .fenceDie => none
  | .fencePackage => none
  | .fenceFabric => none
  | .fenceSystem => none
  | .beq _ _ _ => none
  | .bne _ _ _ => none
  | .blt _ _ _ => none
  | .bge _ _ _ => none
  | .bltu _ _ _ => none
  | .bgeu _ _ _ => none
  | .jal _ _ => none
  | .jalr _ _ _ => none
  | .fadd _ _ _ _ => none
  | .fsub _ _ _ _ => none
  | .fmul _ _ _ _ => none
  | .fdiv _ _ _ _ => none
  | .fsqrt _ _ _ => none
  | .fmin _ _ _ _ => none
  | .fmax _ _ _ _ => none
  | .fsgnj _ _ _ _ => none
  | .fsgnjn _ _ _ _ => none
  | .fsgnjx _ _ _ _ => none
  | .feq _ _ _ _ => none
  | .flt _ _ _ _ => none
  | .fle _ _ _ _ => none
  | .fclass _ _ _ => none
  | .fcvtSD _ _ => none
  | .fcvtDS _ _ => none
  | .fcvtWS _ _ => none
  | .fcvtLS _ _ => none
  | .fcvtSW _ _ => none
  | .fcvtSL _ _ => none
  | .fcvtWD _ _ => none
  | .fcvtLD _ _ => none
  | .fcvtDW _ _ => none
  | .fcvtDL _ _ => none
  | .fmvX _ _ => none
  | .fmvF _ _ => none
  | .fcvtBfS _ _ => none
  | .fcvtSBf _ _ => none
  | .fcvtE4S _ _ => none
  | .fcvtSE4 _ _ => none
  | .fcvtE5S _ _ => none
  | .fcvtSE5 _ _ => none
  | .fmadd _ _ _ _ _ => none
  | .fmsub _ _ _ _ _ => none
  | .fnmadd _ _ _ _ _ => none
  | .fnmsub _ _ _ _ _ => none
  | .rdc _ _ => none
  | .wrc _ _ => none
  | .eret => none
  | .wfi => none
  | .endThread => none
  | .resume _ _ => none
  | .amoAdd _ _ _ _ _ => none
  | .amoMin _ _ _ _ _ => none
  | .amoMax _ _ _ _ _ => none
  | .amoSwap _ _ _ _ _ => none
  | .amoCas _ _ _ _ _ _ => none
  | .amoAnd _ _ _ _ _ => none
  | .amoOr _ _ _ _ _ => none
  | .amoXor _ _ _ _ _ => none
  | .amoWimin _ _ _ _ _ => none
  | .amoMinu _ _ _ _ _ => none
  | .amoMaxu _ _ _ _ _ => none
  | .amoFadd _ _ _ _ _ => none
  | .ship _ _ _ _ => none
  | .mprb _ _ _ => none
  | .mins _ _ _ _ => none
  | .mupsAdd _ _ _ _ => none
  | .mupsMin _ _ _ _ => none
  | .mupsMax _ _ _ _ => none
  | .mupsOr _ _ _ _ => none
  | .mupsAnd _ _ _ _ => none
  | .mupsXor _ _ _ _ => none
  | .mupsReplace _ _ _ _ => none
  | .mupsFirst _ _ _ _ => none
  | .mrem _ _ _ => none
  | .mhash _ _ _ => none
  | .miter _ _ _ _ => none
  | .claim _ => none
  | .acq _ => none
  | .acqT _ _ => none
  | .rel _ => none
  | .relall => none
  | .vclaim _ _ _ => none
  | .vreneg _ => none
  | .barDef _ _ => none
  | .barArrive _ => none
  | .barWait _ => none
  | .barSync _ => none
  | .barDrop _ => none
  | .barMax _ _ _ => none
  | .waitc _ _ => none
  | .waitcReg _ _ => none
  | .rdcnt _ _ => none
  | .send _ _ _ => none
  | .recv _ => none
  | .recvT _ => none
  | .enq _ _ _ _ => none
  | .pset _ _ => none
  | .pstep _ _ => none
  | .prd _ _ => none
  | .prdstep _ _ => none
  | .mkset _ _ => none
  | .mkget _ _ => none
  | .mkand _ _ _ => none
  | .mkor _ _ _ => none
  | .mkxor _ _ _ => none
  | .mkandn _ _ _ => none
  | .acmrd _ _ => none
  | .acmrdN _ _ => none
  | .acmwr _ _ => none
  | .grid _ _ _ => none
  | .vaddFp _ _ _ _ _ _ _ => none
  | .vsubFp _ _ _ _ _ _ _ => none
  | .vmulFp _ _ _ _ _ _ _ => none
  | .vfma _ _ _ _ _ _ _ => none
  | .vfms _ _ _ _ _ _ _ => none
  | .vminFp _ _ _ _ _ _ _ => none
  | .vmaxFp _ _ _ _ _ _ _ => none
  | .vabsFp _ _ _ _ _ => none
  | .vneg _ _ _ _ _ => none
  | .vaddInt _ _ _ _ _ _ _ => none
  | .vsubInt _ _ _ _ _ _ _ => none
  | .vmulInt _ _ _ _ _ _ _ => none
  | .vmulh _ _ _ _ _ _ _ => none
  | .vminInt _ _ _ _ _ _ _ => none
  | .vmaxInt _ _ _ _ _ _ _ => none
  | .vminu _ _ _ _ _ _ _ => none
  | .vmaxu _ _ _ _ _ _ _ => none
  | .vadds _ _ _ _ _ _ _ => none
  | .vsubs _ _ _ _ _ _ _ => none
  | .vabsInt _ _ _ _ _ => none
  | .vand _ _ _ _ _ _ _ => none
  | .vor _ _ _ _ _ _ _ => none
  | .vxor _ _ _ _ _ _ _ => none
  | .vandn _ _ _ _ _ _ _ => none
  | .vnot _ _ _ _ _ => none
  | .vsll _ _ _ _ _ _ _ => none
  | .vsrl _ _ _ _ _ _ _ => none
  | .vsra _ _ _ _ _ _ _ => none
  | .vceq _ _ _ _ _ _ _ => none
  | .vclt _ _ _ _ _ _ _ => none
  | .vcle _ _ _ _ _ _ _ => none
  | .vcne _ _ _ _ _ _ _ => none
  | .vsel _ _ _ _ _ _ => none
  | .vcvt _ _ _ _ _ _ => none
  | .vquant _ _ _ _ _ _ => none
  | .vpk3 _ _ _ => none
  | .vupk3 _ _ _ => none
  | .vredsum _ _ _ _ => none
  | .vredmax _ _ _ _ => none
  | .vredmin _ _ _ _ => none
  | .vexp2 _ _ _ _ => none
  | .vlog2 _ _ _ _ => none
  | .vrcp _ _ _ _ => none
  | .vrsqrt _ _ _ _ => none
  | .vtanh _ _ _ _ => none
  | .vmov _ _ _ _ _ => none
  | .vmovScalar _ _ _ _ _ => none
  | .vgath _ _ _ _ _ _ => none
  | .vscat _ _ _ _ _ => none
  | .vtopk _ _ _ _ => none
  | .vfence => none
  | .vdrain => none
  | .preempt _ => none
  | .clusterFailure _ => none
  | .clusterLost _ => none
  | .spareTestDone _ _ => none
  | .fpEvent _ => none
  | .tabortWrite _ => none
  | .teamEnd _ _ => none
  | .shootGo _ => none
  | .shootdownComplete => none
  | .efaultClear _ => none
  | .spflagWrite _ => none
  | .wrrwWrite _ => none
  | .storeRelease _ => none
  | .storeAccept _ => none
  | .loadServed _ => none
  | .messageArrival _ => none
  | .blockedListRedecide _ => none
  | .zeroingDone _ => none
  | .pageRelocation _ => none
  | .barrierRelease _ _ _ => none
  | .barrierTimeout _ => none
  | .collectiveMatch _ => none
  | .collectivePacketArrival _ => none
  | .boardConversionDone _ _ => none
  | .boardClearDone _ _ => none
  | .rowGrant _ => none
  | .drainBeat _ => none
  | .copyGranuleGrant _ => none
  | .copyGranuleWrite _ => none
  | .tierMigration _ => none
  | .commandComplete _ => none
  | .vectorRetire _ => none
  | .sfuExecute _ => none
  | .topkMerge _ => none
  | .shippedOpPerform _ => none
  | .shippedReply _ => none
  | .mapOpPerform _ => none
  | .splitStep _ _ _ => none
  | .mapdelComplete _ => none
  | .rtloadTableWrite _ => none
  | .stackSelfRefresh _ => none
  | .memoryStall _ => none
  | .stackWake _ => none
  | .pagePrecharge _ => none
  | .bankRebuildStart _ _ _ => none
  | .bankRebuilt _ _ => none
  | .channelFailure _ _ => none
  | .channelRetired _ => none
  | .powerThrottle => none
  | .throttleEnd => none
  | .schedulingDecision => none
  | .threadStart _ _ => none
  | .coreFreed _ => none
  | .gridComplete _ => none
  | .hostDoorbell _ _ => none
  | .hostPacketCheck _ _ => none
  | .hsemTake _ _ => none
  | .hsemRelease _ _ => none
  | .hostLinkDown _ => none
  | .serviceCoreReset _ => none
  | .configRegisterWrite _ _ _ _ => none
  | .bufctlGo _ _ => none
  | .bufferAssignDone => none
  | .cfgrejClear _ _ => none
  | .fabidWrite _ _ => none
  | .pwrcapWrite _ _ => none
  | .spctlWrite _ _ => none
  | .tmstatClear _ _ _ => none
  | .affmissClear _ => none
  | .hostWindowRead _ _ _ => none
  | .hostWindowWrite _ _ _ => none
  | .attest _ => none
  | .keyLoad _ => none
  | .keyClear _ => none
  | .frzPin => none
  | .frzcmdWrite _ => none
  | .freeze => none
  | .idcode => none
  | .fmaddr => none
  | .fmdata => none
  | .bypass => none
  | .reset _ => none
  | .illegalInstruction _ => none
  | .reservedField _ => none
  | .fetchRegion _ => none
  | .peerLinkDown _ => none

/-- The engine whose commands an instruction belongs to; none for a word of another kind. -/
def commandEngine : Instr → Option Engine
  | .add _ _ _ => none
  | .sub _ _ _ => none
  | .and _ _ _ => none
  | .or _ _ _ => none
  | .xor _ _ _ => none
  | .sll _ _ _ => none
  | .srl _ _ _ => none
  | .sra _ _ _ => none
  | .slt _ _ _ => none
  | .sltu _ _ _ => none
  | .min _ _ _ => none
  | .max _ _ _ => none
  | .minu _ _ _ => none
  | .maxu _ _ _ => none
  | .ror _ _ _ => none
  | .clz _ _ => none
  | .ctz _ _ => none
  | .popc _ _ => none
  | .addi _ _ _ => none
  | .andi _ _ _ => none
  | .ori _ _ _ => none
  | .xori _ _ _ => none
  | .slti _ _ _ => none
  | .sltiu _ _ _ => none
  | .slli _ _ _ => none
  | .srli _ _ _ => none
  | .srai _ _ _ => none
  | .rori _ _ _ => none
  | .lui _ _ => none
  | .addpc _ _ => none
  | .mul _ _ _ => none
  | .mulh _ _ _ => none
  | .mulhu _ _ _ => none
  | .mulhsu _ _ _ => none
  | .div _ _ _ => none
  | .divu _ _ _ => none
  | .rem _ _ _ => none
  | .remu _ _ _ => none
  | .ldb _ _ _ => none
  | .ldbu _ _ _ => none
  | .ldh _ _ _ => none
  | .ldhu _ _ _ => none
  | .ldw _ _ _ => none
  | .ldwu _ _ _ => none
  | .ld _ _ _ => none
  | .stb _ _ _ => none
  | .sth _ _ _ => none
  | .stw _ _ _ => none
  | .st _ _ _ => none
  | .fldw _ _ _ => none
  | .fldd _ _ _ => none
  | .fstw _ _ _ => none
  | .fstd _ _ _ => none
  | .savemG _ _ _ => none
  | .loadmG _ _ _ => none
  | .savemF _ _ _ => none
  | .loadmF _ _ _ => none
  | .fenceCore => none
  | .fenceTeam => none
  | .fenceCluster => none
  | .fenceDie => none
  | .fencePackage => none
  | .fenceFabric => none
  | .fenceSystem => none
  | .beq _ _ _ => none
  | .bne _ _ _ => none
  | .blt _ _ _ => none
  | .bge _ _ _ => none
  | .bltu _ _ _ => none
  | .bgeu _ _ _ => none
  | .jal _ _ => none
  | .jalr _ _ _ => none
  | .fadd _ _ _ _ => none
  | .fsub _ _ _ _ => none
  | .fmul _ _ _ _ => none
  | .fdiv _ _ _ _ => none
  | .fsqrt _ _ _ => none
  | .fmin _ _ _ _ => none
  | .fmax _ _ _ _ => none
  | .fsgnj _ _ _ _ => none
  | .fsgnjn _ _ _ _ => none
  | .fsgnjx _ _ _ _ => none
  | .feq _ _ _ _ => none
  | .flt _ _ _ _ => none
  | .fle _ _ _ _ => none
  | .fclass _ _ _ => none
  | .fcvtSD _ _ => none
  | .fcvtDS _ _ => none
  | .fcvtWS _ _ => none
  | .fcvtLS _ _ => none
  | .fcvtSW _ _ => none
  | .fcvtSL _ _ => none
  | .fcvtWD _ _ => none
  | .fcvtLD _ _ => none
  | .fcvtDW _ _ => none
  | .fcvtDL _ _ => none
  | .fmvX _ _ => none
  | .fmvF _ _ => none
  | .fcvtBfS _ _ => none
  | .fcvtSBf _ _ => none
  | .fcvtE4S _ _ => none
  | .fcvtSE4 _ _ => none
  | .fcvtE5S _ _ => none
  | .fcvtSE5 _ _ => none
  | .fmadd _ _ _ _ _ => none
  | .fmsub _ _ _ _ _ => none
  | .fnmadd _ _ _ _ _ => none
  | .fnmsub _ _ _ _ _ => none
  | .rdc _ _ => none
  | .wrc _ _ => none
  | .eret => none
  | .wfi => none
  | .endThread => none
  | .resume _ _ => none
  | .amoAdd _ _ _ _ _ => none
  | .amoMin _ _ _ _ _ => none
  | .amoMax _ _ _ _ _ => none
  | .amoSwap _ _ _ _ _ => none
  | .amoCas _ _ _ _ _ _ => none
  | .amoAnd _ _ _ _ _ => none
  | .amoOr _ _ _ _ _ => none
  | .amoXor _ _ _ _ _ => none
  | .amoWimin _ _ _ _ _ => none
  | .amoMinu _ _ _ _ _ => none
  | .amoMaxu _ _ _ _ _ => none
  | .amoFadd _ _ _ _ _ => none
  | .ship _ _ _ _ => none
  | .mprb _ _ _ => none
  | .mins _ _ _ _ => none
  | .mupsAdd _ _ _ _ => none
  | .mupsMin _ _ _ _ => none
  | .mupsMax _ _ _ _ => none
  | .mupsOr _ _ _ _ => none
  | .mupsAnd _ _ _ _ => none
  | .mupsXor _ _ _ _ => none
  | .mupsReplace _ _ _ _ => none
  | .mupsFirst _ _ _ _ => none
  | .mrem _ _ _ => none
  | .mhash _ _ _ => none
  | .miter _ _ _ _ => none
  | .claim _ => none
  | .acq _ => none
  | .acqT _ _ => none
  | .rel _ => none
  | .relall => none
  | .vclaim _ _ _ => none
  | .vreneg _ => none
  | .barDef _ _ => none
  | .barArrive _ => none
  | .barWait _ => none
  | .barSync _ => none
  | .barDrop _ => none
  | .barMax _ _ _ => none
  | .waitc _ _ => none
  | .waitcReg _ _ => none
  | .rdcnt _ _ => none
  | .send _ _ _ => none
  | .recv _ => none
  | .recvT _ => none
  | .enq _ _ _ _ => none
  | .pset _ _ => none
  | .pstep _ _ => none
  | .prd _ _ => none
  | .prdstep _ _ => none
  | .mkset _ _ => none
  | .mkget _ _ => none
  | .mkand _ _ _ => none
  | .mkor _ _ _ => none
  | .mkxor _ _ _ => none
  | .mkandn _ _ _ => none
  | .acmrd _ _ => none
  | .acmrdN _ _ => none
  | .acmwr _ _ => none
  | .grid _ _ _ => none
  | .vaddFp _ _ _ _ _ _ _ => none
  | .vsubFp _ _ _ _ _ _ _ => none
  | .vmulFp _ _ _ _ _ _ _ => none
  | .vfma _ _ _ _ _ _ _ => none
  | .vfms _ _ _ _ _ _ _ => none
  | .vminFp _ _ _ _ _ _ _ => none
  | .vmaxFp _ _ _ _ _ _ _ => none
  | .vabsFp _ _ _ _ _ => none
  | .vneg _ _ _ _ _ => none
  | .vaddInt _ _ _ _ _ _ _ => none
  | .vsubInt _ _ _ _ _ _ _ => none
  | .vmulInt _ _ _ _ _ _ _ => none
  | .vmulh _ _ _ _ _ _ _ => none
  | .vminInt _ _ _ _ _ _ _ => none
  | .vmaxInt _ _ _ _ _ _ _ => none
  | .vminu _ _ _ _ _ _ _ => none
  | .vmaxu _ _ _ _ _ _ _ => none
  | .vadds _ _ _ _ _ _ _ => none
  | .vsubs _ _ _ _ _ _ _ => none
  | .vabsInt _ _ _ _ _ => none
  | .vand _ _ _ _ _ _ _ => none
  | .vor _ _ _ _ _ _ _ => none
  | .vxor _ _ _ _ _ _ _ => none
  | .vandn _ _ _ _ _ _ _ => none
  | .vnot _ _ _ _ _ => none
  | .vsll _ _ _ _ _ _ _ => none
  | .vsrl _ _ _ _ _ _ _ => none
  | .vsra _ _ _ _ _ _ _ => none
  | .vceq _ _ _ _ _ _ _ => none
  | .vclt _ _ _ _ _ _ _ => none
  | .vcle _ _ _ _ _ _ _ => none
  | .vcne _ _ _ _ _ _ _ => none
  | .vsel _ _ _ _ _ _ => none
  | .vcvt _ _ _ _ _ _ => none
  | .vquant _ _ _ _ _ _ => none
  | .vpk3 _ _ _ => none
  | .vupk3 _ _ _ => none
  | .vredsum _ _ _ _ => none
  | .vredmax _ _ _ _ => none
  | .vredmin _ _ _ _ => none
  | .vexp2 _ _ _ _ => none
  | .vlog2 _ _ _ _ => none
  | .vrcp _ _ _ _ => none
  | .vrsqrt _ _ _ _ => none
  | .vtanh _ _ _ _ => none
  | .vmov _ _ _ _ _ => none
  | .vmovScalar _ _ _ _ _ => none
  | .vgath _ _ _ _ _ _ => none
  | .vscat _ _ _ _ _ => none
  | .vtopk _ _ _ _ => none
  | .vfence => none
  | .vdrain => none
  | .arrMkboard _ _ _ _ => some .arr
  | .arrClrboard _ _ => some .arr
  | .arrMmt _ _ _ _ _ _ _ _ _ _ _ => some .arr
  | .arrAcmout _ _ _ _ _ _ _ _ _ _ _ => some .arr
  | .cpyCopy _ _ _ _ _ _ _ _ _ _ => some .cpy
  | .cpyFill _ _ _ _ _ _ _ => some .cpy
  | .cpyPref _ _ _ => some .cpy
  | .cpyTierq _ _ => some .cpy
  | .colDecl _ _ _ _ => some .col
  | .colDeclT _ _ _ _ => some .col
  | .colAllgather _ _ _ _ _ => some .col
  | .colRedscat _ _ _ _ _ _ _ => some .col
  | .colAlltoall _ _ _ _ _ => some .col
  | .colBcast _ _ _ _ _ _ => some .col
  | .colBarrier _ _ => some .col
  | .colMaxbar _ _ _ _ => some .col
  | .agtMapnew _ _ _ _ _ _ _ _ _ _ => some .agt
  | .agtMapdel _ _ => some .agt
  | .agtRtload _ _ _ _ => some .agt
  | .preempt _ => none
  | .clusterFailure _ => none
  | .clusterLost _ => none
  | .spareTestDone _ _ => none
  | .fpEvent _ => none
  | .tabortWrite _ => none
  | .teamEnd _ _ => none
  | .shootGo _ => none
  | .shootdownComplete => none
  | .efaultClear _ => none
  | .spflagWrite _ => none
  | .wrrwWrite _ => none
  | .storeRelease _ => none
  | .storeAccept _ => none
  | .loadServed _ => none
  | .messageArrival _ => none
  | .blockedListRedecide _ => none
  | .zeroingDone _ => none
  | .pageRelocation _ => none
  | .barrierRelease _ _ _ => none
  | .barrierTimeout _ => none
  | .collectiveMatch _ => none
  | .collectivePacketArrival _ => none
  | .boardConversionDone _ _ => none
  | .boardClearDone _ _ => none
  | .rowGrant _ => none
  | .drainBeat _ => none
  | .copyGranuleGrant _ => none
  | .copyGranuleWrite _ => none
  | .tierMigration _ => none
  | .commandComplete _ => none
  | .vectorRetire _ => none
  | .sfuExecute _ => none
  | .topkMerge _ => none
  | .shippedOpPerform _ => none
  | .shippedReply _ => none
  | .mapOpPerform _ => none
  | .splitStep _ _ _ => none
  | .mapdelComplete _ => none
  | .rtloadTableWrite _ => none
  | .stackSelfRefresh _ => none
  | .memoryStall _ => none
  | .stackWake _ => none
  | .pagePrecharge _ => none
  | .bankRebuildStart _ _ _ => none
  | .bankRebuilt _ _ => none
  | .channelFailure _ _ => none
  | .channelRetired _ => none
  | .powerThrottle => none
  | .throttleEnd => none
  | .schedulingDecision => none
  | .threadStart _ _ => none
  | .coreFreed _ => none
  | .gridComplete _ => none
  | .hostDoorbell _ _ => none
  | .hostPacketCheck _ _ => none
  | .hsemTake _ _ => none
  | .hsemRelease _ _ => none
  | .hostLinkDown _ => none
  | .serviceCoreReset _ => none
  | .configRegisterWrite _ _ _ _ => none
  | .bufctlGo _ _ => none
  | .bufferAssignDone => none
  | .cfgrejClear _ _ => none
  | .fabidWrite _ _ => none
  | .pwrcapWrite _ _ => none
  | .spctlWrite _ _ => none
  | .tmstatClear _ _ _ => none
  | .affmissClear _ => none
  | .hostWindowRead _ _ _ => none
  | .hostWindowWrite _ _ _ => none
  | .attest _ => none
  | .keyLoad _ => none
  | .keyClear _ => none
  | .frzPin => none
  | .frzcmdWrite _ => none
  | .freeze => none
  | .idcode => none
  | .fmaddr => none
  | .fmdata => none
  | .bypass => none
  | .reset _ => none
  | .illegalInstruction _ => none
  | .reservedField _ => none
  | .fetchRegion _ => none
  | .peerLinkDown _ => none

/-- The code of a Rannen-port instruction (R394). -/
def encodeTap : Instr → Option (BitVec 8)
  | .idcode => some 0x01
  | .fmaddr => some 0x10
  | .fmdata => some 0x11
  | .bypass => some 0xFF
  | .add _ _ _ => none
  | .sub _ _ _ => none
  | .and _ _ _ => none
  | .or _ _ _ => none
  | .xor _ _ _ => none
  | .sll _ _ _ => none
  | .srl _ _ _ => none
  | .sra _ _ _ => none
  | .slt _ _ _ => none
  | .sltu _ _ _ => none
  | .min _ _ _ => none
  | .max _ _ _ => none
  | .minu _ _ _ => none
  | .maxu _ _ _ => none
  | .ror _ _ _ => none
  | .clz _ _ => none
  | .ctz _ _ => none
  | .popc _ _ => none
  | .addi _ _ _ => none
  | .andi _ _ _ => none
  | .ori _ _ _ => none
  | .xori _ _ _ => none
  | .slti _ _ _ => none
  | .sltiu _ _ _ => none
  | .slli _ _ _ => none
  | .srli _ _ _ => none
  | .srai _ _ _ => none
  | .rori _ _ _ => none
  | .lui _ _ => none
  | .addpc _ _ => none
  | .mul _ _ _ => none
  | .mulh _ _ _ => none
  | .mulhu _ _ _ => none
  | .mulhsu _ _ _ => none
  | .div _ _ _ => none
  | .divu _ _ _ => none
  | .rem _ _ _ => none
  | .remu _ _ _ => none
  | .ldb _ _ _ => none
  | .ldbu _ _ _ => none
  | .ldh _ _ _ => none
  | .ldhu _ _ _ => none
  | .ldw _ _ _ => none
  | .ldwu _ _ _ => none
  | .ld _ _ _ => none
  | .stb _ _ _ => none
  | .sth _ _ _ => none
  | .stw _ _ _ => none
  | .st _ _ _ => none
  | .fldw _ _ _ => none
  | .fldd _ _ _ => none
  | .fstw _ _ _ => none
  | .fstd _ _ _ => none
  | .savemG _ _ _ => none
  | .loadmG _ _ _ => none
  | .savemF _ _ _ => none
  | .loadmF _ _ _ => none
  | .fenceCore => none
  | .fenceTeam => none
  | .fenceCluster => none
  | .fenceDie => none
  | .fencePackage => none
  | .fenceFabric => none
  | .fenceSystem => none
  | .beq _ _ _ => none
  | .bne _ _ _ => none
  | .blt _ _ _ => none
  | .bge _ _ _ => none
  | .bltu _ _ _ => none
  | .bgeu _ _ _ => none
  | .jal _ _ => none
  | .jalr _ _ _ => none
  | .fadd _ _ _ _ => none
  | .fsub _ _ _ _ => none
  | .fmul _ _ _ _ => none
  | .fdiv _ _ _ _ => none
  | .fsqrt _ _ _ => none
  | .fmin _ _ _ _ => none
  | .fmax _ _ _ _ => none
  | .fsgnj _ _ _ _ => none
  | .fsgnjn _ _ _ _ => none
  | .fsgnjx _ _ _ _ => none
  | .feq _ _ _ _ => none
  | .flt _ _ _ _ => none
  | .fle _ _ _ _ => none
  | .fclass _ _ _ => none
  | .fcvtSD _ _ => none
  | .fcvtDS _ _ => none
  | .fcvtWS _ _ => none
  | .fcvtLS _ _ => none
  | .fcvtSW _ _ => none
  | .fcvtSL _ _ => none
  | .fcvtWD _ _ => none
  | .fcvtLD _ _ => none
  | .fcvtDW _ _ => none
  | .fcvtDL _ _ => none
  | .fmvX _ _ => none
  | .fmvF _ _ => none
  | .fcvtBfS _ _ => none
  | .fcvtSBf _ _ => none
  | .fcvtE4S _ _ => none
  | .fcvtSE4 _ _ => none
  | .fcvtE5S _ _ => none
  | .fcvtSE5 _ _ => none
  | .fmadd _ _ _ _ _ => none
  | .fmsub _ _ _ _ _ => none
  | .fnmadd _ _ _ _ _ => none
  | .fnmsub _ _ _ _ _ => none
  | .rdc _ _ => none
  | .wrc _ _ => none
  | .eret => none
  | .wfi => none
  | .endThread => none
  | .resume _ _ => none
  | .amoAdd _ _ _ _ _ => none
  | .amoMin _ _ _ _ _ => none
  | .amoMax _ _ _ _ _ => none
  | .amoSwap _ _ _ _ _ => none
  | .amoCas _ _ _ _ _ _ => none
  | .amoAnd _ _ _ _ _ => none
  | .amoOr _ _ _ _ _ => none
  | .amoXor _ _ _ _ _ => none
  | .amoWimin _ _ _ _ _ => none
  | .amoMinu _ _ _ _ _ => none
  | .amoMaxu _ _ _ _ _ => none
  | .amoFadd _ _ _ _ _ => none
  | .ship _ _ _ _ => none
  | .mprb _ _ _ => none
  | .mins _ _ _ _ => none
  | .mupsAdd _ _ _ _ => none
  | .mupsMin _ _ _ _ => none
  | .mupsMax _ _ _ _ => none
  | .mupsOr _ _ _ _ => none
  | .mupsAnd _ _ _ _ => none
  | .mupsXor _ _ _ _ => none
  | .mupsReplace _ _ _ _ => none
  | .mupsFirst _ _ _ _ => none
  | .mrem _ _ _ => none
  | .mhash _ _ _ => none
  | .miter _ _ _ _ => none
  | .claim _ => none
  | .acq _ => none
  | .acqT _ _ => none
  | .rel _ => none
  | .relall => none
  | .vclaim _ _ _ => none
  | .vreneg _ => none
  | .barDef _ _ => none
  | .barArrive _ => none
  | .barWait _ => none
  | .barSync _ => none
  | .barDrop _ => none
  | .barMax _ _ _ => none
  | .waitc _ _ => none
  | .waitcReg _ _ => none
  | .rdcnt _ _ => none
  | .send _ _ _ => none
  | .recv _ => none
  | .recvT _ => none
  | .enq _ _ _ _ => none
  | .pset _ _ => none
  | .pstep _ _ => none
  | .prd _ _ => none
  | .prdstep _ _ => none
  | .mkset _ _ => none
  | .mkget _ _ => none
  | .mkand _ _ _ => none
  | .mkor _ _ _ => none
  | .mkxor _ _ _ => none
  | .mkandn _ _ _ => none
  | .acmrd _ _ => none
  | .acmrdN _ _ => none
  | .acmwr _ _ => none
  | .grid _ _ _ => none
  | .vaddFp _ _ _ _ _ _ _ => none
  | .vsubFp _ _ _ _ _ _ _ => none
  | .vmulFp _ _ _ _ _ _ _ => none
  | .vfma _ _ _ _ _ _ _ => none
  | .vfms _ _ _ _ _ _ _ => none
  | .vminFp _ _ _ _ _ _ _ => none
  | .vmaxFp _ _ _ _ _ _ _ => none
  | .vabsFp _ _ _ _ _ => none
  | .vneg _ _ _ _ _ => none
  | .vaddInt _ _ _ _ _ _ _ => none
  | .vsubInt _ _ _ _ _ _ _ => none
  | .vmulInt _ _ _ _ _ _ _ => none
  | .vmulh _ _ _ _ _ _ _ => none
  | .vminInt _ _ _ _ _ _ _ => none
  | .vmaxInt _ _ _ _ _ _ _ => none
  | .vminu _ _ _ _ _ _ _ => none
  | .vmaxu _ _ _ _ _ _ _ => none
  | .vadds _ _ _ _ _ _ _ => none
  | .vsubs _ _ _ _ _ _ _ => none
  | .vabsInt _ _ _ _ _ => none
  | .vand _ _ _ _ _ _ _ => none
  | .vor _ _ _ _ _ _ _ => none
  | .vxor _ _ _ _ _ _ _ => none
  | .vandn _ _ _ _ _ _ _ => none
  | .vnot _ _ _ _ _ => none
  | .vsll _ _ _ _ _ _ _ => none
  | .vsrl _ _ _ _ _ _ _ => none
  | .vsra _ _ _ _ _ _ _ => none
  | .vceq _ _ _ _ _ _ _ => none
  | .vclt _ _ _ _ _ _ _ => none
  | .vcle _ _ _ _ _ _ _ => none
  | .vcne _ _ _ _ _ _ _ => none
  | .vsel _ _ _ _ _ _ => none
  | .vcvt _ _ _ _ _ _ => none
  | .vquant _ _ _ _ _ _ => none
  | .vpk3 _ _ _ => none
  | .vupk3 _ _ _ => none
  | .vredsum _ _ _ _ => none
  | .vredmax _ _ _ _ => none
  | .vredmin _ _ _ _ => none
  | .vexp2 _ _ _ _ => none
  | .vlog2 _ _ _ _ => none
  | .vrcp _ _ _ _ => none
  | .vrsqrt _ _ _ _ => none
  | .vtanh _ _ _ _ => none
  | .vmov _ _ _ _ _ => none
  | .vmovScalar _ _ _ _ _ => none
  | .vgath _ _ _ _ _ _ => none
  | .vscat _ _ _ _ _ => none
  | .vtopk _ _ _ _ => none
  | .vfence => none
  | .vdrain => none
  | .arrMkboard _ _ _ _ => none
  | .arrClrboard _ _ => none
  | .arrMmt _ _ _ _ _ _ _ _ _ _ _ => none
  | .arrAcmout _ _ _ _ _ _ _ _ _ _ _ => none
  | .cpyCopy _ _ _ _ _ _ _ _ _ _ => none
  | .cpyFill _ _ _ _ _ _ _ => none
  | .cpyPref _ _ _ => none
  | .cpyTierq _ _ => none
  | .colDecl _ _ _ _ => none
  | .colDeclT _ _ _ _ => none
  | .colAllgather _ _ _ _ _ => none
  | .colRedscat _ _ _ _ _ _ _ => none
  | .colAlltoall _ _ _ _ _ => none
  | .colBcast _ _ _ _ _ _ => none
  | .colBarrier _ _ => none
  | .colMaxbar _ _ _ _ => none
  | .agtMapnew _ _ _ _ _ _ _ _ _ _ => none
  | .agtMapdel _ _ => none
  | .agtRtload _ _ _ _ => none
  | .preempt _ => none
  | .clusterFailure _ => none
  | .clusterLost _ => none
  | .spareTestDone _ _ => none
  | .fpEvent _ => none
  | .tabortWrite _ => none
  | .teamEnd _ _ => none
  | .shootGo _ => none
  | .shootdownComplete => none
  | .efaultClear _ => none
  | .spflagWrite _ => none
  | .wrrwWrite _ => none
  | .storeRelease _ => none
  | .storeAccept _ => none
  | .loadServed _ => none
  | .messageArrival _ => none
  | .blockedListRedecide _ => none
  | .zeroingDone _ => none
  | .pageRelocation _ => none
  | .barrierRelease _ _ _ => none
  | .barrierTimeout _ => none
  | .collectiveMatch _ => none
  | .collectivePacketArrival _ => none
  | .boardConversionDone _ _ => none
  | .boardClearDone _ _ => none
  | .rowGrant _ => none
  | .drainBeat _ => none
  | .copyGranuleGrant _ => none
  | .copyGranuleWrite _ => none
  | .tierMigration _ => none
  | .commandComplete _ => none
  | .vectorRetire _ => none
  | .sfuExecute _ => none
  | .topkMerge _ => none
  | .shippedOpPerform _ => none
  | .shippedReply _ => none
  | .mapOpPerform _ => none
  | .splitStep _ _ _ => none
  | .mapdelComplete _ => none
  | .rtloadTableWrite _ => none
  | .stackSelfRefresh _ => none
  | .memoryStall _ => none
  | .stackWake _ => none
  | .pagePrecharge _ => none
  | .bankRebuildStart _ _ _ => none
  | .bankRebuilt _ _ => none
  | .channelFailure _ _ => none
  | .channelRetired _ => none
  | .powerThrottle => none
  | .throttleEnd => none
  | .schedulingDecision => none
  | .threadStart _ _ => none
  | .coreFreed _ => none
  | .gridComplete _ => none
  | .hostDoorbell _ _ => none
  | .hostPacketCheck _ _ => none
  | .hsemTake _ _ => none
  | .hsemRelease _ _ => none
  | .hostLinkDown _ => none
  | .serviceCoreReset _ => none
  | .configRegisterWrite _ _ _ _ => none
  | .bufctlGo _ _ => none
  | .bufferAssignDone => none
  | .cfgrejClear _ _ => none
  | .fabidWrite _ _ => none
  | .pwrcapWrite _ _ => none
  | .spctlWrite _ _ => none
  | .tmstatClear _ _ _ => none
  | .affmissClear _ => none
  | .hostWindowRead _ _ _ => none
  | .hostWindowWrite _ _ _ => none
  | .attest _ => none
  | .keyLoad _ => none
  | .keyClear _ => none
  | .frzPin => none
  | .frzcmdWrite _ => none
  | .freeze => none
  | .reset _ => none
  | .illegalInstruction _ => none
  | .reservedField _ => none
  | .fetchRegion _ => none
  | .peerLinkDown _ => none

/-- The `n` bytes of a number, the lowest first (R3). -/
def leBytes : Nat → Nat → List Byte
  | 0, _ => []
  | n + 1, w => .ofNat 8 w :: leBytes n (w / 256)

/-- The number that a list of bytes holds, the lowest first (R3). -/
def leNat : List Byte → Nat
  | [] => 0
  | b :: bs => b.toNat + 256 * leNat bs

/-- A command word as its 32 bytes (R87). -/
def CmdWord.bytes (c : CmdWord) : List Byte :=
  leBytes 4 c.w0.toNat ++ leBytes 4 c.w1.toNat ++ leBytes 4 c.w2.toNat ++ leBytes 4 c.w3.toNat ++
  leBytes 4 c.w4.toNat ++ leBytes 4 c.w5.toNat ++ leBytes 4 c.w6.toNat ++ leBytes 4 c.w7.toNat

/-- The command word in 32 bytes (R87). -/
def CmdWord.ofBytes (bs : List Byte) : CmdWord :=
  let w := fun k => BitVec.ofNat 32 (leNat ((bs.drop (4 * k)).take 4))
  ⟨w 0, w 1, w 2, w 3, w 4, w 5, w 6, w 7⟩

/-- The bytes of an instruction as the hardware stores or shifts them: 4, 32 or 1; an event has none. -/
def encode (i : Instr) : List Byte :=
  match encodeNat i with
  | some w => leBytes 4 w
  | none =>
    match encodeCommand i with
    | some c => c.bytes
    | none => (encodeTap i).toList

/-- The instruction that the decoder reads from the bits `w` of a row of `nbits` bits: 32 for an instruction word, 256
for a command word, whose CHK names its engine, and 8 for a code of the Rannen port. -/
def decodeTableWord (nbits w : Nat) : Option Instr :=
  if nbits = 8 then some (decodeTap (.ofNat 8 w))
  else if nbits = 256 then (decodeCommand (engineOf (fld w 8 4)) (.ofBytes (leBytes 32 w))).toOption
  else (decodeNat (w % 2 ^ 32)).toOption

/-! What the assembler emits for a pseudo-instruction, in order (R94, R208), and the halves of an expression (R92). -/

/-- `nop` (R94). -/
def pseudoNop : List Instr := [.addi 0 0 0]

/-- `mov gd, ga` (R94). -/
def pseudoMov (d a : BitVec 5) : List Instr := [.or d a 0]

/-- `not gd, ga`: two words (R94). -/
def pseudoNot (d a : BitVec 5) : List Instr := [.sub d 0 a, .addi d d 0xFFFF]

/-- `j` to a target `disp` words away (R94). -/
def pseudoJ (disp : BitVec 21) : List Instr := [.jal 0 disp]

/-- `neg gd, ga` (R94). -/
def pseudoNeg (d a : BitVec 5) : List Instr := [.sub d 0 a]

/-- `bar.sync ga`: fn 3, then bar.wait on the same register (R208). -/
def pseudoBarSync (a : BitVec 5) : List Instr := [.barSync a, .barWait a]

/-- lo(e) (R92). -/
def loOf (e : Word) : Word := (e.setWidth 16).signExtend 64

/-- hi(e) (R92). -/
def hiOf (e : Word) : Word := (e - loOf e).sshiftRight 16

end Sys2Proof
end

