-- ==== Sys2Proof/Config.lean ====
section
/-! DEFINITION. What the spec fixes for the machine, and what it leaves open: the free values have no body. -/

namespace Sys2Proof.Config

/-- FREE VALUE. The cycles from the step before to step number `n`, 0 where both fall in one cycle
(notes/assumptions/2). -/
opaque elapsed : Nat → Nat

/-- FREE VALUE. An undefined byte (R6): `undefByte tick i` is byte `i` of those that step `tick` makes
(notes/assumptions/12). -/
opaque undefByte : Nat → Nat → Byte

/-- FREE VALUE. Whether a throttled array withholds its next row at step `n` (R392, notes/assumptions/2). -/
opaque withhold : Nat → Bool

/-- FREE VALUE. Byte `i` of the runtime's pre-emption handler (R317, notes/assumptions/9). -/
opaque handlerByte : Nat → Byte

/-- FREE VALUE. Whether a signature of a routine image holds under Otelm's firmware key (R332, notes/assumptions/10). -/
opaque signatureHolds : (message signature : List Byte) → Bool

/-- FREE VALUE. Byte `i` of the device's ML-DSA-44 signature of a message (R389, notes/assumptions/10). -/
opaque identitySignByte : List Byte → Nat → Byte

/-- FREE VALUE. Byte `i` of the device's ML-KEM-768 encapsulation key (R389, notes/assumptions/10). -/
opaque encapsulationKeyByte : Nat → Byte

/-- FREE VALUE. Byte `i` of the SHA3-256 of the running firmware image (R389, notes/assumptions/10). -/
opaque firmwareHashByte : Nat → Byte

/-- FREE VALUE. Whether decapsulating a ciphertext and unwrapping a key set succeed (R388, notes/assumptions/10). -/
opaque keyLoads : (ciphertext wrapped : List Byte) → Bool

/-- FREE VALUE. The name of the key set that a ciphertext and a wrapped key set give: equal names for equal key sets
(R387, R388, notes/assumptions/10). -/
opaque keySet : (ciphertext wrapped : List Byte) → Nat

/-- FREE VALUE. Whether a tenant's access at step `tick` to a line that the hardware wrote for itself fails its MAC
(R387, notes/assumptions/11). -/
opaque rawFails : (tick line : Nat) → Bool

/-- FREE VALUE. Whether a map operation or split step of step `tick` meets a line of a kind that some lines of its segment
are of: 0 in error, 1 under another seal (R342, notes/assumptions/71). -/
opaque mapMeets : (tick kind : Nat) → Bool

/-- FREE VALUE. Accesses of a map operation or split step of step `tick` that go through a buddy controller (R342, R390,
notes/assumptions/71). -/
opaque mapBuddies : (tick : Nat) → Word

/-- FREE VALUE. Requests that the queues of a stack take while it sleeps (R334, notes/assumptions/67). -/
opaque stackRoom : Nat

/-- FREE VALUE. The word of a BANK_REBUILT message for a cluster, group and bank (R105, notes/assumptions/38). -/
opaque bankWord : (cluster group bank : Nat) → Word

/-- FREE VALUE. The word of a CHANNEL_RETIRED message for a stack and channel, but for bit 8 (R105, R390,
notes/assumptions/38). -/
opaque channelWord : (stack channel : Nat) → Word

/-- FREE VALUE. A word of the state map that the spec does not lay out, read at step `tick` (R394,
notes/assumptions/39). -/
opaque mapWord : Nat → Word

/-- Cores of a cluster (R10). -/
def coresPerCluster : Nat := 8

/-- Physical clusters of a die (R7). -/
def clustersPerDie : Nat := 34

/-- Active clusters of a die (R7). -/
def activePerDie : Nat := 32

/-- First byte of a core's TCM in the window map (R43). -/
def tcmBase : Nat := 0x80000

/-- Bytes of TCM per core (R43). -/
def tcmBytes : Nat := 0x30000

/-- First byte of the scratchpad window (R43). -/
def spmBase : Nat := 0x400000

/-- Bytes of the scratchpad window (R43). -/
def spmBytes : Nat := 0x200000

/-- Bytes of a cluster's accumulator memory (R10). -/
def accBytes : Nat := 0x100000

/-- First byte of translated space (R43). -/
def translatedBase : Nat := 0x100000000

/-- First byte above translated space (R43). -/
def translatedEnd : Nat := 0x1000000000000

/-- Bytes of a save slot (R370). -/
def slotBytes : Nat := 8388608

/-- TCM offset of the pre-emption handler's window (R317). -/
def handlerOffset : Nat := 0x400

/-- Cycles of one turn of aging (R366). -/
def agingTurn : Nat := 16777216

/-- Cycles of self-refresh before the first MEMORY_STALL (R334). -/
def stallReportCycles : Nat := 3600000

/-- Cycles of a spare cluster's test (R390). -/
def spareTestCycles : Nat := 7200000

end Sys2Proof.Config
end

