-- ==== Sys2Proof/Machine/State.lean ====
section
/-! DEFINITION. The machine's whole state as plain data, and the machine right after reset. -/

namespace Sys2Proof.Machine

/-- Why a step stops the model. -/
inductive Fault where
  /-- Raised by `step` for an agenda entry that names an instruction of a core as an event. Safe: no such entry stands
  for anything the machine does. -/
  | notAnEvent
  deriving DecidableEq, Repr

/-- Why an instruction has no meaning. -/
inductive Refusal where
  /-- Raised by an arm of `exec` that is not modelled yet, with the row's mnemonic. Safe. -/
  | notModelled (mnemonic : String)
  deriving DecidableEq, Repr

/-- Bytes by address: addresses strictly rising, no entry zero, which is what an unlisted address reads as
(notes/assumptions/4). -/
abbrev Mem := List Host.Cell

/-! ## Sequencer core -/

/-- KSTATE (R103). -/
structure KState where
  park : Bool
  ie : Bool
  ppriv : Priv
  pie : Bool
  intrap : Bool
  priv : Priv
  deriving DecidableEq, Repr

/-- TRAPC (R104). -/
structure TrapCause where
  hwfatal : Bool
  async : Bool
  cause : BitVec 8
  deriving DecidableEq, Repr

/-- SHOOT (R124). -/
structure ShootReg where
  tasid : BitVec 12
  vpn : BitVec 32
  level : BitVec 2
  busy : Bool
  deriving DecidableEq, Repr

/-- The control registers that hold a value of their own (R102). CLID and CORENO follow from the core's place, CYCLE
from `placedAt`, and TABORT is write only. -/
structure Csr where
  kstate : KState
  trapc : TrapCause
  trappc : Word
  trapaux : Word
  trapv : Word
  trapsave : Word
  frame : Word
  teamid : BitVec 16
  tcore : BitVec 3
  tsize : BitVec 4
  gridid : BitVec 32
  asid : BitVec 12
  fflags : BitVec 5
  fenable : BitVec 5
  fround : BitVec 3
  parkinf : BitVec 16
  spflag : BitVec 2
  spaddr : BitVec 22
  mprog : BitVec 6
  pmprog : BitVec 6
  vlen : BitVec 7
  efault : BitVec 16
  engfc : BitVec 16
  engfa : Word
  bto : BitVec 32
  wrrw : BitVec 4
  placedAt : Nat
  instret : Word
  ptbase : Word
  shoot : ShootReg
  /-- FFLAGS and EFAULT bits that the hardware set in cycle `setAt`, which a WRC of that cycle leaves set (R36, R149). -/
  setAt : Nat
  setFlags : BitVec 5
  setFaults : BitVec 16
  deriving DecidableEq, Repr

/-- The five register files (R98). -/
structure Regs where
  g : Vector Word 32
  f : Vector Word 32
  p : Vector Word 16
  m : Vector Word 8
  c : Vector (BitVec 8) 16
  deriving DecidableEq, Repr

/-- What an address of a store-buffer entry is (R394). -/
inductive StoreKind where
  | tcm
  | spm
  | phys
  deriving DecidableEq, Repr

/-- One store, or one amo or ship without reply, of the store buffer (R135, R327, R394). `sent` holds for one without
reply that a gateway has queued and whose home has not taken it yet. `va`, `asid`, `epoch` and `buf` are what its
translation gave. -/
structure StoreEntry where
  released : Bool
  sent : Bool
  kind : StoreKind
  size : BitVec 2
  addr : Nat
  data : Word
  amo : Option (BitVec 5)
  cmp : Word
  va : Word
  asid : BitVec 12
  epoch : BitVec 16
  buf : BitVec 12
  deriving DecidableEq, Repr

/-- A word of a core's inbox, in flight or arrived (R153). -/
structure InboxWord where
  arrived : Bool
  word : Word
  deriving DecidableEq, Repr

/-- The register a load writes, with the form of the value. -/
inductive LoadDst where
  | g (d : BitVec 5) (signed : Bool)
  | f (d : BitVec 5)
  | rangeG (d : BitVec 5) (n k : Nat)
  | rangeF (d : BitVec 5) (n k : Nat)
  deriving DecidableEq, Repr

/-- What a line of T1 or T2 was last sealed under, or an access comes under (R386, R387, notes/assumptions/11). `keys`
names a key set, none where the tenant has no keys loaded. -/
structure Seal where
  owner : BitVec 12
  keys : Option Nat
  buf : BitVec 12
  version : BitVec 32
  deriving DecidableEq, Repr

/-- A load that waits for its home, accepted at step `stamp` (R126, R136, R386). -/
structure PendLoad where
  dst : LoadDst
  size : BitVec 2
  pa : Nat
  va : Word
  asid : BitVec 12
  epoch : BitVec 16
  under : Seal
  stamp : Nat
  deriving DecidableEq, Repr

/-- What a core's issued instruction waits for before it retires. -/
inductive Wait where
  /-- Nothing: the core issues. -/
  | ready
  /-- A load's home (R126). -/
  | load (ld : PendLoad)
  /-- The reply of a shipped or map operation (R58). -/
  | reply
  /-- The reply of the command numbered `seq`, into g[d] (R162). -/
  | enqReply (seq : Nat) (d : BitVec 5)
  /-- The grant of a request in the blocked list (R178). -/
  | acquire
  /-- The special-function unit or the top-k unit (R235, R239). -/
  | unit
  /-- An issued instruction that no trap abandons runs on: a bar.sync not yet counted (R111), a vfence (R258). -/
  | sync
  /-- An issued wfi waits for an event, a pending trap among them (R151). -/
  | event
  /-- A grid waits for its fence, and so for its reply (R112 step 1, R365). -/
  | grid
  /-- The write beats of a special-function instruction, which no trap withdraws any more (R236). -/
  | retiring
  deriving DecidableEq, Repr

/-- A write of the bits of one lane word that `mask` enables (R226, R248). -/
structure LaneWrite where
  space : Space
  off : Nat
  mask : BitVec 32
  data : BitVec 32
  deriving DecidableEq, Repr

/-- An issued vector instruction that has not retired: what it writes then (R230, R234). `raises` holds for the majors
that can raise a flag (R234); `before` counts the older entries still in the store buffer (R57); `unit` marks an
instruction of the special-function or top-k unit, for which its core waits, and `list` the second, whose beats are
granules of a list (R235, R239). `writes` are those still to be written, `landed` those written ahead of retirement
(R57). -/
structure PendVec where
  writes : List LaneWrite
  landed : List LaneWrite
  steps : List (BitVec 4)
  flags : BitVec 5
  freg : Option (BitVec 5 × BitVec 32)
  mreg : Option (BitVec 3 × Word)
  pc : Word
  raises : Bool
  before : Nat
  unit : Bool
  list : Bool
  deriving DecidableEq, Repr

/-- What a core is to the launch unit (R152, R371, R374). -/
inductive RunState where
  | idle
  | starting
  | running
  | ended
  | handed
  deriving DecidableEq, Repr

/-- A core's wait at a barrier: the id, the cycle it began in, and the f register that bar.max writes (R210, R212). -/
structure BarWait where
  id : BitVec 8
  start : Nat
  dst : Option (BitVec 5)
  deriving DecidableEq, Repr

/-- A cached translation of one 64 KiB page: what its leaf gives (R122). -/
structure TlbEntry where
  asid : BitVec 12
  vpage : Nat
  ppage : Nat
  space : BitVec 2
  map : Bool
  write : Bool
  read : Bool
  buf : BitVec 12
  deriving DecidableEq, Repr

/-- One sequencer core. `sync` is the id at which a bar.sync arrived whose wait word has not been taken, and whether
that arrival has been released; `reneg` marks a renegotiation due once the core's vector instructions have retired
(R188). -/
structure Core where
  regs : Regs
  csr : Csr
  pc : Word
  tcm : Mem
  itcm : Mem
  stores : List StoreEntry
  inbox : List InboxWord
  wake : Bool
  run : RunState
  wait : Wait
  preempt : Option (BitVec 2)
  lost : Option Word
  parkDue : Option (BitVec 5 × Nat)
  parkAside : Bool
  /-- Messages of parks that wait for a slot, oldest first (R147). -/
  heldEvent : List Word
  /-- The cycle of the last RESUME decided for this core, and the rank of who sent it (R148). -/
  resumedBy : Option (Nat × Nat)
  vq : List PendVec
  minLots : Nat
  maxLots : Nat
  credit : Nat
  barWait : Option BarWait
  sync : Option (BitVec 8 × Bool)
  reneg : Bool
  relSeq : Option Nat
  slot : Option Slot
  /-- The core's micro-TLB, latest first (R122). -/
  utlb : List TlbEntry
  deriving DecidableEq, Repr

/-! ## Engine commands -/

/-- Where a command waits (R284). -/
inductive CmdPlace where
  | queue
  | hold
  | gone
  deriving DecidableEq, Repr

/-- How far a command is: `held` on a board, `stopped` when restored from a save area with state 2, `finished` when
all it does is done and only release, reply and decrement remain. -/
inductive CmdPhase where
  | queued
  | held
  | stopped
  | running
  | finished
  deriving DecidableEq, Repr

/-- An engine command from its ENQ to its decrement. -/
structure Cmd where
  seq : Nat
  core : CoreId
  engine : Engine
  counter : BitVec 4
  reply : Option (BitVec 5)
  word : CmdWord
  place : CmdPlace
  phase : CmdPhase
  /-- First row not granted, or pages examined. -/
  row : Nat
  /-- Destination bytes of `row` granted. -/
  byte : Nat
  /-- Board-slot mask with which it started (R278). -/
  boards : BitVec 8
  /-- Width of its boards when it started (R264). -/
  width : Nat
  /-- Activation scales read at the start: board position, row, half. -/
  ascales : List (BitVec 32)
  /-- Weight scales read at the start: by board position, those that its width uses. -/
  wscales : List (BitVec 32)
  /-- Granules of the next activation row, or output codes, read ahead of their use (R271, R293). -/
  fetched : List Nat
  /-- Outlying results, pages staged, or tiles that a collective awaits. -/
  count : Nat
  skipped : Nat
  unstaged : Nat
  /-- Position in the turn, whether matched, whether under masks that differ (R198), and whether its packets are sent. -/
  pos : Nat
  turn : BitVec 4
  matched : Bool
  mixed : Bool
  sent : Bool
  /-- Received tiles of a reduction: rank, offset, bytes; or a routine image. `written` counts tiles received. -/
  got : List (Nat × Nat × List Byte)
  written : Nat
  fault : Option (BitVec 8 × Word)
  result : Word
  deriving DecidableEq, Repr

/-! ## Cluster -/

/-- Counts of the four classes of the Claim Unit, as in a claim vector (R168, R173). -/
structure Counts where
  lane : Nat
  page : Nat
  board : Nat
  acc : Nat
  deriving DecidableEq, Repr

/-- A bound barrier id of a team (R207). An id with no entry is unbound. `maxDue` marks cores whose bar.max has arrived
and not yet taken its result (R212). -/
structure Barrier where
  id : BitVec 8
  group : Option (BitVec 8)
  parts : BitVec 8
  dropped : BitVec 8
  arrived : BitVec 8
  maxDue : BitVec 8
  phase : Nat
  contrib : Option (BitVec 32)
  relMax : BitVec 32
  /-- The cycle in which a wait at the id last timed out (R210). -/
  expired : Option Nat
  deriving DecidableEq, Repr

/-- Where a resident team stands. -/
inductive TeamStatus where
  | starting
  | running
  | preempting
  | preempted
  | evicted
  /-- An evicted team re-acquires its units (R191). -/
  | reacquiring
  /-- Boards convert again, and the frames are restored next (R191, R375). -/
  | resuming
  | fatal
  deriving DecidableEq, Repr

/-- What a freed core of a pre-empted team keeps: its lanes (R189, R190), and its thread's INSTRET (R102). -/
structure LaneRecord where
  tcore : Nat
  min : Nat
  max : Nat
  lots : Nat
  instret : Word
  deriving DecidableEq, Repr

/-- A resident team of a cluster. `cores` lists CORENO by TCORE; the maps list (team index, physical index) (R171);
`lanes` holds the lanes of cores freed by a pre-emption (R189), `boards` the slot, width and table of each board while
the team is evicted (R191), `ended` the TCOREs whose thread had ended before its core was freed, `saved` the
commands withdrawn from freed cores (R205, R279, R315, R318). -/
structure Team where
  grid : BitVec 32
  teamid : BitVec 16
  asid : BitVec 12
  /-- PTBASE as the placement loaded it (R371, R385). -/
  ptbase : Word
  prio : BitVec 2
  evict : Bool
  excl : Bool
  cores : List Slot
  pages : List (Nat × Nat)
  blocks : List (Nat × Nat)
  claim : Option Counts
  lanes : List LaneRecord
  ended : BitVec 8
  boards : List (Nat × Nat × Nat)
  saved : List Cmd
  bars : List Barrier
  status : TeamStatus
  saveSlot : Nat
  placedAt : Nat
  preemptedAt : Nat
  fatal : Option (BitVec 8 × Word)
  deriving DecidableEq, Repr

/-- The four states of a bank group (R260). -/
inductive BoardMode where
  | data
  | converting
  | board
  | clearing
  deriving DecidableEq, Repr

/-- A bank group: who holds it under a token, its state, what a conversion recorded, and the command at work on it.
`rebuilding` lists the failed banks that the spare is to replace, oldest first (R390). -/
structure Group where
  holder : Option (Slot × BitVec 3)
  mode : BoardMode
  width : Nat
  wscale : Nat
  cmd : Option Nat
  spare : Option Slot
  rebuilding : List Slot
  deriving DecidableEq, Repr

/-- A released page or block that is being zeroed (R172). -/
inductive ZeroUnit where
  | page (p : Nat)
  | block (b : Nat)
  deriving DecidableEq, Repr

/-- What a blocked request asks for (R178, R187). -/
inductive RequestKind where
  | units (word : Word)
  | lanes (d : BitVec 5) (lo hi : Nat)
  | launch (word : Word)
  /-- Lanes that the launch unit takes back for an evicted team's core (R191). -/
  | relane (lots : Nat)
  deriving DecidableEq, Repr

/-- An entry of the blocked list. -/
structure Blocked where
  core : Slot
  team : Slot
  req : Counts
  kind : RequestKind
  deriving DecidableEq, Repr

/-- An entry of the special-function queue (R235). -/
structure SfuEntry where
  core : Slot
  vec : PendVec
  deriving DecidableEq, Repr

/-- An entry of the top-k queue (R238): where the list is and the pairs to merge. -/
structure TopkEntry where
  core : Slot
  space : Space
  list : Nat
  pairs : List (BitVec 32 × BitVec 32)
  vec : PendVec
  deriving DecidableEq, Repr

/-- The value of a partial sum (R265, R267): NaN, an infinity, or `m` times 2 to the `e`. -/
inductive PartialSum where
  | nan
  | inf (neg : Bool)
  | fin (m e : Int)
  deriving DecidableEq, Repr

/-- One drain: the accumulator of the granule, the partial sum, its scale, and whether the accumulator counts as -0. -/
structure Drain where
  lane : Slot
  sum : PartialSum
  scale : BitVec 32
  first : Bool
  deriving DecidableEq, Repr

/-- One drain write beat: a granule of eight accumulators of a row of the command `seq` (R270); `lead` marks the first
beat of its row. -/
structure DrainBeat where
  seq : Nat
  lead : Bool
  off : Nat
  drains : List Drain
  deriving DecidableEq, Repr

/-- What a collective's match packets must agree on (R198). -/
structure CollParams where
  opc : Nat
  bytes : Nat
  op : Nat
  fmt : Nat
  root : Nat
  n : Nat
  deriving DecidableEq, Repr

/-- A match packet that reached a port: the position, the sender's rank and what it carries. -/
structure MatchRecord where
  pos : Nat
  rank : Nat
  params : CollParams
  deriving DecidableEq, Repr

/-- A turn that was aborted before a member declared it (R196): the group, the turn, and that member's logical cluster
id. -/
structure AbortedTurn where
  asid : BitVec 12
  gnum : BitVec 8
  turn : BitVec 4
  member : Nat
  deriving DecidableEq, Repr

/-- A member of a group whose team ended after all its participants had dropped from a barrier id (R152, R220): the group,
the member's logical cluster id, and the barrier id. -/
structure LeftMember where
  asid : BitVec 12
  gnum : BitVec 8
  member : Nat
  id : BitVec 8
  deriving DecidableEq, Repr

/-- One use of a group number by a tenant, for which the members that have left are remembered (R220,
notes/assumptions/64): the members on this package that its declarations name, and those that have declared it. -/
structure GroupUse where
  asid : BitVec 12
  gnum : BitVec 8
  mem : BitVec 128
  seen : BitVec 128
  deriving DecidableEq, Repr

/-- An entry of a collective port's group table (R192). -/
structure CollEntry where
  team : Slot
  asid : BitVec 12
  gnum : BitVec 8
  mem : BitVec 128
  fab : BitVec 32
  turn : BitVec 4
  pos : Nat
  discards : Nat
  records : List MatchRecord
  /-- The turn is aborted (R196). -/
  aborted : Bool
  deriving DecidableEq, Repr

/-- The load of a packet: a match, or the bytes that rank `rank` sends for offset `off` of a destination. -/
inductive PacketBody where
  | matching (p : CollParams)
  | tile (off : Nat) (bytes : List Byte)
  deriving DecidableEq, Repr

/-- A packet of the logical cluster `src`, on its way from the port `hop` to the port `dst`, and then along `chain`
(R195, R202). -/
structure Packet where
  src : BitVec 7
  hop : BitVec 7
  dst : BitVec 7
  chain : List (BitVec 7)
  asid : BitVec 12
  gnum : BitVec 8
  turn : BitVec 4
  pos : Nat
  rank : Nat
  body : PacketBody
  deriving DecidableEq, Repr

/-- A cached non-leaf entry: the table that serves a tenant's addresses with a prefix at a level (R122). -/
structure TableEntry where
  asid : BitVec 12
  level : Nat
  pfx : Nat
  table : Nat
  deriving DecidableEq, Repr

/-- What a physical cluster is (R19, R390). -/
inductive ClusterStatus where
  | active
  | spare
  | testing
  | lost
  deriving DecidableEq, Repr

/-- One physical cluster without its cores. -/
structure Cluster where
  status : ClusterStatus
  logical : Option (BitVec 7)
  testSince : Nat
  spm : Mem
  acc : Mem
  badSpm : List Nat
  badAcc : List Nat
  groups : Vector Group 8
  teams : Vector (Option Team) 8
  zeroing : List ZeroUnit
  /-- Pages that wait to leave a group held as a board, and the target that a started relocation reserves (R186). -/
  reloc : List (Nat × Option Nat)
  /-- The cycle of the last request that the Claim Unit decided for a core, and that core (R179). -/
  decided : Option (Nat × Slot)
  /-- The cycle of the last barrier operation decided, and its core (R213). -/
  barDecided : Option (Nat × Slot)
  blocked : List Blocked
  sfu : List SfuEntry
  topk : List TopkEntry
  drain : List DrainBeat
  /-- Commands with a row in compute (R272). -/
  computing : List Nat
  rowPtr : Slot
  /-- CORENO and number of the command that the copy engine granted last (R300). -/
  copyLast : Option (Nat × Nat)
  coll : List CollEntry
  held : List Packet
  /-- The cluster's TLB, latest first, and its cache of non-leaf entries (R122). -/
  tlb : List TlbEntry
  tables : List TableEntry
  deriving DecidableEq, Repr

/-! ## Copies in progress -/

/-- The space of a copy's destination. -/
inductive CopySpace where
  | tcm
  | spm
  | acc
  | phys
  deriving DecidableEq, Repr

/-- A granted destination granule whose write has not been performed (R300): pairs of an address and a byte. `stamp` is
the step of its grant. -/
structure Granule where
  seq : Nat
  stamp : Nat
  core : CoreId
  space : CopySpace
  cells : List Host.Cell
  whole : Bool
  /-- One granule of a whole line, whose other one is still to be granted (R304). -/
  half : Bool
  va : Word
  asid : BitVec 12
  epoch : BitVec 16
  buf : BitVec 12
  deriving DecidableEq, Repr

/-! ## Package -/

/-- What a shipped operation answers. -/
inductive ShipResult where
  | value (old : Word)
  | fault (cause : BitVec 8)
  deriving DecidableEq, Repr

/-- A shipped operation at its home, accepted at step `stamp`, with the register its reply goes to (R320, R386). -/
structure ShipOp where
  core : CoreId
  reply : Option (BitVec 5)
  op : BitVec 5
  pa : Nat
  va : Word
  x : Word
  cmp : Word
  asid : BitVec 12
  epoch : BitVec 16
  under : Seal
  stamp : Nat
  result : Option ShipResult
  deriving DecidableEq, Repr

/-- What a map operation answers. -/
inductive MapResult where
  | pair (x y : Word) (cursor : Option Word)
  | badHandle
  | fault (cause : BitVec 8)
  deriving DecidableEq, Repr

/-- A map operation for the header agent of the region at `pa`, issued at step `stamp` (R353). `buf` is the buffer of that
page and `under` the seals that its map's lines have to bear (R386, R387); `cursor` and `scanned` are MITER's progress
(R351). -/
structure MapOp where
  core : CoreId
  pa : Nat
  fn : BitVec 6
  d : BitVec 5
  c : BitVec 5
  base : BitVec 48
  handle : BitVec 10
  asid : BitVec 12
  epoch : BitVec 16
  buf : BitVec 12
  under : List Seal
  stamp : Nat
  key : Word
  operand : Word
  cursor : Word
  scanned : Nat
  result : Option MapResult
  deriving DecidableEq, Repr

/-- A request on its way: a store or a granule of the copy engine with what it comes under, a shipped or map operation, or
the place a load took in the queue. -/
inductive TransitItem where
  | store (e : StoreEntry) (under : Seal)
  | copy (g : Granule) (under : Seal)
  | ship (op : ShipOp)
  | map (op : MapOp)
  | loadMark
  deriving DecidableEq, Repr

/-- A request queued at a gateway, a sleeping stack or a host port (R52, R55, R334); `seq` is the number of the next
command, and `stamp` the step, at which it entered. -/
structure Transit where
  seq : Nat
  stamp : Nat
  queue : QueueId
  core : CoreId
  item : TransitItem
  deriving DecidableEq, Repr

/-- A split in progress: the entries kept, moved, and the old lines not yet processed (R344). -/
structure Split where
  kept : List (Word × Word)
  moved : List (Word × Word)
  rest : List (List (Word × Word))
  deriving DecidableEq, Repr

/-- One segment of a map (R341-R343). `chains` lists the buckets that hold an entry. -/
structure Segment where
  level : Nat
  split : Nat
  count : Nat
  pending : Nat
  pool : Nat
  chains : List (Nat × List (Word × Word))
  splitting : Option Split
  deriving DecidableEq, Repr

/-- A map (R336-R340); not `live` from the start of its deletion, `written` once the descriptor and the segment states
that the command `maker` writes are in force (R339). -/
structure MapDesc where
  asid : BitVec 12
  handle : BitVec 10
  base : BitVec 48
  zpg : Nat
  dflt : Word
  seed : Word
  lmax : Nat
  kw : Bool
  vw : Bool
  comb : BitVec 3
  live : Bool
  written : Bool
  maker : Nat
  header : Nat
  frames : List Nat
  /-- Segments with the seals that their lines were written under (R387). -/
  seals : List (Slot × Seal)
  segs : Vector Segment 8
  deriving DecidableEq, Repr

/-- A loaded routine: 64 micro-steps, and whether the entry is valid (R331, R332). -/
structure Routine where
  entry : BitVec 8
  valid : Bool
  steps : List Word
  deriving DecidableEq, Repr

/-- What the package keeps of a tenant: ASIDPT entry, epoch, and the name of the key set loaded (R385, R123, R388). -/
structure Tenant where
  pt : Word
  epoch : BitVec 16
  keys : Option Nat
  deriving DecidableEq, Repr

/-- A registered buffer (R386). -/
structure Buffer where
  owner : BitVec 12
  version : BitVec 32
  deriving DecidableEq, Repr

/-- Who waits for a shootdown (R124, R310). -/
inductive ShootBy where
  | core (c : CoreId)
  | tier (die : DieId)
  | service (s : ServiceId)
  deriving DecidableEq, Repr

/-- A shootdown between its GO and its acknowledgement (R124). -/
structure Shoot where
  asid : BitVec 12
  vpn : Nat
  level : Nat
  by_ : ShootBy
  deriving DecidableEq, Repr

/-- How far a migration is (R310). -/
inductive MigrPhase where
  | queued
  | shooting
  | copying
  deriving DecidableEq, Repr

/-- A page migration of a die's tier manager, for the cpy.pref numbered `seq` (R310). -/
structure Migration where
  die : DieId
  seq : Nat
  asid : BitVec 12
  vpage : Nat
  phase : MigrPhase
  oldPage : Nat
  newPage : Nat
  oldSpace : BitVec 2
  buf : BitVec 12
  deriving DecidableEq, Repr

/-- A launch packet (R363). -/
structure LaunchPacket where
  image : Word
  tlen : Nat
  entry : Nat
  spmimg : Word
  slen : Nat
  teams : Nat
  cores : Nat
  prio : BitVec 2
  fullch : Bool
  excl : Bool
  evict : Bool
  claim : Counts
  claimed : Bool
  args : Word
  compl : Word
  parent : Option (BitVec 32)
  deriving DecidableEq, Repr

/-- A grid from its acceptance to its completion record (R362, R372). -/
structure Grid where
  id : BitVec 32
  pkt : LaunchPacket
  asid : BitVec 12
  queue : Nat
  acceptedAt : Nat
  placed : Nat
  ended : Nat
  bad : Nat
  status : BitVec 8
  aux : Word
  abandoned : Bool
  deriving DecidableEq, Repr

/-- A reservation of R398. -/
structure Reservation where
  grid : BitVec 32
  cluster : ClusterId
  cores : List Slot
  deriving DecidableEq, Repr

/-- A T1 stack (R334, R390). Channels are numbered 0-31; `failing` lists those that a spare is to replace, oldest
first. -/
structure Stack where
  asleepSince : Option Nat
  reported : Bool
  failing : List (BitVec 5)
  retired : List (BitVec 5)
  narrowed : List (BitVec 5)
  withdrawn : List (BitVec 5)
  spares : Nat
  deriving DecidableEq, Repr

/-- The registers of a die's configuration block (R309, R333, R370, R381); `rejAt` is the cycle of CFGREJ's latest
increment. -/
structure DieRegs where
  tmfbase : Word
  tmfhead : BitVec 10
  tmftail : BitVec 10
  tmdbase : Word
  tmdhead : BitVec 10
  tmdtail : BitVec 10
  tmstat : Word
  pgidle0 : BitVec 16
  pgidle1 : BitVec 16
  lsbase : Word
  lscount : BitVec 16
  cfgrej : BitVec 32
  rejAt : Option Nat
  deriving DecidableEq, Repr

/-- A host queue page (R378); `rung` is the step of the doorbell that it last accepted (R65). -/
structure HostQueue where
  door : Word
  rung : Nat
  busy : Bool
  refused : Bool
  lost : Bool
  result : BitVec 32
  asid : BitVec 12
  deriving DecidableEq, Repr

/-- An HDM window (R384). -/
structure Hdm where
  en : Bool
  asid : BitVec 12
  vbase : BitVec 32
  deriving DecidableEq, Repr

/-- An inbox entry of a service core (R383). -/
structure SvcEntry where
  word : Word
  kind : BitVec 3
  asid : BitVec 12
  src : BitVec 10
  arrived : Bool
  deriving DecidableEq, Repr

/-- BUFCTL (R382, R386); `since` is the step of the write that set BUSY. -/
structure BufCtl where
  buf : BitVec 12
  asid : BitVec 12
  busy : Bool
  since : Nat
  dead : List (BitVec 12)
  deriving DecidableEq, Repr

/-- The security mailbox (R388): `busy` is the command under way, and `image` the hash of the routine table as an attest
began (R389). -/
structure Mailbox where
  status : BitVec 8
  busy : Option (BitVec 2)
  image : List Byte
  buffer : Mem
  reports : Word
  deriving DecidableEq, Repr

/-- The Rannen port (R394): instruction, address, and the data register as shifted in and as captured. -/
structure Tap where
  ir : BitVec 8
  fmaddr : Word
  dataIn : Word
  dataOut : Word
  deriving DecidableEq, Repr

/-- Power states (R392). -/
inductive Power where
  | bringUp
  | running
  | recovery
  deriving DecidableEq, Repr

/-- What moves next, from outside and among the machine's agents (notes/assumptions/1). -/
inductive Input where
  /-- A core's next action: a trap, or one instruction. -/
  | run (c : CoreId)
  /-- An indivisible step of another agent, by its row of the opcode table. -/
  | event (i : Instr)
  /-- An engine starts, or takes again, the command numbered `seq`. -/
  | start (seq : Nat)
  /-- The array sequencer reads a granule of the next row of a core's head command (R271). -/
  | rowFetch (c : CoreId)
  /-- The core's oldest unretired vector instruction writes one lane word, or one granule of a top-k list, ahead of its
  retirement (R57, R239). -/
  | laneBeat (c : CoreId) (space : Space) (off : Nat)
  /-- The compute of the row of the command numbered `seq` ends (R272). -/
  | rowComputed (k : ClusterId) (seq : Nat)
  /-- The Rannen port shifts `data` in and executes the instruction of code `ir`. -/
  | tap (ir : BitVec 8) (data : Word)
  /-- A cluster forgets a cached translation (R122). -/
  | tlbEvict (k : ClusterId) (asid : BitVec 12) (vpage : Nat)
  /-- A core's micro-TLB forgets a translation (R122). -/
  | utlbEvict (c : CoreId) (asid : BitVec 12) (vpage : Nat)
  /-- A cluster forgets a cached non-leaf entry (R122). -/
  | tableEvict (k : ClusterId) (e : TableEntry)
  /-- A line of memory becomes uncorrectable (R135). -/
  | lineError (line : Nat)
  /-- A scratchpad or accumulator granule becomes uncorrectable (R281, R295). -/
  | granuleError (k : ClusterId) (space : Space) (granule : Nat)
  /-- A service core removes its oldest message (R383). -/
  | serviceTake (s : ServiceId)
  /-- A service core issues RESUME of a global core id (R148). -/
  | serviceResume (s : ServiceId) (target : Word)
  /-- A service core writes SHOOT with GO (R124). -/
  | serviceShoot (s : ServiceId) (v : Word)
  /-- The host writes a byte of its own memory. -/
  | hostMemory (pa : BitVec 48) (b : Byte)
  /-- A service core stores a byte of the package's memory. -/
  | serviceMemory (pa : BitVec 48) (b : Byte)
  /-- A requester reads `size` bytes of the register space (R377). -/
  | registerRead (who : Requester) (off : BitVec 26) (size : BitVec 4)
  /-- The descriptor and segment states of a new map are written (R339). -/
  | mapWritten (asid : BitVec 12) (handle : BitVec 10)
  deriving DecidableEq, Repr

/-- The whole package. -/
structure State where
  /-- Cycles since reset (R393). -/
  now : Nat
  /-- Steps taken: numbers the free values. -/
  tick : Nat
  /-- Who moves next. -/
  agenda : List Input
  /-- The core whose instruction `exec` gives meaning to. -/
  cur : CoreId
  /-- The command whose start `exec` gives meaning to. -/
  cmdRef : Nat
  /-- Number of the next command. -/
  nextSeq : Nat
  power : Power
  freezeAsked : Option Nat
  frozen : Bool
  throttled : Bool
  cores : Vector Core 1088
  clusters : Vector Cluster 136
  cmds : List Cmd
  granules : List Granule
  packets : List Packet
  left : List LeftMember
  uses : List GroupUse
  abortedTurns : List AbortedTurn
  mem : Mem
  poison : List Nat
  /-- Lines of T1 and T2 written since reset, with their seals; none for those that the hardware wrote for itself. -/
  seals : List (Nat × Option Seal)
  transit : List Transit
  ships : List ShipOp
  mapOps : List MapOp
  maps : List MapDesc
  routines : List Routine
  tenants : List (BitVec 12 × Tenant)
  buffers : List (BitVec 12 × Buffer)
  bufctl : BufCtl
  fabid : BitVec 5
  affmiss : Word
  pwrcap : BitVec 11
  spctl : Bool
  hsem : Vector (Option Requester) 64
  hsemOrder : List Requester
  hostq : Vector HostQueue 32
  queues : Vector (List (BitVec 32)) 64
  grids : List Grid
  nextGrid : BitVec 32
  reservations : List Reservation
  svc : Vector (List SvcEntry) 16
  heldMsgs : List (ServiceId × SvcEntry)
  /-- The status of each service core's last RESUME (R148). -/
  svcStatus : Vector Word 16
  hdm : Vector Hdm 32
  hostReply : Option (Option (List Byte))
  /-- Whether a port's latest register write completed with Completer Abort (R20). -/
  hostAbort : Vector Bool 2
  /-- What the latest register read gave (R377). -/
  regReply : Option Word
  dies : Vector DieRegs 4
  migrations : List Migration
  shoots : List Shoot
  hbm : Vector Stack 8
  mailbox : Mailbox
  tap : Tap
  hostLinks : Vector Bool 2
  peerLinks : Vector Bool 8
  deriving DecidableEq, Repr

/-! ## Reset -/

/-- KSTATE at reset: 0x400 (R102). -/
def KState.reset : KState :=
  { park := false, ie := true, ppriv := .user, pie := false, intrap := false, priv := .user }

/-- The control registers at reset (R102). DESIGN CHOICE, unsafe: those set at placement or launch hold 0 before it
(notes/assumptions/5). -/
def Csr.reset : Csr :=
  { kstate := .reset, trapc := ⟨false, false, 0⟩, trappc := 0, trapaux := 0, trapv := 0x80000, trapsave := 0,
    frame := 0, teamid := 0, tcore := 0, tsize := 0, gridid := 0, asid := 0, fflags := 0, fenable := 0, fround := 0,
    parkinf := 0, spflag := 0, spaddr := 0, mprog := 0, pmprog := 0, vlen := 0, efault := 0, engfc := 0, engfa := 0,
    bto := 0x100000, wrrw := 1, placedAt := 0, instret := 0, ptbase := 0, shoot := ⟨0, 0, 0, false⟩,
    setAt := 0, setFlags := 0, setFaults := 0 }

/-- The register files at team start (R98); `Core.readM` gives m0 as all ones. -/
def Regs.reset : Regs :=
  { g := .replicate 32 0, f := .replicate 32 0, p := .replicate 16 0, m := .replicate 8 0, c := .replicate 16 0 }

/-- A core at reset. DESIGN CHOICE, unsafe: the pc is the first word of TCM (notes/assumptions/5). -/
def Core.reset : Core :=
  { regs := .reset, csr := .reset, pc := 0x80000, tcm := [], itcm := [], stores := [], inbox := [], wake := false,
    run := .idle, wait := .ready, preempt := none, lost := none, parkDue := none, parkAside := false,
    heldEvent := [], resumedBy := none, vq := [], minLots := 0, maxLots := 0, credit := 0, barWait := none, sync := none,
    reneg := false, relSeq := none, slot := none, utlb := [] }

/-- A bank group at reset: data, unpinned. -/
def Group.reset : Group :=
  { holder := none, mode := .data, width := 0, wscale := 0, cmd := none, spare := none, rebuilding := [] }

/-- Physical cluster `i` at reset, with the logical ids of R9 (R7). DESIGN CHOICE: physical clusters 0 to 31 of a die are
active and hold its logical ids in order, 32 and 33 are its spares (notes/assumptions/77). -/
def Cluster.reset (i : Nat) : Cluster :=
  { status := if i % 34 < 32 then .active else .spare,
    logical := if i % 34 < 32 then some (.ofNat 7 (i / 34 * 32 + i % 34)) else none,
    testSince := 0, spm := [], acc := [], badSpm := [], badAcc := [], groups := .replicate 8 .reset,
    teams := .replicate 8 none, zeroing := [], reloc := [], decided := none, barDecided := none, blocked := [],
    sfu := [], topk := [], drain := [], computing := [], rowPtr := 0, copyLast := none, coll := [], held := [], tlb := [],
    tables := [] }

/-- A die's configuration block at reset (R309, R333, R370, R381). -/
def DieRegs.reset : DieRegs :=
  { tmfbase := 0, tmfhead := 0, tmftail := 0, tmdbase := 0, tmdhead := 0, tmdtail := 0, tmstat := 0, pgidle0 := 256,
    pgidle1 := 256, lsbase := 0, lscount := 0, cfgrej := 0, rejAt := none }

/-- A stack at reset: awake, with its two spare channels (R18). -/
def Stack.reset : Stack :=
  { asleepSince := none, reported := false, failing := [], retired := [], narrowed := [], withdrawn := [], spares := 2 }

/-- The machine right after reset: every register at its reset value, nothing placed, bring-up still to run (R392). -/
def State.reset : State :=
  { now := 0, tick := 0, agenda := [], cur := 0, cmdRef := 0, nextSeq := 0, power := .bringUp, freezeAsked := none,
    frozen := false, throttled := false, cores := .replicate 1088 .reset,
    clusters := ⟨⟨(List.range 136).map Cluster.reset⟩, by simp⟩,
    cmds := [], granules := [], packets := [], left := [], uses := [], abortedTurns := [], mem := [], poison := [], seals := [],
    transit := [], ships := [], mapOps := [], maps := [], routines := [], tenants := [], buffers := [],
    bufctl := ⟨0, 0, false, 0, []⟩, fabid := 0,
    affmiss := 0, pwrcap := 1800, spctl := true, hsem := .replicate 64 none, hsemOrder := [],
    hostq := .replicate 32 ⟨0, 0, false, false, false, 0, 0⟩, queues := .replicate 64 [], grids := [], nextGrid := 0,
    reservations := [], svc := .replicate 16 [], heldMsgs := [], svcStatus := .replicate 16 0,
    hdm := .replicate 32 ⟨false, 0, 0⟩, hostReply := none, hostAbort := .replicate 2 false, regReply := none,
    dies := .replicate 4 .reset, migrations := [], shoots := [], hbm := .replicate 8 .reset,
    mailbox := ⟨0, none, [], [], 0⟩, tap := ⟨0x01, 0, 0, 0⟩, hostLinks := .replicate 2 true, peerLinks := .replicate 8 true }

end Sys2Proof.Machine
end

