-- ==== Sys2Proof/Machine/Memory.lean ====
section
/-! DEFINITION. Memory as a list of bytes in one canonical form, and its reads and writes (spec/00 R3). -/

namespace Sys2Proof.Machine

/-- The canonical form: addresses strictly rising from above `lo`, no byte zero. -/
def Memory.above (lo : Nat) : Mem → Bool
  | [] => true
  | (a, b) :: t => decide (lo ≤ a) && b != 0 && Memory.above (a + 1) t

/-- The canonical form of a memory. -/
def Memory.wf (m : Mem) : Bool := Memory.above 0 m

/-- The byte at an address; 0 where none is listed. DESIGN CHOICE (notes/assumptions/4). -/
def Memory.read : Mem → Nat → Byte
  | [], _ => 0
  | (k, b) :: t, a => if a < k then 0 else if a = k then b else Memory.read t a

/-- Stores one byte, keeping the canonical form. -/
def Memory.write : Mem → Nat → Byte → Mem
  | [], a, v => if v = 0 then [] else [(a, v)]
  | (k, b) :: t, a, v =>
    if a < k then (if v = 0 then (k, b) :: t else (a, v) :: (k, b) :: t)
    else if a = k then (if v = 0 then t else (a, v) :: t)
    else (k, b) :: Memory.write t a v

/-- The `n` bytes from an address on. -/
def Memory.readBytes (m : Mem) (a : Nat) : Nat → List Byte
  | 0 => []
  | n + 1 => Memory.read m a :: Memory.readBytes m (a + 1) n

/-- Stores bytes from an address on. -/
def Memory.writeBytes (m : Mem) (a : Nat) : List Byte → Mem
  | [] => m
  | b :: bs => Memory.writeBytes (Memory.write m a b) (a + 1) bs

/-- A little-endian number of `n` bytes (R3). -/
def Memory.readNat (m : Mem) (a n : Nat) : Nat := leNat (Memory.readBytes m a n)

/-- Stores a little-endian number of `n` bytes (R3). -/
def Memory.writeNat (m : Mem) (a n v : Nat) : Mem := Memory.writeBytes m a (leBytes n v)

/-- Stores listed cells in order. -/
def Memory.writeCells (m : Mem) : List Host.Cell → Mem
  | [] => m
  | (a, b) :: cs => Memory.writeCells (Memory.write m a b) cs

/-- Zeroes the bytes from `lo` up to, not including, `hi`. -/
def Memory.zero (m : Mem) (lo hi : Nat) : Mem := m.filter (fun c => !(decide (lo ≤ c.1) && decide (c.1 < hi)))

/-- The listed cells of bytes from an address on. -/
def Memory.cells (a : Nat) : List Byte → Mem
  | [] => []
  | b :: bs => if b = 0 then Memory.cells (a + 1) bs else (a, b) :: Memory.cells (a + 1) bs

/-- Replaces the bytes from an address on, all at once. -/
def Memory.splice (m : Mem) (a : Nat) (bs : List Byte) : Mem :=
  m.filter (fun c => decide (c.1 < a)) ++ (Memory.cells a bs ++ m.filter (fun c => decide (a + bs.length ≤ c.1)))

/-- The 32-bit word at an address. -/
def Memory.read32 (m : Mem) (a : Nat) : BitVec 32 := .ofNat 32 (Memory.readNat m a 4)

/-- The doubleword at an address. -/
def Memory.read64 (m : Mem) (a : Nat) : Word := .ofNat 64 (Memory.readNat m a 8)

/-- Stores a 32-bit word. -/
def Memory.write32 (m : Mem) (a : Nat) (v : BitVec 32) : Mem := Memory.writeNat m a 4 v.toNat

/-- Stores a doubleword. -/
def Memory.write64 (m : Mem) (a : Nat) (v : Word) : Mem := Memory.writeNat m a 8 v.toNat

end Sys2Proof.Machine
end

