-- ==== Sys2Proof/Machine/Num.lean ====
section
/-! DEFINITION. Number formats and rounding (spec/02): values as exact naturals and integers, rounded once at the end. -/

namespace Sys2Proof.Machine

/-- The rounding modes (R30). -/
inductive RMode where
  | rne
  | rtz
  | rdn
  | rup
  | rmm
  deriving DecidableEq, Repr

/-- The mode that FROUND names; 5 to 7 act as RNE (R30). -/
def RMode.of (x : BitVec 3) : RMode :=
  if x = 1 then .rtz else if x = 2 then .rdn else if x = 3 then .rup else if x = 4 then .rmm else .rne

/-- A floating-point format (R22): width, mantissa bits, bias, code of the largest finite value, canonical NaN, and
whether it has infinities; `saturates` where an overflow gives the largest finite value in every mode (R33). -/
structure Fmt where
  width : Nat
  mant : Nat
  bias : Nat
  maxCode : Nat
  nan : Nat
  hasInf : Bool
  saturates : Bool
  deriving DecidableEq, Repr

/-- FP64. -/
def fp64 : Fmt := ⟨64, 52, 1023, 0x7FEFFFFFFFFFFFFF, 0x7FF8000000000000, true, false⟩
/-- FP32. -/
def fp32 : Fmt := ⟨32, 23, 127, 0x7F7FFFFF, 0x7FC00000, true, false⟩
/-- BF16. -/
def bf16 : Fmt := ⟨16, 7, 127, 0x7F7F, 0x7FC0, true, false⟩
/-- FP8 E5M2. -/
def e5m2 : Fmt := ⟨8, 2, 15, 0x7B, 0x7E, true, true⟩
/-- FP8 E4M3. -/
def e4m3 : Fmt := ⟨8, 3, 7, 0x7E, 0x7F, false, true⟩
/-- FP4 E2M1, which has no NaN: a NaN converts to +0 (R33). -/
def e2m1 : Fmt := ⟨4, 1, 1, 0x7, 0x0, false, true⟩

/-- The value of a code: NaN, signalling or not; an infinity; or (-1)^neg x m x 2^e. -/
inductive FVal where
  | nan (signalling : Bool)
  | inf (neg : Bool)
  | fin (neg : Bool) (m : Nat) (e : Int)
  deriving DecidableEq, Repr

/-- The flags NV, DZ, OF, UF, NX in bits 4 to 0 (R102). -/
abbrev Flags := BitVec 5

/-- NV. -/
def flagNV : Flags := 16
/-- DZ. -/
def flagDZ : Flags := 8
/-- OF. -/
def flagOF : Flags := 4
/-- UF. -/
def flagUF : Flags := 2
/-- NX. -/
def flagNX : Flags := 1

/-- A rounded result: its code and the flags it raises. -/
abbrev FRes := Nat × Flags

/-- The sign bit of a format. -/
def Fmt.signBit (F : Fmt) : Nat := 2 ^ (F.width - 1)

/-- A magnitude code with a sign. -/
def Fmt.withSign (F : Fmt) (neg : Bool) (code : Nat) : Nat := if neg then code + F.signBit else code

/-- The value a code holds (R22, R23, R24). -/
def Fmt.unpack (F : Fmt) (x : Nat) : FVal :=
  let neg := x / F.signBit % 2 = 1
  let c := x % F.signBit
  let m := c % 2 ^ F.mant
  let ex := c / 2 ^ F.mant
  if F.maxCode < c then
    if F.hasInf && m = 0 then .inf neg else .nan (F.hasInf && m < 2 ^ (F.mant - 1))
  else if ex = 0 then .fin neg m (1 - (F.bias : Int) - F.mant)
  else .fin neg (m + 2 ^ F.mant) ((ex : Int) - F.bias - F.mant)

/-- Whether an inexact magnitude rounds up: `odd` the last kept bit, `half` the remainder against one half. -/
def roundsUp (mode : RMode) (neg odd : Bool) (half : Ordering) : Bool :=
  match mode with
  | .rne => half = .gt || (half = .eq && odd)
  | .rtz => false
  | .rdn => neg
  | .rup => !neg
  | .rmm => half != .lt

/-- m x 2^e, with a non-zero tail below it when `sticky`, as a multiple of 2^q: the multiple and whether it is inexact.
-/
def roundTo (mode : RMode) (neg : Bool) (m : Nat) (e q : Int) (sticky : Bool) : Nat × Bool :=
  if q ≤ e then
    let k := m * 2 ^ (e - q).toNat
    if sticky then (if roundsUp mode neg (k % 2 = 1) .lt then k + 1 else k, true) else (k, false)
  else
    let s := (q - e).toNat
    let k := m / 2 ^ s
    let r := m % 2 ^ s
    if r = 0 && !sticky then (k, false)
    else
      let half := if 2 ^ (s - 1) < r then .gt else if r = 2 ^ (s - 1) then (if sticky then .gt else .eq) else .lt
      (if roundsUp mode neg (k % 2 = 1) half then k + 1 else k, true)

/-- The result of a finite value beyond the largest finite one (R33). -/
def Fmt.overflow (F : Fmt) (mode : RMode) (neg : Bool) : FRes :=
  let toInf := match mode with
    | .rne | .rmm => true
    | .rtz => false
    | .rdn => neg
    | .rup => !neg
  (F.withSign neg (if F.hasInf && !F.saturates && toInf then F.maxCode + 1 else F.maxCode), flagOF ||| flagNX)

/-- Rounds m x 2^e, with a non-zero tail when `sticky`, to the format (R25, R30-R33, R35). A value is tiny when it
rounds below the smallest normal with an unbounded exponent, DEDUCED (notes/assumptions/13); in FP4, when the result is
below 1 (R33). -/
def Fmt.round (F : Fmt) (mode : RMode) (neg : Bool) (m : Nat) (e : Int) (sticky : Bool := false) : FRes :=
  if m = 0 && !sticky then (F.withSign neg 0, 0)
  else
    let emin : Int := 1 - F.bias
    let lead : Int := if m = 0 then emin - F.mant - 2 else e + m.log2
    let q : Int := (if lead < emin then emin else lead) - F.mant
    let (k, inexact) := if m = 0 then roundTo mode neg 1 (emin - F.mant - 2) q false else roundTo mode neg m e q sticky
    let code := if k < 2 ^ F.mant then k else ((q + F.mant + F.bias).toNat - 1) * 2 ^ F.mant + k
    if F.maxCode < code then F.overflow mode neg
    else
      let tiny := if F.width = 4 then k < 2 ^ F.mant else lead < emin &&
        (lead < emin - 1 || (roundTo mode neg m e (lead - F.mant) sticky).1 < 2 ^ (F.mant + 1))
      (F.withSign neg code, if inexact then (if tiny then flagUF ||| flagNX else flagNX) else 0)

/-- A value of the conversion table R33 in the target format. -/
def Fmt.ofVal (F : Fmt) (mode : RMode) (v : FVal) (sticky : Bool := false) : FRes :=
  match v with
  | .nan s => (F.nan, if s || F.width = 4 then flagNV else 0)
  | .inf neg => if F.hasInf then (F.withSign neg (F.maxCode + 1), 0) else (F.withSign neg F.maxCode, flagOF ||| flagNX)
  | .fin neg m e => F.round mode neg m e sticky

/-- A floating-point conversion (R33). -/
def fconvert (src dst : Fmt) (mode : RMode) (x : Nat) : FRes := dst.ofVal mode (src.unpack x)

/-- The canonical NaN with NV when an operand is signalling (R24). -/
def Fmt.nanRes (F : Fmt) (signalling : Bool) : FRes := (F.nan, if signalling then flagNV else 0)

/-- The result of an invalid operation (R24, R35). -/
def Fmt.invalid (F : Fmt) : FRes := (F.nan, flagNV)

/-- An infinity. -/
def Fmt.infinity (F : Fmt) (neg : Bool) : Nat := F.withSign neg (F.maxCode + 1)

/-- Whether a value is a signalling NaN. -/
def FVal.signalling : FVal → Bool
  | .nan s => s
  | _ => false

/-- Whether a value is a NaN. -/
def FVal.isNan : FVal → Bool
  | .nan _ => true
  | _ => false

/-- The sign of a value; a NaN counts as positive. -/
def FVal.sign : FVal → Bool
  | .nan _ => false
  | .inf n => n
  | .fin n _ _ => n

/-- The value with the other sign. -/
def FVal.neg : FVal → FVal
  | .nan s => .nan s
  | .inf n => .inf (!n)
  | .fin n m e => .fin (!n) m e

/-- The signed magnitude m of a finite value scaled to the exponent `e0`, which is not above its own. -/
def signedAt (neg : Bool) (m : Nat) (e e0 : Int) : Int :=
  let k : Int := ((m * 2 ^ (e - e0).toNat : Nat) : Int)
  if neg then -k else k

/-- The sum of two values rounded once: infinities, signed zeros (R26), then the exact sum. -/
def Fmt.sum (F : Fmt) (mode : RMode) (x y : FVal) : FRes :=
  match x, y with
  | .nan s, v => F.nanRes (s || v.signalling)
  | v, .nan s => F.nanRes (s || v.signalling)
  | .inf a, .inf b => if a = b then (F.infinity a, 0) else F.invalid
  | .inf a, .fin _ _ _ => (F.infinity a, 0)
  | .fin _ _ _, .inf b => (F.infinity b, 0)
  | .fin na ma ea, .fin nb mb eb =>
    if ma = 0 && mb = 0 then
      (F.withSign (if na = nb then na else mode = .rdn) 0, 0)
    else
      let e0 : Int := if ma = 0 then eb else if mb = 0 then ea else if ea < eb then ea else eb
      let v := (if ma = 0 then 0 else signedAt na ma ea e0) + (if mb = 0 then 0 else signedAt nb mb eb e0)
      if v = 0 then (F.withSign (mode = .rdn) 0, 0) else F.round mode (v < 0) v.natAbs e0

/-- The exact product of two values; none where it is invalid (R35). -/
def FVal.mul (x y : FVal) : Option FVal :=
  match x, y with
  | .nan s, v => some (.nan (s || v.signalling))
  | v, .nan s => some (.nan (s || v.signalling))
  | .inf a, .inf b => some (.inf (a != b))
  | .inf a, .fin b m _ => if m = 0 then none else some (.inf (a != b))
  | .fin a m _, .inf b => if m = 0 then none else some (.inf (a != b))
  | .fin a ma ea, .fin b mb eb => some (.fin (a != b) (ma * mb) (ea + eb))

/-- fadd (R143). -/
def Fmt.add (F : Fmt) (mode : RMode) (x y : Nat) : FRes := F.sum mode (F.unpack x) (F.unpack y)

/-- fsub (R143). -/
def Fmt.sub (F : Fmt) (mode : RMode) (x y : Nat) : FRes := F.sum mode (F.unpack x) (F.unpack y).neg

/-- The product of two values rounded to the format as an operation of it. -/
def Fmt.product (F : Fmt) (mode : RMode) (x y : FVal) : FRes :=
  match x.mul y with
  | none => F.invalid
  | some (.nan s) => F.nanRes s
  | some (.inf n) => (F.infinity n, 0)
  | some (.fin n m e) => F.round mode n m e

/-- fmul (R143). -/
def Fmt.mul (F : Fmt) (mode : RMode) (x y : Nat) : FRes := F.product mode (F.unpack x) (F.unpack y)

/-- The fused product and sum of values: x times y, negated when `np`, plus z, one rounding (R144). -/
def Fmt.fmaVal (F : Fmt) (mode : RMode) (np : Bool) (x y z : FVal) : FRes :=
  match x.mul y with
  | none => F.invalid
  | some p => F.sum mode (if np then p.neg else p) z

/-- fmadd and its kin: x times y, negated when `np`, plus z, negated when `nc` (R144). -/
def Fmt.fma (F : Fmt) (mode : RMode) (np nc : Bool) (x y z : Nat) : FRes :=
  let c := F.unpack z
  F.fmaVal mode np (F.unpack x) (F.unpack y) (if nc then c.neg else c)

/-- The quotient of two finite magnitudes, rounded once. -/
def Fmt.quotient (F : Fmt) (mode : RMode) (neg : Bool) (n : Nat) (en : Int) (d : Nat) (ed : Int) : FRes :=
  let k := F.mant + 4 + d.log2
  let q := n * 2 ^ k / d
  F.round mode neg q (en - ed - k) (n * 2 ^ k % d != 0)

/-- fdiv (R143, R35). -/
def Fmt.div (F : Fmt) (mode : RMode) (x y : Nat) : FRes :=
  match F.unpack x, F.unpack y with
  | .nan s, v => F.nanRes (s || v.signalling)
  | v, .nan s => F.nanRes (s || v.signalling)
  | .inf _, .inf _ => F.invalid
  | .inf a, .fin b _ _ => (F.infinity (a != b), 0)
  | .fin a _ _, .inf b => (F.withSign (a != b) 0, 0)
  | .fin a ma ea, .fin b mb eb =>
    if mb = 0 then if ma = 0 then F.invalid else (F.infinity (a != b), flagDZ)
    else if ma = 0 then (F.withSign (a != b) 0, 0)
    else F.quotient mode (a != b) ma ea mb eb

/-- The integer square root by bits: the largest r with r^2 at most n, given `fuel` bits of r still to find. -/
def isqrt : (fuel n r : Nat) → Nat
  | 0, _, r => r
  | k + 1, n, r => let t := r + 2 ^ k; isqrt k n (if t * t ≤ n then t else r)

/-- fsqrt (R143). -/
def Fmt.sqrt (F : Fmt) (mode : RMode) (x : Nat) : FRes :=
  match F.unpack x with
  | .nan s => F.nanRes s
  | .inf n => if n then F.invalid else (F.infinity false, 0)
  | .fin n m e =>
    if m = 0 then (F.withSign n 0, 0)
    else if n then F.invalid
    else
      let sh := 2 * F.mant + 6 + (if (e - (2 * F.mant + 6)) % 2 = 0 then 0 else 1)
      let v := m * 2 ^ sh
      let r := isqrt (F.mant * 2 + 8) v 0
      F.round mode false r ((e - sh) / 2) (r * r != v)

/-- Whether x is less than y as numbers; both finite or infinite, not NaN. -/
def FVal.lt (x y : FVal) : Bool :=
  match x, y with
  | .inf a, .inf b => a && !b
  | .inf a, _ => a
  | _, .inf b => !b
  | .fin na ma ea, .fin nb mb eb =>
    let e0 := if ea < eb then ea else eb
    signedAt na ma ea e0 < signedAt nb mb eb e0
  | _, _ => false

/-- Whether x equals y as numbers, +0 equal to -0. -/
def FVal.eq (x y : FVal) : Bool := !x.isNan && !y.isNan && !x.lt y && !y.lt x

/-- feq: false for a NaN, NV only for a signalling one (R143). -/
def Fmt.feq (F : Fmt) (x y : Nat) : Bool × Flags :=
  let a := F.unpack x
  let b := F.unpack y
  (a.eq b, if a.signalling || b.signalling then flagNV else 0)

/-- flt: false and NV for any NaN (R143). -/
def Fmt.flt (F : Fmt) (x y : Nat) : Bool × Flags :=
  let a := F.unpack x
  let b := F.unpack y
  if a.isNan || b.isNan then (false, flagNV) else (a.lt b, 0)

/-- fle: false and NV for any NaN (R143). -/
def Fmt.fle (F : Fmt) (x y : Nat) : Bool × Flags :=
  let a := F.unpack x
  let b := F.unpack y
  if a.isNan || b.isNan then (false, flagNV) else (!b.lt a, 0)

/-- minimumNumber and maximumNumber: one NaN gives the other operand, -0 below +0 (R143). -/
def Fmt.minMax (F : Fmt) (wantMax : Bool) (x y : Nat) : FRes :=
  let a := F.unpack x
  let b := F.unpack y
  let fl := if a.signalling || b.signalling then flagNV else 0
  if a.isNan then (if b.isNan then F.nan else y, fl)
  else if b.isNan then (x, fl)
  else
    let less := a.lt b || (a.eq b && a.sign && !b.sign)
    (if wantMax then (if less then y else x) else (if less then x else y), fl)

/-- fsgnj, fsgnjn and fsgnjx: the magnitude of x under the given sign, a NaN canonical (R143). -/
def Fmt.signInject (F : Fmt) (x : Nat) (neg : Bool) : FRes :=
  match F.unpack x with
  | .nan s => F.nanRes s
  | _ => (F.withSign neg (x % F.signBit), 0)

/-- The sign bit of a code. -/
def Fmt.signOf (F : Fmt) (x : Nat) : Bool := x / F.signBit % 2 = 1

/-- fclass: SIGN in bit 3, KIND in bits 2 to 0 (R143). -/
def Fmt.classify (F : Fmt) (x : Nat) : Nat :=
  let kind := match F.unpack x with
    | .nan s => if s then 5 else 4
    | .inf _ => 3
    | .fin _ m _ => if m = 0 then 0 else if m < 2 ^ F.mant then 1 else 2
  (if F.signOf x then 8 else 0) + kind

/-- A value rounded to a signed integer of `w` bits (R33): the integer and the flags. -/
def toIntVal (v : FVal) (mode : RMode) (w : Nat) : Int × Flags :=
  let lo : Int := -(2 ^ (w - 1))
  let hi : Int := 2 ^ (w - 1) - 1
  match v with
  | .nan _ => (0, flagNV)
  | .inf neg => (if neg then lo else hi, flagNV)
  | .fin neg m e =>
    let (k, inexact) := roundTo mode neg m e 0 false
    let r : Int := if neg then -k else k
    if r < lo then (lo, flagNV) else if hi < r then (hi, flagNV) else (r, if inexact then flagNX else 0)

/-- A floating-point code to a signed integer of `w` bits (R33). -/
def Fmt.toInt (F : Fmt) (mode : RMode) (w x : Nat) : Int × Flags := toIntVal (F.unpack x) mode w

/-- A signed integer to a floating-point format (R34); an integer is at least 1 in magnitude, so UF never arises. -/
def Fmt.ofInt (F : Fmt) (mode : RMode) (i : Int) : FRes := F.round mode (i < 0) i.natAbs 0

/-- The trit digit of a value by its sign (R39). -/
def FVal.trit (v : FVal) : Nat × Flags :=
  match v with
  | .nan _ => (0, flagNV)
  | .inf n => (if n then 2 else 1, 0)
  | .fin n m _ => (if m = 0 then 0 else if n then 2 else 1, 0)

end Sys2Proof.Machine
end

