-- ==== Sys2Proof/Machine/Ops.lean ====
section
/-! DEFINITION. The shared operations: places in the package, register access, retiring, raising flags and parking,
taking an exception and returning from one, ending a team fatally, messages. -/

namespace Sys2Proof.Machine

/-- What a meaning answers. -/
abbrev Result := Host.Outcome State Fault Refusal

/-! ## Places -/

/-- The physical cluster of a core (R394). -/
def clusterOf (c : CoreId) : ClusterId := ⟨c.val / 8, by omega⟩

/-- CORENO of a core (R9). -/
def corenoOf (c : CoreId) : Slot := ⟨c.val % 8, by omega⟩

/-- Core `n` of a physical cluster. -/
def coreOf (k : ClusterId) (n : Slot) : CoreId := ⟨k.val * 8 + n.val, by omega⟩

/-- The die of a physical cluster. -/
def dieOfCluster (k : ClusterId) : DieId := ⟨k.val / 34, by omega⟩

/-- The die of a core. -/
def dieOfCore (c : CoreId) : DieId := dieOfCluster (clusterOf c)

/-! ## State access -/

/-- A core of the package. -/
def State.coreAt (s : State) (c : CoreId) : Core := s.cores[c]

/-- The state with one core replaced. -/
def State.setCoreAt (s : State) (c : CoreId) (k : Core) : State := { s with cores := s.cores.set c.val k c.isLt }

/-- The current core. -/
def State.core (s : State) : Core := s.coreAt s.cur

/-- The state with the current core replaced. -/
def State.setCore (s : State) (k : Core) : State := s.setCoreAt s.cur k

/-- A cluster of the package. -/
def State.cl (s : State) (k : ClusterId) : Cluster := s.clusters[k]

/-- The state with one cluster replaced. -/
def State.setCl (s : State) (k : ClusterId) (x : Cluster) : State := { s with clusters := s.clusters.set k.val x k.isLt }

/-- The current core's cluster. -/
def State.curCluster (s : State) : ClusterId := clusterOf s.cur

/-- A team slot of a cluster. -/
def State.team (s : State) (k : ClusterId) (t : Slot) : Option Team := (s.cl k).teams[t]

/-- The state with a team slot replaced. -/
def State.setTeam (s : State) (k : ClusterId) (t : Slot) (x : Option Team) : State :=
  s.setCl k { s.cl k with teams := (s.cl k).teams.set t.val x t.isLt }

/-- The team a core belongs to. -/
def State.teamOf (s : State) (c : CoreId) : Option Team := (s.coreAt c).slot.bind (s.team (clusterOf c))

/-- The logical cluster id of a core (R9). DESIGN CHOICE: 0 where its cluster holds none, as a spare, so that CLID reads 0
there (notes/assumptions/77). -/
def State.logicalOf (s : State) (c : CoreId) : Nat := ((s.cl (clusterOf c)).logical.map (·.toNat)).getD 0

/-- The global core id (R9). -/
def State.globalId (s : State) (c : CoreId) : Nat := s.logicalOf c * 8 + (corenoOf c).val

/-- The service core of a core's quadrant (R9). -/
def State.serviceOf (s : State) (c : CoreId) : ServiceId :=
  ⟨(dieOfCore c).val * 4 + s.logicalOf c % 32 / 8, by have := (dieOfCore c).isLt; omega⟩

/-- The active cluster that holds a logical id (R9, R19). -/
def State.holderOf (s : State) (l : Nat) : Option ClusterId :=
  (List.finRange 136).find? fun k =>
    (s.cl k).logical == some (.ofNat 7 l) && (s.cl k).status == .active && decide (l < 128)

/-! ## Registers -/

/-- g[n]: g0 reads as zero (R98). -/
def Core.readG (k : Core) (n : BitVec 5) : Word := if n = 0 then 0 else k.regs.g.get ⟨n.toNat, n.isLt⟩

/-- g[n] written: a write to g0 is discarded (R98). -/
def Core.writeG (k : Core) (n : BitVec 5) (v : Word) : Core :=
  if n = 0 then k else { k with regs := { k.regs with g := k.regs.g.set n.toNat v n.isLt } }

/-- f[n] (R98). -/
def Core.readF (k : Core) (n : BitVec 5) : Word := k.regs.f.get ⟨n.toNat, n.isLt⟩

/-- f[n] written (R98). -/
def Core.writeF (k : Core) (n : BitVec 5) (v : Word) : Core :=
  { k with regs := { k.regs with f := k.regs.f.set n.toNat v n.isLt } }

/-- p[n] (R98). -/
def Core.readP (k : Core) (n : BitVec 4) : Word := k.regs.p.get ⟨n.toNat, n.isLt⟩

/-- p[n] written (R98). -/
def Core.writeP (k : Core) (n : BitVec 4) (v : Word) : Core :=
  { k with regs := { k.regs with p := k.regs.p.set n.toNat v n.isLt } }

/-- m[n]: m0 reads as all ones (R98). -/
def Core.readM (k : Core) (n : BitVec 3) : Word := if n = 0 then -1 else k.regs.m.get ⟨n.toNat, n.isLt⟩

/-- m[n] written: a write to m0 is discarded (R98). -/
def Core.writeM (k : Core) (n : BitVec 3) (v : Word) : Core :=
  if n = 0 then k else { k with regs := { k.regs with m := k.regs.m.set n.toNat v n.isLt } }

/-- c[n] (R98). -/
def Core.readC (k : Core) (n : BitVec 4) : BitVec 8 := k.regs.c.get ⟨n.toNat, n.isLt⟩

/-- c[n] written (R98). -/
def Core.writeC (k : Core) (n : BitVec 4) (v : BitVec 8) : Core :=
  { k with regs := { k.regs with c := k.regs.c.set n.toNat v n.isLt } }

/-- g[n] of the current core. -/
def State.g (s : State) (n : BitVec 5) : Word := s.core.readG n

/-- f[n] of the current core. -/
def State.f (s : State) (n : BitVec 5) : Word := s.core.readF n

/-- Writes g[n] of the current core. -/
def State.setG (s : State) (n : BitVec 5) (v : Word) : State := s.setCore (s.core.writeG n v)

/-- Writes f[n] of the current core. -/
def State.setF (s : State) (n : BitVec 5) (v : Word) : State := s.setCore (s.core.writeF n v)

/-- Replaces the control registers of a core. -/
def Core.setCsr (k : Core) (r : Csr) : Core := { k with csr := r }

/-! ## Retiring -/

/-- The instruction retires and the core goes on at `next`; MPROG is 0 again (R102 INSTRET, R115). -/
def Core.retireTo (k : Core) (next : Word) : Core :=
  { k with pc := next, wait := .ready, relSeq := none, barWait := none, sync := none,
           csr := { k.csr with instret := k.csr.instret + 1, mprog := 0 } }

/-- The instruction retires and the core goes on at the next word. -/
def Core.retire (k : Core) : Core := k.retireTo (k.pc + 4)

/-- The current core's instruction retires. -/
def State.retire (s : State) : State := s.setCore s.core.retire

/-- g[d] receives `v` and the instruction retires. -/
def finishG (s : State) (d : BitVec 5) (v : Word) : Result := .next (s.setG d v).retire

/-! ## Flags and parking -/

/-- Whether a thread is parked: PARK is set, and its PREEMPT handler is not running (R113, R146). -/
def Core.parked (k : Core) : Bool := k.csr.kstate.park && !k.parkAside

/-- The park of a thread: PARK, PARKINF, and the message to the service core (R146, R147). `offset` is the distance in
words from the raising instruction to the restart address. -/
def State.parkAt (s : State) (c : CoreId) (fl : Flags) (offset : Nat) : State :=
  let k := s.coreAt c
  let word : Word := BitVec.ofNat 64 (k.pc.toNat % 2 ^ 32 * 2 ^ 32 + fl.toNat * 2 ^ 10 + s.globalId c)
  s.setCoreAt c
    { k with
      csr := { k.csr with kstate := { k.csr.kstate with park := true },
                          parkinf := .ofNat 16 (offset * 32 + fl.toNat) },
      heldEvent := k.heldEvent ++ [word],
      parkDue := none,
      parkAside := false,
      wait := .ready,
      barWait := none }

/-- The word at a TCM offset as fetches see it (R46, notes/assumptions/6). -/
def Core.fetchWord (k : Core) : BitVec 32 := Memory.read32 k.itcm (k.pc.toNat - Config.tcmBase)

/-- Whether the pc lies in TCM (R43, R84). -/
def Core.pcInTcm (k : Core) : Bool :=
  decide (Config.tcmBase ≤ k.pc.toNat) && decide (k.pc.toNat < Config.tcmBase + Config.tcmBytes)

/-- Whether a core stands between two registers of a savem or a loadm (R114). -/
def Core.midRange (k : Core) : Bool :=
  k.csr.mprog != 0 && k.pcInTcm &&
  match decode k.fetchWord with
  | .ok (.savemG ..) | .ok (.savemF ..) | .ok (.loadmG ..) | .ok (.loadmF ..) => true
  | _ => false

/-- Whether a core stands where a park takes effect: at an instruction boundary, which a place between two registers of a
savem or a loadm is not, or in a wait for an event (R146). -/
def Core.parksNow (k : Core) : Bool := (k.wait == .ready && !k.midRange) || k.wait == .event

/-- A park that falls due beside one that is due already: one park, for the flags of both (R146). -/
def Core.joinPark (k : Core) (fl : Flags) (offset : Nat) : Flags × Nat :=
  match k.parkDue with
  | none => (fl, offset)
  | some (f, o) => (f ||| fl, o)

/-- A park is due: at once where the core stands at an instruction boundary, else at the next one; a thread that has
handed its core over parks where it restarts, and one that has ended parks no more (R146). DESIGN CHOICE: no more does one
whose PARK is set, while its PREEMPT handler runs or after it handed over too. DESIGN CHOICE: every wait before an
instruction's first effect is a boundary, as the waits that R146 names are: recv, wfi, a fence, rel, relall, a release of
SEND, an ENQ on a full queue, vdrain, a vector instruction that waits for the unit or for an earlier one (R231, R233), a
store on a full buffer, a load behind an entry that it overlaps (notes/assumptions/50). -/
def State.duePark (s : State) (c : CoreId) (fl : Flags) (offset : Nat) : State :=
  let k := s.coreAt c
  let due := k.joinPark fl offset
  if k.csr.kstate.park || (k.run != .running && k.run != .handed) then s
  else if k.parksNow && k.run == .running then s.parkAt c due.1 due.2
  else s.setCoreAt c { k with parkDue := some due }

/-- Raises flags on a core; its thread parks when one of them is enabled (R35, R146). -/
def State.raiseAt (s : State) (c : CoreId) (fl : Flags) (offset : Nat) : State :=
  let k := s.coreAt c
  let s' := s.setCoreAt c { k with csr := { k.csr with fflags := k.csr.fflags ||| fl } }
  if fl &&& k.csr.fenable = 0 then s' else s'.duePark c (fl &&& k.csr.fenable) offset

/-- Notes flags and fault bits that the hardware sets in a cycle (R36, R149). -/
def Csr.noteSet (x : Csr) (now : Nat) (fl : Flags) (ef : BitVec 16) : Csr :=
  if x.setAt = now then { x with setFlags := x.setFlags ||| fl, setFaults := x.setFaults ||| ef }
  else { x with setAt := now, setFlags := fl, setFaults := ef }

/-- Flags that no WRC of the same cycle clears (R36). -/
def Csr.heldFlags (x : Csr) (now : Nat) : Flags := if x.setAt = now then x.setFlags else 0

/-- EFAULT bits that no WRC of the same cycle clears (R149). -/
def Csr.heldFaults (x : Csr) (now : Nat) : BitVec 16 := if x.setAt = now then x.setFaults else 0

/-- Raises the flags of a drain or of a lane, beside whatever the core issues in that cycle (R36, R146). -/
def State.raiseBeside (s : State) (c : CoreId) (fl : Flags) (offset : Nat) : State :=
  let k := s.coreAt c
  (s.setCoreAt c (k.setCsr (k.csr.noteSet s.now fl 0))).raiseAt c fl offset

/-- f[d] receives `v`, the instruction retires and raises `fl`. -/
def finishF (s : State) (d : BitVec 5) (v : Word) (fl : Flags) : Result :=
  .next ((s.setF d v).retire.raiseAt s.cur fl 1)

/-- g[d] receives `v`, the instruction retires and raises `fl`. -/
def finishGF (s : State) (d : BitVec 5) (v : Word) (fl : Flags) : Result :=
  .next ((s.setG d v).retire.raiseAt s.cur fl 1)

/-! ## Traps -/

/-- The cause codes of R105 that the model raises. -/
def causeIllegal : BitVec 8 := 0x01
def causeReserved : BitVec 8 := 0x02
def causeMisaligned : BitVec 8 := 0x03
def causePrivilege : BitVec 8 := 0x04
def causeFetchRegion : BitVec 8 := 0x05
def causeNullRegion : BitVec 8 := 0x06
def causePageNotPresent : BitVec 8 := 0x40
def causePagePermission : BitVec 8 := 0x41
def causeAsidInvalid : BitVec 8 := 0x42
def causePteReserved : BitVec 8 := 0x43
def causeShipTarget : BitVec 8 := 0x48
def causeTritByte : BitVec 8 := 0x60
def causeAcmBusy : BitVec 8 := 0x61
def causeCmdReserved : BitVec 8 := 0x62
def causeCounterOverflow : BitVec 8 := 0x63
def causeBoardState : BitVec 8 := 0x64
def causeClaimTotal : BitVec 8 := 0x70
def causeClaimExceeded : BitVec 8 := 0x71
def causeClaimOrder : BitVec 8 := 0x72
def causeClaimMissing : BitVec 8 := 0x73
def causeReleaseUnheld : BitVec 8 := 0x74
def causeMapRegion : BitVec 8 := 0x80
def causeMapHandle : BitVec 8 := 0x81
def causeRoutine : BitVec 8 := 0x82
def causeBarTimeout : BitVec 8 := 0x90
def causeBarOver : BitVec 8 := 0x91
def causeBarUnbound : BitVec 8 := 0x92
def causeBarRebind : BitVec 8 := 0x93
def causeGroupBusy : BitVec 8 := 0x94
def causeGroupUndeclared : BitVec 8 := 0x95
def causePreempt : BitVec 8 := 0xA0
def causeTeamAbort : BitVec 8 := 0xA1
def causeDoubleTrap : BitVec 8 := 0xA2
def causeDataError : BitVec 8 := 0xB0
def causeClusterLost : BitVec 8 := 0xB1
def causeMacFail : BitVec 8 := 0xB2

/-- The class of a cause, which picks the handler (R107). -/
def causeClass (cause : BitVec 8) : Nat :=
  let c := cause.toNat
  if c < 0x40 then 0 else if c < 0x60 then 1 else if c < 0x90 then 2 else if c < 0xA0 then 3 else if c < 0xB0 then 4 else 5

/-- HWFATAL of a cause (R107). -/
def hwFatal (cause : BitVec 8) : Bool := cause == causeClusterLost

/-- Trap entry on a core that is in no trap (R107, R116). -/
def Core.enterTrap (k : Core) (cause : BitVec 8) (aux : Word) (async : Bool) : Core :=
  { k with
    csr := { k.csr with
      trapc := { hwfatal := hwFatal cause, async := async, cause := cause },
      trappc := k.pc,
      trapaux := aux,
      kstate := { k.csr.kstate with ppriv := k.csr.kstate.priv, pie := k.csr.kstate.ie,
                                    priv := .supervisor, ie := false, intrap := true },
      pmprog := k.csr.mprog,
      mprog := 0 },
    pc := k.csr.trapv + 256 * .ofNat 64 (causeClass cause),
    wait := .ready,
    relSeq := none,
    barWait := none,
    sync := none }

/-- Withdraws a core's entry of the special-function or top-k unit whose writes have not begun (R236, R239). -/
def State.withdrawUnits (s : State) (c : CoreId) : State :=
  let k := s.coreAt c
  let x := s.cl (clusterOf c)
  let n := corenoOf c
  let s' := s.setCl (clusterOf c) { x with sfu := x.sfu.filter (fun e => e.core != n), topk := x.topk.filter (fun e => e.core != n) }
  if k.wait = .unit then s'.setCoreAt c { k with wait := .ready, vq := k.vq.filter (fun v => !v.list) } else s'

/-- Withdraws what a core's abandoned instruction left in a shared unit: its blocked request (R111), and its entry of
the special-function or top-k unit (R236, R239). -/
def State.abandon (s : State) (c : CoreId) : State :=
  let x := s.cl (clusterOf c)
  (s.setCl (clusterOf c) { x with
    blocked := x.blocked.filter (fun b =>
      b.core != corenoOf c || match b.kind with | .launch _ | .relane _ => true | _ => false) }).withdrawUnits c

/-- Withdraws the entries of the shared units of every core of a team (R236). -/
def State.withdrawTeam (s : State) (k : ClusterId) (t : Slot) : State :=
  (List.finRange 8).foldl (fun z n =>
    if (z.coreAt (coreOf k n)).slot = some t then z.withdrawUnits (coreOf k n) else z) s

/-- A team ends fatally, the first cause kept: what its cores have in the shared units is withdrawn, and its teardown
follows (R112, R236). DESIGN CHOICE: a request of its that is blocked stays in the list, and can still be granted, until
the teardown releases the team's units (R178, notes/assumptions/79). -/
def State.failTeam (s : State) (k : ClusterId) (t : Slot) (cause : BitVec 8) (aux : Word) : State :=
  let s' := s.withdrawTeam k t
  s'.setTeam k t ((s'.team k t).map fun x =>
    { x with status := .fatal, fatal := some (x.fatal.getD (cause, aux)) })

/-- Ends the team of a core fatally (R112); a core of no team just ends. -/
def State.endFatally (s : State) (c : CoreId) (cause : BitVec 8) (aux : Word) : State :=
  match (s.coreAt c).slot with
  | none => s.setCoreAt c { s.coreAt c with run := .ended }
  | some t =>
    if (s.team (clusterOf c) t).isNone then s.setCoreAt c { s.coreAt c with run := .ended }
    else s.failTeam (clusterOf c) t cause aux

/-- Taking an exception on a core: the entry of R107, or the end of its team with DOUBLE_TRAP when it is in a trap. -/
def State.trapAt (s : State) (c : CoreId) (cause : BitVec 8) (aux : Word) (async : Bool) : State :=
  let k := s.coreAt c
  if k.csr.kstate.intrap then
    (s.setCoreAt c { k with wait := .ready }).endFatally c causeDoubleTrap (k.pc <<< 8 ||| zext cause)
  else s.setCoreAt c (k.enterTrap cause aux async)

/-- The current core's instruction raises a precise trap and does not retire (R110). -/
def trap (s : State) (cause : BitVec 8) (aux : Word) : Result := .next (s.trapAt s.cur cause aux false)

/-- The return of ERET to TRAPPC (R109). -/
def Core.leaveTrap (k : Core) : Core :=
  { k with
    csr := { k.csr with
      kstate := { k.csr.kstate with priv := k.csr.kstate.ppriv, ie := k.csr.kstate.pie, intrap := false },
      mprog := k.csr.pmprog,
      instret := k.csr.instret + 1 },
    pc := k.csr.trappc,
    parkAside := false }

/-- The word of the instruction at work, as TRAPAUX reports it (R105). -/
def wordOf (i : Instr) : Word := zext (encode32 i)

/-- ILLEGAL_INSTRUCTION raised by an instruction at execution. -/
def trapIllegal (s : State) (i : Instr) : Result := trap s causeIllegal (wordOf i)

/-- PRIVILEGE raised by an instruction at execution (R84 step 4). -/
def trapPrivilege (s : State) (i : Instr) : Result := trap s causePrivilege (wordOf i)

/-- RESERVED_FIELD raised by an instruction at execution (R180, R182, R187). -/
def trapReserved (s : State) (i : Instr) : Result := trap s causeReserved (wordOf i)

/-! ## Messages to service cores -/

/-- Whether a service core's inbox takes one more word (R383). -/
def State.svcRoom (s : State) (v : ServiceId) : Bool := (s.svc[v]).length < 64

/-- Puts an entry into a service core's inbox: one that has arrived before the words in flight (R383). -/
def State.svcPush (s : State) (v : ServiceId) (e : SvcEntry) : State :=
  let l := s.svc[v]
  let l' := if e.arrived then l.filter (·.arrived) ++ e :: l.filter (!·.arrived) else l ++ [e]
  { s with svc := s.svc.set v.val l' v.isLt }

/-- Delivers an entry, or holds it at its source while the inbox is full (R383). -/
def State.deliver (s : State) (v : ServiceId) (e : SvcEntry) : State :=
  if s.svcRoom v then s.svcPush v e else { s with heldMsgs := s.heldMsgs ++ [(v, e)] }

/-- Delivers or holds a hardware message (R383). -/
def State.report (s : State) (v : ServiceId) (kind : BitVec 3) (word : Word) : State :=
  s.deliver v { word := word, kind := kind, asid := 0, src := 0, arrived := true }

/-! ## Tables keyed by number -/

/-- Looks a key up in a list of pairs. -/
def lookupD {α β : Type} [BEq α] (l : List (α × β)) (k : α) (d : β) : β := ((l.find? (fun x => x.1 == k)).map (·.2)).getD d

/-- Replaces the entry of a key. -/
def update {α β : Type} [BEq α] (l : List (α × β)) (k : α) (v : β) : List (α × β) := (k, v) :: l.filter (fun x => x.1 != k)

/-- A tenant before anything names it. DESIGN CHOICE: epoch 0 (notes/assumptions/5). -/
def Tenant.fresh : Tenant := { pt := 0, epoch := 0, keys := none }

/-- What the package keeps of an ASID. -/
def State.tenant (s : State) (a : BitVec 12) : Tenant := lookupD s.tenants a .fresh

/-- Replaces what the package keeps of an ASID. -/
def State.setTenant (s : State) (a : BitVec 12) (t : Tenant) : State := { s with tenants := update s.tenants a t }

/-- A registered buffer. DESIGN CHOICE: owner 0, version 0 before an assignment (notes/assumptions/5). -/
def State.buffer (s : State) (b : BitVec 12) : Buffer := lookupD s.buffers b ⟨0, 0⟩

/-- The first element that a test picks, replaced. -/
def replaceFirst {α : Type} (p : α → Bool) (f : α → α) : List α → List α
  | [] => []
  | x :: xs => if p x then f x :: xs else x :: replaceFirst p f xs

/-- The first element that a test picks, with its position. -/
def firstAt {α : Type} (p : α → Bool) : Nat → List α → Option (Nat × α)
  | _, [] => none
  | i, x :: xs => if p x then some (i, x) else firstAt p (i + 1) xs

/-- The first element that a test picks, removed. -/
def dropFirst {α : Type} (p : α → Bool) : List α → List α
  | [] => []
  | x :: xs => if p x then xs else x :: dropFirst p xs

/-- A command by its number. -/
def State.cmd (s : State) (seq : Nat) : Option Cmd := s.cmds.find? (fun c => c.seq == seq)

/-- Changes a command. -/
def State.setCmd (s : State) (seq : Nat) (f : Cmd → Cmd) : State :=
  { s with cmds := replaceFirst (fun c => c.seq == seq) f s.cmds }

end Sys2Proof.Machine
end

