-- ==== Sys2Proof/Machine/Operands.lean ====
section
/-! DEFINITION. The operand forms of core instructions: immediates, addresses, branch targets, register views. -/

namespace Sys2Proof.Machine

/-- A register with a signed 16-bit displacement: the address of a load, store or jalr (R133, R141). -/
def State.ea (s : State) (a : BitVec 5) (i : BitVec 16) : Word := s.g a + sext i

/-- The pc of the current core. -/
def State.pc (s : State) : Word := s.core.pc

/-- A pc-relative target in words (R81, R140, R141). -/
def target {n : Nat} (pc : Word) (disp : BitVec n) : Word := pc + sext disp * 4

/-- The shift amount of a register: its bits 5:0 (R127). -/
def shiftAmount (b : Word) : Nat := b.toNat % 64

/-- The high-half immediate of lui and addpc (R130). -/
def upperImm (i : BitVec 16) : Word := sext i <<< 16

/-- An FP operand as a code: bits 31:0, or all 64 (R98, R143). -/
def State.fcode (s : State) (n : BitVec 5) (double : Bool) : Nat :=
  if double then (s.f n).toNat else (s.f n).toNat % 2 ^ 32

/-- The low `w` bits of an f register as a code (R145). -/
def State.fnarrow (s : State) (n : BitVec 5) (w : Nat) : Nat := (s.f n).toNat % 2 ^ w

/-- The format of the .s and .d forms (R143). -/
def fmtOf (double : Bool) : Fmt := if double then fp64 else fp32

/-- The signed number in bits 31:0 of a g register (R145). -/
def State.gint32 (s : State) (n : BitVec 5) : Int := (bits (s.g n) 0 32).toInt

/-- STEP of a pointer (R99). -/
def ptrStep (p : Word) : BitVec 22 := bits p 42 22

/-- SPACE of a pointer (R99). -/
def ptrSpace (p : Word) : Space := if p.getLsbD 21 then .acc else .spm

/-- ADDR of a pointer (R99). -/
def ptrAddr (p : Word) : Nat := p.toNat % 2 ^ 21

/-- SPACE and ADDR together, bits 21:0. -/
def ptrLow (p : Word) : BitVec 22 := bits p 0 22

/-- A pointer of a step and a place; bits 41:22 are zero (R99). -/
def ptrOf (step place : BitVec 22) : Word := (zext step <<< 42) ||| zext place

/-- A pointer after one step: ADDR moves modulo 2^21, SPACE stays (R99). -/
def ptrStepped (p : Word) : Word :=
  ptrOf (ptrStep p) (.ofNat 22 (p.toNat / 2 ^ 21 % 2 * 2 ^ 21 + (ptrAddr p + (ptrStep p).toNat) % 2 ^ 21))

end Sys2Proof.Machine
end

