-- ==== Sys2Proof/Machine/Translate.lean ====
section
/-! DEFINITION. Physical memory, address translation, and team-virtual addresses (spec/03 R43-R50, R395, spec/05
R119-R125, spec/23 R386-R387). -/

namespace Sys2Proof.Machine

/-! ## The physical map -/

/-- The space a physical address lies in (R395). -/
inductive Home where
  | t1 (st : StackId)
  | t2 (pkg : Fin 16)
  | dsm (die : DieId)
  | host (p : Fin 2)
  | hole
  deriving DecidableEq, Repr

/-- The home of a physical address (R395). -/
def homeOf (pa : Nat) : Home :=
  if pa < 0x8000000000 then .t1 ⟨pa / 2 ^ 36 % 8, by omega⟩
  else if pa < 0x20000000000 then .hole
  else if pa < 0x40000000000 then .t2 ⟨pa / 2 ^ 37 % 16, by omega⟩
  else if pa < 0x40020000000 then .dsm ⟨pa / 2 ^ 27 % 4, by omega⟩
  else if pa < 0x800000000000 then .hole
  else .host ⟨pa / 2 ^ 46 % 2, by omega⟩

/-- SPACE of a home (R120). -/
def Home.space : Home → Option (BitVec 2)
  | .t1 _ => some 0 | .t2 _ => some 1 | .dsm _ => some 2 | .host _ => some 3 | .hole => none

/-- The die that a home attaches to; a host port is reached from every die (R50, R395). -/
def Home.die : Home → Option DieId
  | .t1 st => some ⟨st.val / 2, by omega⟩
  | .t2 p => some ⟨p.val / 4, by omega⟩
  | .dsm d => some d
  | _ => none

/-- Whether the bytes from `pa` on, `n` of them, lie in the populated part of one window (R395). -/
def populated (pa n : Nat) : Bool :=
  match homeOf pa with
  | .t1 _ => pa % 2 ^ 36 + n ≤ 732421 * 65536
  | .t2 _ => pa % 2 ^ 37 + n ≤ 1907348 * 65536
  | .dsm _ => pa % 2 ^ 27 + n ≤ 96 * 1048576
  | .host _ => pa + n ≤ 2 ^ 48
  | .hole => false

/-- The channel of a T1 line in its stack (R395). -/
def channelOf (pa : Nat) : BitVec 5 := .ofNat 5 (8 * (pa / 2 ^ 16 % 4) + pa / 2 ^ 10 % 8)

/-- Whether a stack is awake (R334). -/
def State.awake (s : State) (pa : Nat) : Bool :=
  match homeOf pa with
  | .t1 st => (s.hbm[st]).asleepSince.isNone
  | _ => true

/-- Whether requests to an address queue at its stack: it sleeps, or has woken and not yet performed what queued (R334). -/
def State.stackQueue (s : State) (pa : Nat) : Option StackId :=
  match homeOf pa with
  | .t1 st =>
    if (s.hbm[st]).asleepSince.isSome || s.transit.any (fun t => t.queue == .stack st) then some st else none
  | _ => none

/-- The line of a physical address. -/
def lineOf (pa : Nat) : Nat := pa / 64

/-- Whether lines at the address are encrypted: T1 and T2 (R387). -/
def sealedSpace (pa : Nat) : Bool := pa < 0x40000000000

/-- What a line written now under a buffer is sealed with (R386, R387). -/
def State.sealFor (s : State) (buf : BitVec 12) : Seal :=
  let b := s.buffer buf
  { owner := b.owner, keys := (s.tenant b.owner).keys, buf := buf, version := b.version }

/-- Whether the frame of an address is withdrawn. DEDUCED: the frames of a channel are those with a line in it, so that
the channel, failing completely, takes every frame of its agent with it (R390, R395, notes/assumptions/38). -/
def State.frameWithdrawn (s : State) (pa : Nat) : Bool :=
  match homeOf pa with
  | .t1 st => (s.hbm[st]).withdrawn.any fun ch => ch.toNat / 8 == (channelOf pa).toNat / 8
  | _ => false

/-- Whether a line is beyond correction: marked, or in a withdrawn frame (R390). -/
def State.lineBad (s : State) (pa : Nat) : Bool := s.poison.contains (lineOf pa) || s.frameWithdrawn pa

/-- Whether a line's MAC fails for an access under a seal. DESIGN CHOICE: a line that nothing has written since reset
passes, and one that the hardware wrote for itself gives a free value (notes/assumptions/11). -/
def State.macFails (s : State) (pa : Nat) (u : Seal) : Bool :=
  sealedSpace pa &&
  match s.seals.find? (fun x => x.1 == lineOf pa) with
  | some (_, some t) => t != u
  | some (_, none) => Config.rawFails s.tick (lineOf pa)
  | none => false

/-- The fault that a read of a line meets (R134, R387). -/
def State.lineFault (s : State) (pa : Nat) (u : Seal) : Option (BitVec 8) :=
  if s.lineBad pa then some causeDataError else if s.macFails pa u then some causeMacFail else none

/-- The fault that a read by the hardware for itself meets: a line beyond correction, or one that a tenant has written
(R134, R387, notes/assumptions/11). -/
def State.rawFault (s : State) (pa : Nat) : Option (BitVec 8) :=
  if s.lineBad pa then some causeDataError
  else if sealedSpace pa && s.seals.any (fun x => x.1 == lineOf pa && x.2.isSome) then some causeMacFail
  else none

/-- Whether a frame still waits for the lines of a page that migrates to it (R66, R310). -/
def State.filling (s : State) (pa : Nat) : Bool :=
  s.migrations.any fun m => m.phase != .queued && m.newPage == pa / 65536

/-- Whether the line of an address is held at its home: a shipped operation waits on it (R320), or it has not yet
migrated there (R66). -/
def State.lineHeld (s : State) (pa : Nat) : Bool :=
  s.filling pa || s.ships.any fun o => o.result.isNone && lineOf o.pa == lineOf pa

/-- Whether `n` bytes at their home are behind requests that it has accepted: in a stack's queue, or shipped operations on
one of their lines; or wait for a migration (R52, R66, R320, R334). -/
def State.homeBusy (s : State) (pa n : Nat) : Bool :=
  (s.stackQueue pa).isSome || s.filling pa ||
  s.ships.any fun o => o.result.isNone && decide (lineOf pa ≤ lineOf o.pa) && decide (lineOf o.pa ≤ lineOf (pa + n - 1))

/-- Whether an access to an address is served through a buddy controller (R390). -/
def State.byBuddy (s : State) (pa : Nat) : Bool :=
  match homeOf pa with
  | .t1 st => (s.hbm[st]).retired.contains (channelOf pa)
  | _ => false

/-- Counts accesses served through a buddy controller (R390). -/
def State.countBuddies (s : State) (l : List Nat) : State :=
  { s with affmiss := s.affmiss + .ofNat 64 (l.countP s.byBuddy) }

/-- Counts an access served through a buddy controller (R390). -/
def State.countBuddy (s : State) (pa : Nat) : State := s.countBuddies [pa]

/-- A number read from physical memory. -/
def State.readPhys (s : State) (pa n : Nat) : Nat := Memory.readNat s.mem pa n

/-- Memory with the line of an address changed, the line sealed anew. -/
def State.sealOver (s : State) (pa : Nat) (m : Mem) (u : Seal) : State :=
  { s with mem := m, seals := if sealedSpace pa then update s.seals (lineOf pa) (some u) else s.seals }

/-- Bytes stored at physical addresses, their line sealed anew. -/
def State.storeSealed (s : State) (pa : Nat) (bs : List Byte) (u : Seal) : State :=
  s.sealOver pa (Memory.writeBytes s.mem pa bs) u

/-- Part of the line of an address merged, which makes memory `m`: dropped where the line is in error or fails its MAC
(R135, R387). -/
def State.mergeLine (s : State) (pa : Nat) (m : Mem) (u : Seal) : State :=
  if (s.lineFault pa u).isSome then s.countBuddy pa else (s.sealOver pa m u).countBuddy pa

/-- A write that covers part of a line (R135, R387). -/
def State.writePart (s : State) (pa : Nat) (bs : List Byte) (u : Seal) : State :=
  s.mergeLine pa (Memory.writeBytes s.mem pa bs) u

/-- A write of a whole line: it replaces the line and clears its error (R135). -/
def State.writeLine (s : State) (pa : Nat) (bs : List Byte) (u : Seal) : State :=
  let s := s.countBuddy pa
  { s.storeSealed pa bs u with poison := s.poison.filter (· != lineOf pa) }

/-- The lines that `n` bytes from an address on lie in. -/
def linesOf (pa n : Nat) : List Nat :=
  if n = 0 then [] else (List.range (lineOf (pa + n - 1) + 1 - lineOf pa)).map (lineOf pa + ·)

/-- The buddy accesses of a read of `n` bytes by the hardware for itself are counted (R390). -/
def State.countRaw (s : State) (pa n : Nat) : State := s.countBuddies ((linesOf pa n).map (64 * ·))

/-- Bytes that the hardware writes for itself, `byLine` as whole lines where they cover them: such a line is replaced and
its error cleared, a part of a line in error is dropped (R135). No tenant's seal is theirs (notes/assumptions/11). -/
def State.writeOwn (s : State) (byLine : Bool) (pa : Nat) (bs : List Byte) : State :=
  let ls := linesOf pa bs.length
  let replaced := fun (l : Nat) => byLine && decide (pa ≤ 64 * l) && decide (64 * l + 64 ≤ pa + bs.length)
  let dropped := fun (l : Nat) => !replaced l && s.lineBad (64 * l)
  let written := ls.filter (!dropped ·)
  let out := if ls.any dropped then
      (List.range bs.length).map fun i => if dropped (lineOf (pa + i)) then Memory.read s.mem (pa + i) else bs.getD i 0
    else bs
  let unsealed : List (Nat × Option Seal) := (written.filter fun l => sealedSpace (64 * l)).map fun l => (l, none)
  let s' := { s with mem := Memory.writeBytes s.mem pa out,
                     poison := s.poison.filter fun l => !(ls.contains l && replaced l),
                     seals := unsealed ++ s.seals.filter fun (x : Nat × Option Seal) => !written.contains x.1 }
  s'.countBuddies (ls.map (64 * ·))

/-- Bytes that the hardware stores for itself, a doubleword or less at a time: frames, ring entries, leaf entries. -/
def State.writeRaw (s : State) (pa : Nat) (bs : List Byte) : State := s.writeOwn false pa bs

/-- Bytes that the hardware copies to a save slot, line by line (R190, R374, notes/assumptions/52). -/
def State.writeLines (s : State) (pa : Nat) (bs : List Byte) : State := s.writeOwn true pa bs

/-! ## Translation -/

/-- What an access is, for the checks of R121. -/
inductive Access where
  | read
  | write
  | amo
  | routine
  | mapRead
  | mapWrite
  deriving DecidableEq, Repr

/-- A leaf found by a walk. -/
structure Leaf where
  page : Nat
  space : BitVec 2
  map : Bool
  write : Bool
  read : Bool
  buf : BitVec 12
  level : Nat
  entry : Nat
  deriving DecidableEq, Repr

/-- A translation as an access uses it. -/
structure Xlat where
  pa : Nat
  space : BitVec 2
  buf : BitVec 12
  epoch : BitVec 16
  deriving DecidableEq, Repr

/-- What translating answers. -/
inductive XRes (α : Type) where
  | ok (x : α)
  | fault (cause : BitVec 8) (aux : Word)
  | stall
  deriving Repr

/-- Bytes that a leaf of a level maps (R119). -/
def leafBytes (level : Nat) : Nat := 2 ^ (16 + 8 * (3 - level))

/-- Index of a virtual address at a level (R119). -/
def walkIndex (va level : Nat) : Nat := va / 2 ^ (40 - 8 * level) % 256

/-- Whether a table may lie at an address: wholly in the populated part of T1 or die shared memory (R121). -/
def tablePlace (t : Nat) : Bool :=
  match homeOf t with
  | .t1 _ | .dsm _ => populated t 2048
  | _ => false

/-- Whether a leaf entry is well formed at its level (R120, R121 step 3). -/
def leafOk (e : Nat) (level : Nat) : Bool :=
  let pa := e / 2 ^ 11 % 2 ^ 37 * 2 ^ 11
  level != 0 && pa % leafBytes level == 0 && (homeOf pa).space == some (.ofNat 2 (e / 64 % 4)) &&
  populated pa (leafBytes level)

/-- Reserved bits of any entry (R120). -/
def pteReserved (e : Nat) : Bool := fld e 48 4 != 0 || fld e 8 3 != 0 || fld e 1 1 != 0

/-- What a walk has met: a leaf or a fault, the tables below level 0 that it read, by level, and the addresses of the
entries that it read. -/
structure Walked where
  res : XRes Leaf
  tables : List (Nat × Nat)
  reads : List Nat

/-- The walk from a table on, `fuel` levels left. `bad` is the entry of the first PTE_RESERVED so far, which a V = 0
further down comes before; it waits for a table in a sleeping stack, and behind what its home has accepted (R52, R119-R121
steps 2 and 3, R320, R334). DESIGN CHOICE: where the table that PTBASE names lies in no place for one, PTE_RESERVED reports
the entry of it that the walk would read (notes/assumptions/48). -/
def walkFrom (s : State) (va : Nat) : (fuel level table : Nat) → (bad : Option Nat) → Walked
  | 0, _, _, _ => ⟨.fault causePageNotPresent (.ofNat 64 va), [], []⟩
  | n + 1, level, table, bad =>
    let at_ := table + 8 * walkIndex va level
    let e := s.readPhys at_ 8
    let pa := fld e 11 37 * 2 ^ 11
    let reserved := XRes.fault causePteReserved (.ofNat 64 (bad.getD at_))
    if !tablePlace table then ⟨reserved, [], []⟩
    else if s.homeBusy at_ 8 then ⟨.stall, [], []⟩
    else if s.lineBad at_ then ⟨.fault causeDataError (.ofNat 64 va), [], [at_]⟩
    else if fld e 0 1 = 0 then ⟨.fault causePageNotPresent (.ofNat 64 va), [], [at_]⟩
    else if fld e 2 1 = 1 then
      ⟨if bad.isSome || pteReserved e || !leafOk e level then reserved
       else .ok { page := pa, space := .ofNat 2 (fld e 6 2), map := fld e 5 1 = 1, write := fld e 4 1 = 1,
                  read := fld e 3 1 = 1, buf := .ofNat 12 (fld e 52 12), level := level, entry := at_ }, [], [at_]⟩
    else if level = 3 || !tablePlace pa then ⟨reserved, [], [at_]⟩
    else
      let r := walkFrom s va n (level + 1) pa (if bad.isNone && (pteReserved e || fld e 3 5 != 0) then some at_ else bad)
      { r with tables := (level + 1, pa) :: r.tables, reads := at_ :: r.reads }

/-- Whether the shootdown under way, the oldest, is of the page (R124). -/
def State.shooting (s : State) (asid : BitVec 12) (vpage : Nat) : Bool :=
  s.shoots.head?.any fun h =>
    h.asid == asid && (h.level == 0 || vpage / 2 ^ (8 * (3 - h.level)) == h.vpn / 2 ^ (8 * (3 - h.level)))

/-- The walk of an address from a table of a level on; none starts of a page under shootdown (R121 steps 1 to 3,
R124). -/
def walkAt (s : State) (asid : BitVec 12) (ptbase : Word) (va level table : Nat) : Walked :=
  if ptbase = 0 then ⟨.fault causeAsidInvalid (zext asid), [], []⟩
  else if s.shooting asid (va / 65536) then ⟨.stall, [], []⟩
  else walkFrom s va (4 - level) level table none

/-- The buddy accesses of a walk that has ended are counted (R390). -/
def State.countWalk (s : State) (w : Walked) : State :=
  match w.res with
  | .stall => s
  | _ => s.countBuddies w.reads

/-- The walk of an address under a level-0 table, with the state that counts its accesses (R121, R390). -/
def walk (s : State) (asid : BitVec 12) (ptbase : Word) (va : Nat) : State × XRes Leaf :=
  let w := walkAt s asid ptbase va 0 ptbase.toNat
  (s.countWalk w, w.res)

/-- The checks of R121 steps 4 to 6 on a page's attributes. -/
def accessFault (a : Access) (space : BitVec 2) (map write read : Bool) : Option (BitVec 8) :=
  let isMap := a = .mapRead || a = .mapWrite
  if isMap != map then some causeMapRegion
  else if (a = .amo && (space = 1 || space = 3)) || ((a = .routine || isMap) && space != 0) then some causeShipTarget
  else if (a = .write || a = .amo || a = .routine) && !write then some causePagePermission
  else if (a = .read || isMap) && !read then some causePagePermission
  else if a = .mapWrite && !write then some causePagePermission
  else none

/-- Whether a cached translation is of a page. -/
def TlbEntry.of (e : TlbEntry) (asid : BitVec 12) (vpage : Nat) : Bool := e.asid == asid && e.vpage == vpage

/-- Entries of a set of eight ways that stay when one enters: its seven latest (R122, notes/assumptions/19). -/
def keepWays (inSet : TlbEntry → Bool) : (room : Nat) → List TlbEntry → List TlbEntry
  | _, [] => []
  | n, e :: es =>
    if inSet e then (match n with
      | 0 => keepWays inSet 0 es
      | m + 1 => e :: keepWays inSet m es)
    else e :: keepWays inSet n es

/-- A translation enters a cluster's TLB: 128 sets of eight ways (R122, notes/assumptions/19). -/
def Cluster.cacheTlb (x : Cluster) (e : TlbEntry) : Cluster :=
  { x with tlb := e :: keepWays (fun y => y.vpage % 128 == e.vpage % 128) 7 x.tlb }

/-- A translation enters a core's micro-TLB (R122, notes/assumptions/19). -/
def Core.cacheTlb (k : Core) (e : TlbEntry) : Core := { k with utlb := e :: k.utlb.take 7 }

/-- The address bits that a table of a level serves. -/
def tablePrefix (va level : Nat) : Nat := va / 2 ^ (48 - 8 * level)

/-- The non-leaf entries of a walk enter a cluster's cache (R122, notes/assumptions/19). -/
def Cluster.cacheTables (x : Cluster) (asid : BitVec 12) (va : Nat) (l : List (Nat × Nat)) : Cluster :=
  { x with tables := ((l.map fun (n, t) => (⟨asid, n, tablePrefix va n, t⟩ : TableEntry)) ++ x.tables).take 64 }

/-- Where a cluster's walk of an address starts: the deepest table that it has cached, else the level-0 table (R122). -/
def Cluster.walkStart (x : Cluster) (asid : BitVec 12) (ptbase : Word) (va : Nat) : Nat × Nat :=
  let at_ := fun (n : Nat) => (x.tables.find? fun e => e.asid == asid && e.level == n && e.pfx == tablePrefix va n).map (·.table)
  match at_ 3, at_ 2, at_ 1 with
  | some t, _, _ => (3, t)
  | none, some t, _ => (2, t)
  | none, none, some t => (1, t)
  | none, none, none => (0, ptbase.toNat)

/-- A cluster's walk of an address (R121, R122, R124). -/
def Cluster.walked (x : Cluster) (s : State) (asid : BitVec 12) (ptbase : Word) (va : Nat) : Walked :=
  let r := x.walkStart asid ptbase va
  walkAt s asid ptbase va r.1 r.2

/-- The translation of a page by a cluster: under no table a fault, else its cached one, or a walk, which is then cached; a
miss of a page under shootdown stalls (R121, R122, R124, R385). -/
def lookup (s : State) (k : ClusterId) (asid : BitVec 12) (ptbase : Word) (va : Nat) : State × XRes TlbEntry :=
  let vpage := va / 65536
  if ptbase = 0 then (s, .fault causeAsidInvalid (zext asid))
  else match (s.cl k).tlb.find? (·.of asid vpage) with
  | some e => (s, .ok e)
  | none =>
    let w := (s.cl k).walked s asid ptbase va
    match w.res with
    | .stall => (s, .stall)
    | .fault c x => (s.countWalk w, .fault c x)
    | .ok l =>
      let e : TlbEntry := { asid := asid, vpage := vpage, ppage := (l.page + va % leafBytes l.level) / 65536,
                            space := l.space, map := l.map, write := l.write, read := l.read, buf := l.buf }
      ((s.countWalk w).setCl k (((s.cl k).cacheTables asid va w.tables).cacheTlb e), .ok e)

/-- What an access gets from a translation, or its fault (R121 steps 4 to 6). -/
def TlbEntry.use (e : TlbEntry) (s : State) (va : Nat) (a : Access) : XRes Xlat :=
  match accessFault a e.space e.map e.write e.read with
  | some cause => .fault cause (.ofNat 64 va)
  | none => .ok { pa := e.ppage * 65536 + va % 65536, space := e.space, buf := e.buf, epoch := (s.tenant e.asid).epoch }

/-- Translates an address in translated space for an access of a cluster's engines (R121). -/
def translate (s : State) (k : ClusterId) (asid : BitVec 12) (ptbase : Word) (va : Nat) (a : Access) :
    State × XRes Xlat :=
  match lookup s k asid ptbase va with
  | (s', .stall) => (s', .stall)
  | (s', .fault c x) => (s', .fault c x)
  | (s', .ok e) => (s', e.use s' va a)

/-- Translates an address for an access of the current core: by its micro-TLB, else by its cluster, whose translation
the micro-TLB keeps (R122). -/
def State.translated (s : State) (va : Nat) (a : Access) : State × XRes Xlat :=
  let r := s.core.csr
  if r.ptbase = 0 then (s, .fault causeAsidInvalid (zext r.asid))
  else match s.core.utlb.find? (·.of r.asid (va / 65536)) with
  | some e => (s, e.use s va a)
  | none =>
    match lookup s s.curCluster r.asid r.ptbase va with
    | (s', .stall) => (s', .stall)
    | (s', .fault c x) => (s', .fault c x)
    | (s', .ok e) => (s'.setCore (s'.core.cacheTlb e), e.use s' va a)

/-! ## Team-virtual addresses -/

/-- Where a team-virtual access lands: a physical offset, no accessible location with its SPFLAG code, or a stall. -/
inductive VRes where
  | ok (off : Nat)
  | out (code : BitVec 2)
  | stall
  deriving DecidableEq, Repr

/-- The state of a bank group as SPFLAG reports it (R48, R260). -/
def modeCode : BoardMode → Option (BitVec 2)
  | .data => none | .board => some 2 | .converting => some 3 | .clearing => some 3

/-- Scratchpad offset of a team to the cluster's scratchpad (R47, R171, R172, R186, R260). -/
def spmPlace (x : Cluster) (t : Slot) (team : Team) (off : Nat) : VRes :=
  match team.pages.find? (fun e => e.1 == off / 16384) with
  | none => .out 1
  | some (tp, p) =>
    let grp := x.groups.get ⟨p / 16 % 8, by omega⟩
    let held := match grp.holder with
      | some (h, b) => h == t && tp / 16 == b.toNat
      | none => false
    if x.zeroing.contains (.page p) || x.reloc.any (fun e => e.1 == p && (held || e.2.isSome)) then .stall
    else match modeCode grp.mode with
      | some code => .out code
      | none => .ok (p * 16384 + off % 16384)

/-- Accumulator offset of a team to the cluster's accumulator memory (R49, R171, R172). -/
def accPlace (x : Cluster) (team : Team) (off : Nat) : VRes :=
  if Config.accBytes ≤ off then .out 1
  else match team.blocks.find? (fun e => e.1 == off / 4096) with
    | none => .out 1
    | some (_, b) => if x.zeroing.contains (.block b) then .stall else .ok (b * 4096 + off % 4096)

/-- A team-virtual offset of a core's team. -/
def State.place (s : State) (c : CoreId) (sp : Space) (off : Nat) : VRes :=
  match (s.coreAt c).slot, s.teamOf c with
  | some t, some team =>
    match sp with
    | .spm => spmPlace (s.cl (clusterOf c)) t team off
    | .acc => accPlace (s.cl (clusterOf c)) team off
  | _, _ => .out 1

/-- Records an out-of-range access on a core, if none is recorded (R48). -/
def State.outOfRange (s : State) (c : CoreId) (code : BitVec 2) (sp : Space) (off : Nat) : State :=
  let k := s.coreAt c
  if k.csr.spflag = 0 then
    s.setCoreAt c { k with csr := { k.csr with
      spflag := code, spaddr := .ofNat 22 (off % 2 ^ 21 + if sp = .acc then 2 ^ 21 else 0) } }
  else s

/-- The memory of a space of a cluster. -/
def Cluster.space (x : Cluster) : Space → Mem
  | .spm => x.spm
  | .acc => x.acc

/-- A cluster with the memory of a space replaced. -/
def Cluster.setSpace (x : Cluster) (sp : Space) (m : Mem) : Cluster :=
  match sp with
  | .spm => { x with spm := m }
  | .acc => { x with acc := m }

/-- The granules of a space beyond correction (R281). -/
def Cluster.bad (x : Cluster) : Space → List Nat
  | .spm => x.badSpm
  | .acc => x.badAcc

/-- A cluster with the granules of a space beyond correction replaced. -/
def Cluster.setBad (x : Cluster) (sp : Space) (l : List Nat) : Cluster :=
  match sp with
  | .spm => { x with badSpm := l }
  | .acc => { x with badAcc := l }

/-- Whether a team-virtual offset lies in a granule beyond correction. -/
def State.granuleBad (s : State) (c : CoreId) (sp : Space) (off : Nat) : Bool :=
  match s.place c sp off with
  | .ok p => ((s.cl (clusterOf c)).bad sp).contains (p / 32)
  | _ => false

/-- A write of `n` bytes of granule `i` of a space, which makes its memory `m`: part of a granule beyond correction is
dropped, a whole granule replaces it (notes/assumptions/26). -/
def Cluster.mergeGranule (x : Cluster) (sp : Space) (i n : Nat) (m : Mem) : Cluster :=
  if (x.bad sp).contains i then
    if n = 32 then (x.setSpace sp m).setBad sp ((x.bad sp).filter (· != i)) else x
  else x.setSpace sp m

/-- Bytes written within one granule of a space. -/
def Cluster.writeGranule (x : Cluster) (sp : Space) (p : Nat) (bs : List Byte) : Cluster :=
  x.mergeGranule sp (p / 32) bs.length (Memory.writeBytes (x.space sp) p bs)

/-- Whether a write of `n` bytes from place `p` on covers granule `g` of a space whole. -/
def coversGranule (p n g : Nat) : Bool := decide (p ≤ 32 * g) && decide (32 * g + 32 ≤ p + n)

/-- A run of bytes that the hardware writes from place `p` of a space on: a granule that it covers whole is replaced and
loses its error, and the part of a granule beyond correction is dropped, as `mergeGranule` has them
(notes/assumptions/26). -/
def Cluster.writeSpan (x : Cluster) (sp : Space) (p : Nat) (bs : List Byte) : Cluster :=
  let left := (x.bad sp).filter fun g => !coversGranule p bs.length g
  let out := if left.isEmpty then bs
    else bs.mapIdx fun i b => if left.contains ((p + i) / 32) then Memory.read (x.space sp) (p + i) else b
  (x.setSpace sp (Memory.splice (x.space sp) p out)).setBad sp left

/-- Reads `n` bytes at a team-virtual offset that stay in one page; out of range reads zero and is recorded. None is
a stall. -/
def State.readTeam (s : State) (c : CoreId) (sp : Space) (off n : Nat) : Option (State × Nat) :=
  match s.place c sp off with
  | .stall => none
  | .out code => some (s.outOfRange c code sp off, 0)
  | .ok p => some (s, Memory.readNat ((s.cl (clusterOf c)).space sp) p n)

/-- Writes bytes at a team-virtual offset that stay in one granule; out of range drops them and is recorded. None is a
stall. -/
def State.writeTeam (s : State) (c : CoreId) (sp : Space) (off : Nat) (bs : List Byte) : Option State :=
  match s.place c sp off with
  | .stall => none
  | .out code => some (s.outOfRange c code sp off)
  | .ok p =>
    let k := clusterOf c
    some (s.setCl k ((s.cl k).writeGranule sp p bs))

/-- Writes cells of one granule of a space, their addresses team-virtual offsets from `off` on, as `writeTeam` does. -/
def State.writeTeamCells (s : State) (c : CoreId) (sp : Space) (off : Nat) (cells : List Host.Cell) : Option State :=
  match s.place c sp off with
  | .stall => none
  | .out code => some (s.outOfRange c code sp off)
  | .ok p =>
    let x := s.cl (clusterOf c)
    let m := Memory.writeCells (x.space sp) (cells.map fun e => (p + e.1 - off, e.2))
    some (s.setCl (clusterOf c) (x.mergeGranule sp (p / 32) cells.length m))

end Sys2Proof.Machine
end

