-- ==== Sys2Proof/Machine/Paths.lean ====
section
/-! DEFINITION. How a load, a store or a shipped operation reaches its home: the window map, the store buffer and its
forwarding, the gateways, the host ports and the queues of a sleeping stack (spec/03 R43-R55, spec/06 R134-R136, spec/19
R334). -/

namespace Sys2Proof.Machine

/-- Where an address of the window map leads (R43). -/
inductive Target where
  | tcm (off : Nat)
  | spm (off : Nat)
  | mem (x : Xlat)
  deriving DecidableEq, Repr

/-- The address of `n` bytes by the window map, then alignment, then translation (R43-R45, R134). -/
def resolve (s : State) (ea : Word) (n : Nat) (a : Access) : State × XRes Target :=
  let v := ea.toNat
  let aligned := v % n == 0
  if v < Config.tcmBase then (s, .fault causeNullRegion ea)
  else if v < Config.tcmBase + Config.tcmBytes then
    (s, if aligned then .ok (.tcm (v - Config.tcmBase)) else .fault causeMisaligned ea)
  else if Config.spmBase ≤ v ∧ v < Config.spmBase + Config.spmBytes then
    (s, if aligned then .ok (.spm (v - Config.spmBase)) else .fault causeMisaligned ea)
  else if Config.translatedBase ≤ v ∧ v < Config.translatedEnd then
    if aligned then
      match s.translated v a with
      | (s', .ok x) => (s', .ok (.mem x))
      | (s', .fault c w) => (s', .fault c w)
      | (s', .stall) => (s', .stall)
    else (s, .fault causeMisaligned ea)
  else (s, .fault causePageNotPresent ea)

/-! ## The store buffer -/

/-- Bytes of a size field. -/
def sizeBytes (z : BitVec 2) : Nat := 2 ^ z.toNat

/-- Whether an entry's bytes meet the `n` bytes at an address of a kind. -/
def StoreEntry.meets (e : StoreEntry) (k : StoreKind) (a n : Nat) : Bool :=
  decide (e.kind = k) && decide (e.addr < a + n) && decide (a < e.addr + sizeBytes e.size)

/-- What the store buffer answers to a load (R136). -/
inductive Fwd where
  | none
  | value (v : Nat)
  | wait
  deriving DecidableEq, Repr

/-- Forwarding: the youngest entry that meets the load decides (R136). DESIGN CHOICE: an amo or ship without reply forwards
nothing, so that the load waits until it is accepted; a ship counts as the doubleword that it names, not as its line
(notes/assumptions/72). -/
def forward (es : List StoreEntry) (k : StoreKind) (a n : Nat) : Fwd :=
  match es.reverse.find? (fun e => e.meets k a n) with
  | Option.none => .none
  | some e =>
    if e.amo = Option.none ∧ e.addr ≤ a ∧ a + n ≤ e.addr + sizeBytes e.size then
      .value (e.data.toNat / 2 ^ (8 * (a - e.addr)) % 2 ^ (8 * n))
    else .wait

/-- The first queue of an entry (R135). -/
inductive FirstQueue where
  | tcm
  | spm
  | channel (st : StackId) (ch : BitVec 5)
  | agent (st : StackId) (n : Nat)
  | package (p : Fin 16)
  | slice (d : DieId) (n : Nat)
  | gateway (dst : DieId)
  | hostPort (p : Fin 2)
  | hole
  deriving DecidableEq, Repr

/-- The channel whose controller serves a T1 line: the buddy of a retired channel (R390, R395). -/
def State.controllerOf (s : State) (pa : Nat) : BitVec 5 := if s.byBuddy pa then channelOf pa ^^^ 1 else channelOf pa

/-- The first queue of an entry of a core on a die (R135). -/
def StoreEntry.firstQueue (e : StoreEntry) (s : State) (die : DieId) : FirstQueue :=
  match e.kind with
  | .tcm => .tcm
  | .spm => .spm
  | .phys =>
    let h := homeOf e.addr
    if h.die.any (· != die) then .gateway (h.die.getD die)
    else match h with
      | .t1 st => if e.amo.isSome then .agent st (e.addr / 2 ^ 16 % 4) else .channel st (s.controllerOf e.addr)
      | .t2 p => .package p
      | .dsm d => .slice d (e.addr / 64 % 32)
      | .host p => .hostPort p
      | .hole => .hole

/-- Appends an entry to a core's store buffer. -/
def Core.pushStore (k : Core) (e : StoreEntry) : Core := { k with stores := k.stores ++ [e] }

/-- Entry `n` of a core's store buffer is accepted and leaves it; vector instructions behind it wait for it no more (R52,
R57, R135). -/
def Core.acceptStore (k : Core) (n : Nat) : Core :=
  { k with stores := k.stores.eraseIdx n,
           vq := k.vq.map fun v => { v with before := if n < v.before then v.before - 1 else v.before } }

/-- Whether a core's store buffer has a free entry (R135). -/
def Core.storeRoom (k : Core) : Bool := k.stores.length < 8

/-! ## The way to a home -/

/-- Appends a request to a queue. -/
def State.push (s : State) (t : Transit) : State := { s with transit := s.transit ++ [t] }

/-- A core's request as its first queue accepts it now (R52). -/
def State.request (s : State) (q : QueueId) (c : CoreId) (x : TransitItem) : Transit :=
  { seq := s.nextSeq, stamp := s.tick, queue := q, core := c, item := x }

/-- Appends a new request to its first queue. -/
def State.enqueue (s : State) (q : QueueId) (c : CoreId) (x : TransitItem) : State := s.push (s.request q c x)

/-- A store-buffer entry as it leaves: a store, or the shipped operation of an amo or ship without reply (R327). -/
def StoreEntry.item (e : StoreEntry) (s : State) (c : CoreId) : TransitItem :=
  match e.amo with
  | none => .store e (s.sealFor e.buf)
  | some op =>
    .ship { core := c, reply := none, op := op, pa := e.addr, va := e.va, x := e.data, cmp := e.cmp, asid := e.asid,
            epoch := e.epoch, under := s.sealFor e.buf, stamp := s.tick, result := none }

/-- The live map in force that the handle of an operation names, with its region (R339, R347 step 4). -/
def State.liveMap (s : State) (asid : BitVec 12) (handle : BitVec 10) (base : BitVec 48) : Option MapDesc :=
  s.maps.find? fun m => m.live && m.written && m.asid == asid && m.handle == handle && m.base == base

/-- The seals that lines of a map's buffers bear when they are written now (R387). -/
def State.mapSeals (s : State) (m : MapDesc) : List Seal := (m.seals.map fun e => s.sealFor e.2.buf).eraseDups

/-- A map operation as the header agent of its map takes it: where the map's lines all bear the seals of now, those are
what it expects, else those of its issue (R386, R387). -/
def MapOp.taken (o : MapOp) (s : State) (m : MapDesc) : MapOp :=
  if m.seals.all fun e => (s.mapSeals m).contains e.2 then { o with under := s.mapSeals m } else o

/-- A request as its home takes it up: the header agent checks a map operation's handle (R340, R347, R358). -/
def State.accepted (s : State) : TransitItem → TransitItem
  | .map o => .map (match s.liveMap o.asid o.handle o.base with
    | some m => o.taken s m
    | none => { o with result := some .badHandle })
  | x => x

/-- The first byte that a granule writes. -/
def Granule.place (g : Granule) : Nat := (g.cells.head?.map (·.1)).getD 0

/-- The bytes that a granule writes. -/
def Granule.data (g : Granule) : List Byte := g.cells.map (·.2)

/-- Whether a granule is of a command's grant behind another's (R300, R305). -/
def Granule.after (h g : Granule) : Bool := h.seq == g.seq && decide (g.stamp < h.stamp)

/-- The granule of the copy engine that a request is. -/
def TransitItem.copied : TransitItem → Option Granule
  | .copy g _ => some g
  | _ => none

/-- A granted write cannot be merged: its command faults, and the granules behind it are not written (R305,
notes/assumptions/68). -/
def State.mergeFault (s : State) (g : Granule) : State :=
  { s with granules := s.granules.filter fun (h : Granule) => !h.after g,
           transit := s.transit.filter fun t => !t.item.copied.any fun (h : Granule) => h.after g }.setCmd g.seq
    fun x => { x with phase := .finished, fault := some (causeDataError, g.va) }

/-- A granule of the copy engine is written at its home: a whole line at once, a part of a line merged (R135, R304,
R305). -/
def State.landGranule (s : State) (g : Granule) (u : Seal) : State :=
  if g.whole then s.writeLine g.place g.data u
  else if s.lineBad g.place then (s.mergeFault g).countBuddy g.place
  else s.mergeLine g.place (Memory.writeCells s.mem g.cells) u

/-- A request that its home has taken takes its place there. None while a write's line is held
(notes/assumptions/30). -/
def State.arrive (s : State) : TransitItem → Option State
  | .store e u =>
    if s.lineHeld e.addr then none else some (s.writePart e.addr (leBytes (sizeBytes e.size) e.data.toNat) u)
  | .copy g u => if s.lineHeld g.place then none else some (s.landGranule g u)
  | .ship o => some { s with ships := s.ships ++ [o] }
  | .map o => some { s with mapOps := s.mapOps ++ [o] }
  | .loadMark => none

/-- Whether the queues of a sleeping stack are full (R334). -/
def State.stackFull (s : State) (st : StackId) : Bool :=
  decide (Config.stackRoom ≤ (s.transit.filter (·.queue == .stack st)).length)

/-- A request reaches the die of its home, where it is taken, or queues at a sleeping stack; none while the queues of the
stack are full. `entry` says how it queues there: accepted now, or before where it comes over a gateway (R52, R334,
R386). -/
def State.reachHome (s : State) (pa : Nat) (x : TransitItem) (entry : QueueId → Transit) : Option State :=
  match s.stackQueue pa with
  | some st => if s.stackFull st then none else some (s.push (entry (.stack st)))
  | none => s.arrive (s.accepted x)

/-- The queue on the way of a core's request, where it does not go to its home at once (R52, R395). -/
def wayQueue (c : CoreId) (pa : Nat) : Option QueueId :=
  match homeOf pa with
  | .host p => some (.hostPort p)
  | h => match h.die with
    | some d => if d = dieOfCore c then none else some (.gateway (dieOfCore c) d)
    | none => none

/-- A core's request leaves for its home. -/
def State.depart (s : State) (c : CoreId) (pa : Nat) (x : TransitItem) : Option State :=
  match wayQueue c pa with
  | some q => some (s.enqueue q c x)
  | none => s.reachHome pa x fun q => s.request q c x

/-- The physical address a request is for. -/
def TransitItem.pa : TransitItem → Nat
  | .store e _ => e.addr
  | .copy g _ => g.place
  | .ship o => o.pa
  | .map o => o.pa
  | .loadMark => 0

/-- Whether a write of a command is on its way to its home; for `host` also one that a host port has accepted (R54,
R61). -/
def State.copyOut (s : State) (seq : Nat) (host : Bool) : Bool :=
  s.transit.any fun t => t.item.copied.any (·.seq == seq) &&
    match t.queue with
    | .hostPort _ => host
    | _ => true

/-- Removes the head of a queue. -/
def State.pop (s : State) (q : QueueId) : State := { s with transit := dropFirst (fun t => t.queue == q) s.transit }

/-- A request that its home has taken: an amo or ship without reply that came over a gateway is accepted, and leaves its
core's store buffer (R327). -/
def State.homeTook (s : State) (t : Transit) : State :=
  match t.item with
  | .ship o =>
    if o.reply.isSome then s
    else match firstAt (·.sent) 0 (s.coreAt t.core).stores with
      | some (n, _) => s.setCoreAt t.core ((s.coreAt t.core).acceptStore n)
      | none => s
  | _ => s

/-- The head of a queue moves on: over a gateway to its home, from a host port into it, and from a stack that is awake
again, whose agents process it then (R334, R358). None while it cannot. -/
def State.advance (s : State) (q : QueueId) : Option State :=
  match s.transit.find? (fun t => t.queue == q) with
  | none => none
  | some t =>
    let s' := s.pop q
    match q with
    | .gateway _ _ => if t.item = .loadMark then none
      else (s'.reachHome t.item.pa t.item fun q => { t with queue := q }).map (·.homeTook t)
    | .hostPort _ => s'.arrive t.item
    | .stack st => if (s.hbm[st]).asleepSince.isSome then none else s'.arrive (s'.accepted t.item)

end Sys2Proof.Machine
end

