-- ==== Sys2Proof/Machine/LoadStore.lean ====
section
/-! DEFINITION. Loads, stores, savem, loadm, fences, and the store buffer's and loads' events (spec/05 R114-R116,
spec/06 R133-R139, spec/03 R51-R55). -/

namespace Sys2Proof.Machine

/-! ## Loads -/

/-- A loaded value as a g register receives it (R133). -/
def extendLoad (signed : Bool) (z : BitVec 2) (v : Nat) : Word :=
  let w := 8 * sizeBytes z
  if signed then (BitVec.ofNat w v).signExtend 64 else (BitVec.ofNat w v).setWidth 64

/-- After register `k` of `n` of a range: MPROG moves on, or the instruction retires with MPROG 0 (R114, R137). -/
def Core.rangeMoved (c : Core) (n k : Nat) : Core :=
  if n ≤ k + 1 then c.retire
  else { c with wait := .ready, csr := { c.csr with mprog := .ofNat 6 (k + 1) } }

/-- A load's value reaches its register (R133, R137). -/
def Core.deliver (c : Core) (dst : LoadDst) (z : BitVec 2) (v : Nat) : Core :=
  match dst with
  | .g d signed => (c.writeG d (extendLoad signed z v)).retire
  | .f d => (c.writeF d (extendLoad false z v)).retire
  | .rangeG d n k => (c.writeG (d + .ofNat 5 k) (.ofNat 64 v)).rangeMoved n k
  | .rangeF d n k => (c.writeF (d + .ofNat 5 k) (.ofNat 64 v)).rangeMoved n k

/-- The current core's load receives its value. -/
def State.delivered (s : State) (dst : LoadDst) (z : BitVec 2) (v : Nat) : State := s.setCore (s.core.deliver dst z v)

/-- Whether an unretired vector instruction of a core writes a granule that holds one of some offsets (R57, R231). -/
def Core.granulePending (k : Core) (sp : Space) (offs : List Nat) : Bool :=
  k.vq.any fun v => (v.writes ++ v.landed).any fun w => w.space == sp && offs.any fun o => o / 32 == w.off / 32

/-- A load whose address has been checked (R134, R136). A load outside TCM and the scratchpad waits for its home; on
another die, at a host port or at a sleeping stack it takes its place in the queue. DESIGN CHOICE: a load of the scratchpad
is forwarded a store of the core's own before the page map is looked at (notes/assumptions/72). -/
def loadAt (s : State) (ea : Word) (z : BitVec 2) (dst : LoadDst) : Target → Result
  | .tcm off =>
    match forward s.core.stores .tcm ea.toNat (sizeBytes z) with
    | .wait => .next s
    | .value v => .next (s.delivered dst z v)
    | .none => .next (s.delivered dst z (Memory.readNat s.core.tcm off (sizeBytes z)))
  | .spm off =>
    if s.core.granulePending .spm [off] then .next s
    else match forward s.core.stores .spm off (sizeBytes z) with
    | .wait => .next s
    | .value v => .next (s.delivered dst z v)
    | .none =>
      if s.granuleBad s.cur .spm off then trap s causeDataError ea
      else match s.readTeam s.cur .spm off (sizeBytes z) with
      | none => .next s
      | some (s', v) => .next (s'.delivered dst z v)
  | .mem x =>
    match forward s.core.stores .phys x.pa (sizeBytes z) with
    | .wait => .next s
    | .value v => .next (s.delivered dst z v)
    | .none =>
      let ld : PendLoad := { dst := dst, size := z, pa := x.pa, va := ea, asid := s.core.csr.asid, epoch := x.epoch,
                             under := s.sealFor x.buf, stamp := s.tick }
      let s' := s.setCore { s.core with wait := .load ld }
      match wayQueue s.cur x.pa, s.stackQueue x.pa with
      | some q, _ => .next (s'.enqueue q s.cur .loadMark)
      | none, some st => .next (if s.stackFull st then s else s'.enqueue (.stack st) s.cur .loadMark)
      | none, none => .next s'

/-- A load: checks, then the access (R134). -/
def loadFrom (s : State) (ea : Word) (z : BitVec 2) (dst : LoadDst) : Result :=
  match resolve s ea (sizeBytes z) .read with
  | (s', .fault c x) => trap s' c x
  | (s', .stall) => .next s'
  | (s', .ok t) => loadAt s' ea z dst t

/-- ldb (R133). -/
def execLdb (d a : BitVec 5) (i : BitVec 16) (s : State) : Result := loadFrom s (s.ea a i) 0 (.g d true)

/-- ldbu (R133). -/
def execLdbu (d a : BitVec 5) (i : BitVec 16) (s : State) : Result := loadFrom s (s.ea a i) 0 (.g d false)

/-- ldh (R133). -/
def execLdh (d a : BitVec 5) (i : BitVec 16) (s : State) : Result := loadFrom s (s.ea a i) 1 (.g d true)

/-- ldhu (R133). -/
def execLdhu (d a : BitVec 5) (i : BitVec 16) (s : State) : Result := loadFrom s (s.ea a i) 1 (.g d false)

/-- ldw (R133). -/
def execLdw (d a : BitVec 5) (i : BitVec 16) (s : State) : Result := loadFrom s (s.ea a i) 2 (.g d true)

/-- ldwu (R133). -/
def execLdwu (d a : BitVec 5) (i : BitVec 16) (s : State) : Result := loadFrom s (s.ea a i) 2 (.g d false)

/-- ld (R133). -/
def execLd (d a : BitVec 5) (i : BitVec 16) (s : State) : Result := loadFrom s (s.ea a i) 3 (.g d false)

/-- fldw (R133). -/
def execFldw (d a : BitVec 5) (i : BitVec 16) (s : State) : Result := loadFrom s (s.ea a i) 2 (.f d)

/-- fldd (R133). -/
def execFldd (d a : BitVec 5) (i : BitVec 16) (s : State) : Result := loadFrom s (s.ea a i) 3 (.f d)

/-! ## Stores -/

/-- What issuing a store gives: it is in the buffer or dropped, it waits, or it faults. -/
inductive Issued where
  | done (s : State)
  | wait (s : State)
  | fault (s : State) (cause : BitVec 8) (aux : Word)

/-- A store entry of a kind at an address. -/
def plainStore (k : StoreKind) (z : BitVec 2) (addr : Nat) (data va : Word) (asid : BitVec 12) (epoch : BitVec 16)
    (buf : BitVec 12) : StoreEntry :=
  { released := false, sent := false, kind := k, size := z, addr := addr, data := data, amo := none, cmp := 0, va := va, asid := asid,
    epoch := epoch, buf := buf }

/-- A store whose address has been checked enters the buffer; one to no accessible scratchpad location is dropped
(R48, R134). -/
def storeAt (s : State) (ea : Word) (z : BitVec 2) (data : Word) : Target → Issued
  | .tcm _ => .done (s.setCore (s.core.pushStore (plainStore .tcm z ea.toNat data ea 0 0 0)))
  | .spm off =>
    match s.place s.cur .spm off with
    | .stall => .wait s
    | .out code => .done (s.outOfRange s.cur code .spm off)
    | .ok _ => .done (s.setCore (s.core.pushStore (plainStore .spm z off data ea 0 0 0)))
  | .mem x =>
    .done (s.setCore (s.core.pushStore (plainStore .phys z x.pa data ea s.core.csr.asid x.epoch x.buf)))

/-- A store: a free entry, checks, then the buffer (R134, R135). -/
def storeTo (s : State) (ea : Word) (z : BitVec 2) (data : Word) : Issued :=
  if !s.core.storeRoom then .wait s
  else match resolve s ea (sizeBytes z) .write with
  | (s', .fault c x) => .fault s' c x
  | (s', .stall) => .wait s'
  | (s', .ok t) => storeAt s' ea z data t

/-- A store instruction (R133). -/
def storeOp (s : State) (ea : Word) (z : BitVec 2) (data : Word) : Result :=
  match storeTo s ea z data with
  | .done s' => .next s'.retire
  | .wait s' => .next s'
  | .fault s' c x => trap s' c x

/-- stb (R133). -/
def execStb (d a : BitVec 5) (i : BitVec 16) (s : State) : Result := storeOp s (s.ea a i) 0 (s.g d)

/-- sth (R133). -/
def execSth (d a : BitVec 5) (i : BitVec 16) (s : State) : Result := storeOp s (s.ea a i) 1 (s.g d)

/-- stw (R133). -/
def execStw (d a : BitVec 5) (i : BitVec 16) (s : State) : Result := storeOp s (s.ea a i) 2 (s.g d)

/-- st (R133). -/
def execSt (d a : BitVec 5) (i : BitVec 16) (s : State) : Result := storeOp s (s.ea a i) 3 (s.g d)

/-- fstw (R133). -/
def execFstw (d a : BitVec 5) (i : BitVec 16) (s : State) : Result := storeOp s (s.ea a i) 2 (s.f d)

/-- fstd (R133). -/
def execFstd (d a : BitVec 5) (i : BitVec 16) (s : State) : Result := storeOp s (s.ea a i) 3 (s.f d)

/-! ## Ranges of registers -/

/-- Registers of a range. -/
def rangeLen (d b : BitVec 5) : Nat := b.toNat + 1 - d.toNat

/-- The next doubleword of a range at `ea`: register `k` of `n` (R137, R138). DESIGN CHOICE: a doubleword counts as stored
and accepted (R114) once the store buffer holds it, so that it may still be there when a trap is taken
(notes/assumptions/83). -/
def saveOne (s : State) (ea v : Word) (n k : Nat) : Result :=
  match storeTo s ea 3 v with
  | .done s' => .next (s'.setCore (s'.core.rangeMoved n k))
  | .wait s' => .next s'
  | .fault s' c x => trap s' c x

/-- savem: one doubleword per step of the core, from MPROG on (R137). -/
def saveRange (s : State) (i : Instr) (d a b : BitVec 5) (reg : BitVec 5 → Word) : Result :=
  let n := rangeLen d b
  let k := s.core.csr.mprog.toNat
  if b.toNat < d.toNat then trapIllegal s i
  else if (s.g a).toNat % 8 ≠ 0 then trap s causeMisaligned (s.g a)
  else if n ≤ k then .next (s.setCore (s.core.rangeMoved n k))
  else saveOne s (s.g a + .ofNat 64 (8 * k)) (reg (d + .ofNat 5 k)) n k

/-- loadm: one doubleword per step of the core, from MPROG on (R137). -/
def loadRange (s : State) (i : Instr) (d a b : BitVec 5) (bad : Bool) (dst : Nat → Nat → LoadDst) : Result :=
  let n := rangeLen d b
  let k := s.core.csr.mprog.toNat
  if b.toNat < d.toNat ∨ bad then trapIllegal s i
  else if (s.g a).toNat % 8 ≠ 0 then trap s causeMisaligned (s.g a)
  else if n ≤ k then .next (s.setCore (s.core.rangeMoved n k))
  else loadFrom s (s.g a + .ofNat 64 (8 * k)) 3 (dst n k)

/-- savem of g registers (R137). -/
def execSavemG (d a b : BitVec 5) (s : State) : Result := saveRange s (.savemG d a b) d a b s.g

/-- savem of f registers (R137). -/
def execSavemF (d a b : BitVec 5) (s : State) : Result := saveRange s (.savemF d a b) d a b s.f

/-- loadm of g registers: a base inside the range is illegal (R137). -/
def execLoadmG (d a b : BitVec 5) (s : State) : Result :=
  loadRange s (.loadmG d a b) d a b (decide (d.toNat ≤ a.toNat) && decide (a.toNat ≤ b.toNat)) (.rangeG d)

/-- loadm of f registers (R137). -/
def execLoadmF (d a b : BitVec 5) (s : State) : Result := loadRange s (.loadmF d a b) d a b false (.rangeF d)

/-! ## Fences -/

/-- Whether earlier stores of a kind are gone from the buffer. -/
def Core.storesDone (k : Core) (kind : StoreKind) : Bool := k.stores.all fun e => decide (e.kind ≠ kind)

/-- FENCE.CORE's condition (R54). -/
def Core.coreFenced (k : Core) : Bool := k.storesDone .tcm

/-- FENCE.TEAM's and FENCE.CLUSTER's condition: scratchpad stores and vector accesses are performed (R54, R57). -/
def Core.clusterFenced (k : Core) : Bool := k.storesDone .spm && k.vq.isEmpty

/-- FENCE.DIE's condition (R54). -/
def Core.dieFenced (k : Core) : Bool := k.stores.isEmpty && k.vq.isEmpty

/-- Whether a queued request is a store or shipped operation of a core itself, short of its home; a store at a host port is
performed at its home when the host completes it (R54). -/
def Transit.unperformed (t : Transit) (c : CoreId) (host : Bool) : Bool :=
  t.core == c && t.item != .loadMark && t.item.copied.isNone &&
  match t.queue with
  | .hostPort _ => host
  | _ => true

/-- FENCE.PACKAGE's condition (R54). -/
def State.packageFenced (s : State) (c : CoreId) : Bool :=
  (s.coreAt c).dieFenced && !s.transit.any (fun t => t.unperformed c false) &&
  !s.ships.any (fun o => o.core == c && o.result.isNone)

/-- The release scope of a command header. -/
def releaseScope (w : CmdWord) : Option Scope :=
  if w.w0.getLsbD 19 then scopeOf (w.w0.toNat / 65536 % 8) else none

/-- FENCE.FABRIC's condition (R54). -/
def State.fabricFenced (s : State) (c : CoreId) : Bool :=
  s.packageFenced c && !s.cmds.any (fun x => x.core == c && x.engine == .col && releaseScope x.word == some .fabric)

/-- FENCE.SYSTEM's condition (R54). -/
def State.systemFenced (s : State) (c : CoreId) : Bool :=
  s.fabricFenced c && !s.transit.any (fun t => t.unperformed c true)

/-- A fence retires once its condition holds (R54, R139). -/
def fence (s : State) (done : Bool) : Result := if done then .next s.retire else .next s

/-- fence.core: later fetches see the stores to TCM (R46, R54, notes/assumptions/6). -/
def execFenceCore (s : State) : Result :=
  if s.core.coreFenced then .next (s.setCore { s.core with itcm := s.core.tcm }).retire else .next s

/-- fence.team (R54). -/
def execFenceTeam (s : State) : Result := fence s s.core.clusterFenced

/-- fence.cluster (R54). -/
def execFenceCluster (s : State) : Result := fence s s.core.clusterFenced

/-- fence.die (R54). -/
def execFenceDie (s : State) : Result := fence s s.core.dieFenced

/-- fence.package (R54). -/
def execFencePackage (s : State) : Result := fence s (s.packageFenced s.cur)

/-- fence.fabric (R54). -/
def execFenceFabric (s : State) : Result := fence s (s.fabricFenced s.cur)

/-- fence.system (R54). -/
def execFenceSystem (s : State) : Result := fence s (s.systemFenced s.cur)

/-! ## Events -/

/-- An event that is not enabled changes nothing (notes/assumptions/28). -/
def fire (s : State) (r : Option State) : Result := .next (r.getD s)

/-- The first unreleased entry, the one before it, and how many come before it. -/
def nextRelease : Option StoreEntry → Nat → List StoreEntry → Option (Option StoreEntry × Nat × StoreEntry)
  | _, _, [] => none
  | prev, n, e :: es => if e.released then nextRelease (some e) (n + 1) es else some (prev, n, e)

/-- Marks the first unreleased entry as released. -/
def markReleased : List StoreEntry → List StoreEntry := replaceFirst (fun e => !e.released) (fun e => { e with released := true })

/-- The store buffer releases its next entry: behind an unaccepted one only into the same first queue, and after the
core's earlier vector writes (R57, R135). -/
def evStoreRelease (c : CoreId) (s : State) : Option State :=
  let k := s.coreAt c
  match nextRelease none 0 k.stores with
  | none => none
  | some (prev, n, e) =>
    let ok := match prev with
      | none => true
      | some p => p.firstQueue s (dieOfCore c) == e.firstQueue s (dieOfCore c)
    if ok && k.vq.all (fun v => decide (n < v.before)) then some (s.setCoreAt c { k with stores := markReleased k.stores }) else none

/-- STORE_RELEASE (R135). -/
def execStoreRelease (c : CoreId) (s : State) : Result := fire s (evStoreRelease c s)

/-- Whether an entry leaves over a gateway to be accepted at its home alone: an amo or ship without reply (R327). -/
def StoreEntry.acceptedFar (e : StoreEntry) (c : CoreId) : Bool :=
  e.amo.isSome && match wayQueue c e.addr with
    | some (.gateway _ _) => true
    | _ => false

/-- The oldest entry of a core's store buffer that has not left it is accepted, or leaves over a gateway to be accepted at
its home (R52, R135, R327). DEDUCED: a store behind one that has left so, over the same gateway, is accepted there before
it (notes/assumptions/82). -/
def evCoreAccept (c : CoreId) (s : State) : Option State :=
  let k := s.coreAt c
  match firstAt (!·.sent) 0 k.stores with
  | none => none
  | some (n, e) =>
    let k' := k.acceptStore n
    let s' := s.setCoreAt c k'
    let bs := leBytes (sizeBytes e.size) e.data.toNat
    if !e.released then none
    else match e.kind with
    | .tcm => some (s.setCoreAt c { k' with tcm := Memory.writeBytes k.tcm (e.addr - Config.tcmBase) bs })
    | .spm => s'.writeTeam c .spm e.addr bs
    | .phys =>
      (if e.acceptedFar c then s.setCoreAt c { k with stores := k.stores.set n { e with sent := true } } else s').depart c
        e.addr (e.item s c)

/-- STORE_ACCEPT (R52). -/
def execStoreAccept (q : StoreSource) (s : State) : Result :=
  fire s (match q with
    | .core c => evCoreAccept c s
    | .queue q => s.advance q)

/-- A load is performed at its home (R51, R134, R320): its value, or a precise trap. -/
def serveLoad (s : State) (c : CoreId) (ld : PendLoad) : Option State :=
  if s.lineHeld ld.pa || !s.awake ld.pa then none
  else match s.lineFault ld.pa ld.under with
  | some cause => some ((s.countBuddy ld.pa).trapAt c cause ld.va false)
  | none =>
    some ((s.countBuddy ld.pa).setCoreAt c ((s.coreAt c).deliver ld.dst ld.size (s.readPhys ld.pa (sizeBytes ld.size))))

/-- A waiting load is served; one that took a place in a queue only when it is at the head. -/
def evLoadServed (c : CoreId) (s : State) : Option State :=
  match (s.coreAt c).wait with
  | .load ld =>
    match s.transit.find? (fun t => t.core == c && t.item == .loadMark) with
    | none => serveLoad s c ld
    | some m =>
      if (s.transit.find? (fun t => t.queue == m.queue)) != some m then none
      else
        let s' := s.pop m.queue
        match m.queue, s'.stackQueue ld.pa with
        | .gateway _ _, some st => if s'.stackFull st then none else some (s'.enqueue (.stack st) c .loadMark)
        | _, _ => serveLoad s' c ld
  | _ => none

/-- LOAD_SERVED (R51, R134). -/
def execLoadServed (c : CoreId) (s : State) : Result := fire s (evLoadServed c s)

end Sys2Proof.Machine
end

