-- ==== Sys2Proof/Machine/Claim.lean ====
section
/-! DEFINITION. The Claim Unit: claims, the banker's check, grants, releases, relocation and zeroing (spec/08). -/

namespace Sys2Proof.Machine

/-! ## Counts -/

/-- No units. -/
def Counts.zero : Counts := ⟨0, 0, 0, 0⟩

/-- Sum of two counts. -/
def Counts.add (a b : Counts) : Counts := ⟨a.lane + b.lane, a.page + b.page, a.board + b.board, a.acc + b.acc⟩

/-- Difference of two counts. -/
def Counts.sub (a b : Counts) : Counts := ⟨a.lane - b.lane, a.page - b.page, a.board - b.board, a.acc - b.acc⟩

/-- Whether every class of `a` fits in `b`. -/
def Counts.fits (a b : Counts) : Bool :=
  decide (a.lane ≤ b.lane) && decide (a.page ≤ b.page) && decide (a.board ≤ b.board) && decide (a.acc ≤ b.acc)

/-- The units of a cluster (R168). -/
def Counts.total : Counts := ⟨8, 128, 6, 256⟩

/-- The counts of a claim vector (R173). -/
def Counts.ofVector (v : Nat) : Counts := ⟨fld v 0 4, fld v 8 8, fld v 16 3, fld v 24 9⟩

/-- The claim vector of counts (R173). -/
def Counts.vector (c : Counts) : Nat := c.lane + c.page * 2 ^ 8 + c.board * 2 ^ 16 + c.acc * 2 ^ 24

/-- Reserved bits of a claim vector (R173). -/
def vectorReserved (v : Nat) : Bool := fld v 4 4 != 0 || fld v 19 5 != 0 || v / 2 ^ 33 != 0

/-- The lowest class of a claim that exceeds the cluster (R182). -/
def Counts.overTotal (c : Counts) : Option Nat :=
  if 8 < c.lane then some 0 else if 128 < c.page then some 1 else if 6 < c.board then some 2
  else if 256 < c.acc then some 3 else none

/-- Lots a core holds (R176). -/
def Core.lots (k : Core) : Nat := k.csr.vlen.toNat / 8

/-- Lots of a resident team: those of its cores, or what a freed core keeps while the team is pre-empted (R176,
R189). -/
def State.teamLots (s : State) (k : ClusterId) (t : Team) : Nat :=
  if t.status = .evicted then 0
  else ((List.range t.cores.length).map fun i =>
    match t.lanes.find? (·.tcore == i) with
    | some r => r.lots
    | none => (s.coreAt (coreOf k (t.cores.getD i 0))).lots).foldl (· + ·) 0

/-- Bank groups held under a token by a team slot. -/
def Cluster.boards (x : Cluster) (t : Slot) : Nat := (x.groups.toList.filter (fun g => g.holder.any (·.1 == t))).length

/-- Allocation of a team slot (R176). -/
def State.allocation (s : State) (k : ClusterId) (t : Slot) : Counts :=
  match s.team k t with
  | none => .zero
  | some x => ⟨s.teamLots k x, x.pages.length, (s.cl k).boards t, x.blocks.length⟩

/-- Max of a team slot (R174, R176). -/
def State.maxClaim (s : State) (k : ClusterId) (t : Slot) : Counts := ((s.team k t).bind (·.claim)).getD .zero

/-- The occupied team slots. -/
def State.resident (s : State) (k : ClusterId) : List Slot := (List.finRange 8).filter fun t => (s.team k t).isSome

/-- Available of a cluster (R176). -/
def State.available (s : State) (k : ClusterId) : Counts :=
  Counts.total.sub ((s.resident k).foldl (fun a t => a.add (s.allocation k t)) .zero)

/-- Safe(): teams that can finish give their allocation back until none is left (R176). Each team is given as its
need and its allocation. -/
def safeFrom : (fuel : Nat) → (work : Counts) → List (Counts × Counts) → Bool
  | _, _, [] => true
  | 0, _, _ :: _ => false
  | n + 1, work, l =>
    match l.find? (fun x => x.1.fits work) with
    | none => false
    | some x => safeFrom n (work.add x.2) (dropFirst (fun y => y.1.fits work) l)

/-- The decision of R176 on a request: 0 granted, 1 unsafe, 2 not available. -/
def State.bankerDecide (s : State) (k : ClusterId) (u : Slot) (req : Counts) : Nat :=
  let av := s.available k
  if !req.fits av then 2
  else
    let teams := (s.resident k).map fun t =>
      let a := if t = u then (s.allocation k t).add req else s.allocation k t
      ((s.maxClaim k t).sub a, a)
    if safeFrom 8 (av.sub req) teams then 0 else 1

/-! ## Request words -/

/-- CLASS, COUNT and BASE of a request word (R180). -/
structure Request where
  cls : Nat
  count : Nat
  base : Nat
  deriving DecidableEq, Repr

/-- The fields of a request word (R180). -/
def Request.of (w : Word) : Request := ⟨fld w.toNat 0 2, fld w.toNat 8 9, fld w.toNat 24 8⟩

/-- Whether a request word is malformed, apart from what is mapped (R180). -/
def malformed (w : Word) : Bool :=
  let r := Request.of w
  w.toNat / 2 ^ 32 != 0 || fld w.toNat 17 7 != 0 || fld w.toNat 2 6 != 0 || r.cls == 0 || r.count == 0 ||
  (r.cls == 1 && decide (128 < r.base + r.count)) ||
  (r.cls == 2 && (r.count != 1 || r.base % 16 != 0 || decide (112 < r.base))) ||
  (r.cls == 3 && decide (256 < r.base + r.count))

/-- Team pages or blocks that a request names: BASE on, `n` of them. -/
def Request.units (r : Request) : Nat := if r.cls = 2 then 16 else r.count

/-- Whether a map holds an index. -/
def mapped (l : List (Nat × Nat)) (i : Nat) : Bool := l.any (·.1 == i)

/-- The map a class names. -/
def Team.mapOf (x : Team) (cls : Nat) : List (Nat × Nat) := if cls = 3 then x.blocks else x.pages

/-- Whether a named unit is already mapped (R180). -/
def Request.overlaps (r : Request) (x : Team) : Bool :=
  (x.mapOf r.cls).any fun e => decide (r.base ≤ e.1) && decide (e.1 < r.base + r.units)

/-- The counts that a request asks for (R183). -/
def Request.counts (r : Request) : Counts :=
  if r.cls = 1 then ⟨0, r.count, 0, 0⟩ else if r.cls = 2 then ⟨0, 16, 1, 0⟩ else ⟨0, 0, 0, r.count⟩

/-- The class in which a request passes the claim, in the order BOARD, PAGE, ACC (R183). -/
def overClaim (alloc req max : Counts) : Option Nat :=
  if req.board ≠ 0 ∧ max.board < alloc.board + req.board then some 2
  else if req.page ≠ 0 ∧ max.page < alloc.page + req.page then some 1
  else if req.acc ≠ 0 ∧ max.acc < alloc.acc + req.acc then some 3
  else none

/-! ## Placement of grants -/

/-- Whether any team of a cluster maps a physical page or block. -/
def Cluster.pageUsed (x : Cluster) (p : Nat) : Bool := x.teams.any fun t => t.any (fun y => y.pages.any (·.2 == p))

/-- Whether any team maps a physical block. -/
def Cluster.blockUsed (x : Cluster) (b : Nat) : Bool := x.teams.any fun t => t.any (fun y => y.blocks.any (·.2 == b))

/-- The bank group of a number. -/
def Cluster.group (x : Cluster) (g : Nat) : Group := x.groups.get ⟨g % 8, by omega⟩

/-- Replaces a bank group. -/
def Cluster.setGroup (x : Cluster) (g : Nat) (v : Group) : Cluster :=
  { x with groups := x.groups.set (g % 8) v (by omega) }

/-- Whether a page is free: in an unpinned group, and mapped by no team (R185). -/
def Cluster.pageFree (x : Cluster) (p : Nat) : Bool := (x.group (p / 16)).holder.isNone && !x.pageUsed p

/-- Whether a started relocation reserves a page as its target. -/
def Cluster.reserved (x : Cluster) (p : Nat) : Bool := x.reloc.any (·.2 == some p)

/-- The free pages, ascending (R185). -/
def Cluster.freePages (x : Cluster) : List Nat := (List.range 128).filter x.pageFree

/-- The free pages in the order in which they are taken. DESIGN CHOICE: the target of a relocation under way is taken
last (notes/assumptions/61). -/
def Cluster.openPages (x : Cluster) : List Nat :=
  x.freePages.filter (fun p => !x.reserved p) ++ x.freePages.filter x.reserved

/-- The pages that a grant of `n` takes, ascending (R185). -/
def Cluster.takePages (x : Cluster) (n : Nat) : List Nat := x.freePages.filter (x.openPages.take n).contains

/-- The free blocks, ascending (R185). -/
def Cluster.freeBlocks (x : Cluster) : List Nat := (List.range 256).filter fun b => !x.blockUsed b

/-- Pairs team indices from `base` on with physical units. -/
def pairUp (base : Nat) : List Nat → List (Nat × Nat)
  | [] => []
  | p :: ps => (base, p) :: pairUp (base + 1) ps

/-- Occupied pages of a group. -/
def Cluster.occupied (x : Cluster) (g : Nat) : List Nat := ((List.range 16).map (16 * g + ·)).filter x.pageUsed

/-- The unpinned group with the fewest occupied pages, the highest-numbered of equals (R186). -/
def Cluster.boardGroup (x : Cluster) : Option Nat :=
  ((List.range 8).filter (fun g => (x.group g).holder.isNone)).foldl
    (fun best g => match best with
      | none => some g
      | some b => if (x.occupied g).length ≤ (x.occupied b).length then some g else some b) none

/-- The team of a slot with its maps changed. -/
def Cluster.mapTeam (x : Cluster) (t : Slot) (f : Team → Team) : Cluster :=
  { x with teams := x.teams.set t.val ((x.teams[t]).map f) t.isLt }

/-- The page that a relocation out of a group takes: the lowest-numbered free one outside it (R186). -/
def Cluster.target (x : Cluster) (g : Nat) : Option Nat := (x.openPages.filter (· / 16 != g)).head?

/-- Starts a group's next relocation where none is under way: its target is reserved, and the group's pages stand behind
those of relocations that started before (R186). DESIGN CHOICE: the target is fixed at the start
(notes/assumptions/61). -/
def Cluster.startReloc (x : Cluster) (g : Nat) : Cluster :=
  let mine := x.reloc.filter (·.1 / 16 == g)
  match mine, x.target g with
  | (p, none) :: ps, some q => { x with reloc := x.reloc.filter (·.1 / 16 != g) ++ (p, some q) :: ps }
  | _, _ => x

/-- Maps the units of a granted request (R185, R186). -/
def Cluster.grant (x : Cluster) (t : Slot) (r : Request) : Cluster :=
  if r.cls = 1 then x.mapTeam t fun y => { y with pages := y.pages ++ pairUp r.base (x.takePages r.count) }
  else if r.cls = 3 then x.mapTeam t fun y => { y with blocks := y.blocks ++ pairUp r.base (x.freeBlocks.take r.count) }
  else match x.boardGroup with
    | none => x
    | some g =>
      let occ := (x.occupied g).reverse
      let x' := (x.setGroup g { Group.reset with holder := some (t, .ofNat 3 (r.base / 16)),
                                                 spare := (x.group g).spare, rebuilding := (x.group g).rebuilding }).mapTeam t
        fun y => { y with pages := y.pages ++ pairUp r.base ((List.range 16).map (16 * g + ·)) }
      { x' with reloc := x'.reloc ++ (occ.filter fun p => !x'.reloc.any (·.1 == p)).map (·, none) }.startReloc g

/-- Maps the units of a granted request in the package. -/
def State.grantUnits (s : State) (k : ClusterId) (t : Slot) (r : Request) : State := s.setCl k ((s.cl k).grant t r)

/-! ## claim, acq, acq.t -/

/-- Whether a blocked request would be granted now: Available has grown, and the re-decision of the list comes before
any later request (R178). -/
def State.redecideDue (s : State) (k : ClusterId) : Bool :=
  (s.cl k).blocked.any fun b => s.bankerDecide k b.team b.req == 0

/-- Whether a request of the current core waits: the unit has decided in this cycle for a core of a higher number, so
that it counts as one of a later cycle (R179), or blocked requests go first (R178). -/
def State.claimLate (s : State) : Bool :=
  (s.cl s.curCluster).decided.any (fun d => d.1 == s.now && decide (corenoOf s.cur < d.2)) || s.redecideDue s.curCluster

/-- The unit decides for the current core in this cycle. -/
def State.noteDecision (s : State) : State :=
  s.setCl s.curCluster { s.cl s.curCluster with decided := some (s.now, corenoOf s.cur) }

/-- A request of the current core, one at a time and in ascending CORENO within a cycle (R179). -/
def claimTurn (s : State) (go : State → Result) : Result := if s.claimLate then .next s else go s.noteDecision

/-- claim, at its turn (R182). -/
def declareClaim (a : BitVec 5) (s : State) : Result :=
  let v := (s.g a).toNat
  match s.core.slot, s.teamOf s.cur with
  | some t, some x =>
    if vectorReserved v then trapReserved s (.claim a)
    else if x.claim.isSome then trap s causeClaimOrder 0
    else match (Counts.ofVector v).overTotal with
      | some c => trap s causeClaimTotal (.ofNat 64 c)
      | none => .next (s.setTeam s.curCluster t (some { x with claim := some (.ofVector v) })).retire
  | _, _ => if vectorReserved v then trapReserved s (.claim a) else .next s.retire

/-- claim (R182). -/
def execClaim (a : BitVec 5) (s : State) : Result := claimTurn s (declareClaim a)

/-- The checks of acq and acq.t, then what follows them (R183). -/
def acquire (s : State) (i : Instr) (w : Word) (go : Slot → Request → Result) : Result :=
  let r := Request.of w
  match s.core.slot, s.teamOf s.cur with
  | some t, some x =>
    if malformed w || r.overlaps x then trapReserved s i
    else match x.claim with
      | none => trap s causeClaimMissing (.ofNat 64 r.cls)
      | some max =>
        match overClaim (s.allocation s.curCluster t) r.counts max with
        | some c => trap s causeClaimExceeded (.ofNat 64 c)
        | none => go t r
  | _, _ => if malformed w then trapReserved s i else trap s causeClaimMissing (.ofNat 64 r.cls)

/-- Puts a request of the current core into the blocked list; the core waits (R178). -/
def State.block (s : State) (t : Slot) (req : Counts) (kind : RequestKind) : State :=
  let x := s.cl s.curCluster
  (s.setCl s.curCluster { x with
    blocked := x.blocked ++ [{ core := corenoOf s.cur, team := t, req := req, kind := kind }] }).setCore
      { s.core with wait := .acquire }

/-- acq (R183). -/
def execAcq (a : BitVec 5) (s : State) : Result :=
  claimTurn s fun s => acquire s (.acq a) (s.g a) fun t r =>
    if s.bankerDecide s.curCluster t r.counts = 0 then .next (s.grantUnits s.curCluster t r).retire
    else .next (s.block t r.counts (.units (s.g a)))

/-- acq.t (R183). -/
def execAcqT (d a : BitVec 5) (s : State) : Result :=
  claimTurn s fun s => acquire s (.acqT d a) (s.g a) fun t r =>
    let st := s.bankerDecide s.curCluster t r.counts
    finishG (if st = 0 then s.grantUnits s.curCluster t r else s) d (.ofNat 64 st)

/-! ## rel, relall -/

/-- Whether a team page is held under a board token. -/
def Cluster.underBoard (x : Cluster) (t : Slot) (teamPage : Nat) : Bool :=
  x.groups.any fun g => g.holder.any (fun h => h.1 == t && h.2.toNat == teamPage / 16)

/-- Whether a release names a unit that is not held as it says (R184). -/
def Request.unheld (r : Request) (x : Cluster) (t : Slot) (y : Team) : Bool :=
  let idx := (List.range r.units).map (r.base + ·)
  idx.any (fun i => !mapped (y.mapOf r.cls) i) ||
  (r.cls == 1 && idx.any (x.underBoard t)) || (r.cls == 2 && !x.underBoard t r.base)

/-- Releases the bank group of a team's board; of its relocations only one under way stays (R184, R186). -/
def Cluster.unpin (x : Cluster) (t : Slot) (b : Nat) : Cluster :=
  let mine := fun (p : Nat) => (x.group (p / 16)).holder == some (t, .ofNat 3 b)
  { x with
    groups := x.groups.map fun g =>
      if g.holder == some (t, .ofNat 3 b) then { Group.reset with spare := g.spare, rebuilding := g.rebuilding } else g,
    reloc := x.reloc.filter fun e => !mine e.1 || e.2.isSome }

/-- DESIGN CHOICE: pages whose occupant has released them leave the relocations at once, also one under way, and the next
of their groups start (R186, notes/assumptions/61). -/
def Cluster.leaveReloc (x : Cluster) (ps : List Nat) : Cluster :=
  let y := { x with reloc := x.reloc.filter fun e => !ps.contains e.1 }
  ((ps.map (· / 16)).eraseDups).foldl Cluster.startReloc y

/-- Unmaps team pages, those of a board together with its token, and starts their zeroing (R172, R184). A page that was
mapped under the token is zeroed unless an earlier occupant still maps it (R186). DESIGN CHOICE: the pages of one release
are zeroed in the order of the team's map (notes/assumptions/74). -/
def Cluster.dropPages (x : Cluster) (t : Slot) (y : Team) (idx : List Nat) : Cluster :=
  let gone := y.pages.filter (fun e => idx.contains e.1)
  let own := (gone.filter fun e => !x.underBoard t e.1).map (·.2)
  let boards := ((idx.filter (fun i => x.underBoard t i)).map (· / 16)).eraseDups
  let x1 := boards.foldl (fun z b => z.unpin t b) x
  let x2 := x1.mapTeam t fun z => { z with pages := z.pages.filter (fun e => !idx.contains e.1) }
  let zero := (gone.map (·.2)).eraseDups.filter fun p => own.contains p || !x2.pageUsed p
  ({ x2 with zeroing := x2.zeroing ++ zero.map ZeroUnit.page } : Cluster).leaveReloc own

/-- Unmaps team blocks and starts their zeroing (R172, R184). -/
def Cluster.dropBlocks (x : Cluster) (t : Slot) (y : Team) (idx : List Nat) : Cluster :=
  let gone := y.blocks.filter (fun e => idx.contains e.1)
  let x' := x.mapTeam t fun z => { z with blocks := z.blocks.filter (fun e => !idx.contains e.1) }
  { x' with zeroing := x'.zeroing ++ gone.map (fun e => .block e.2) }

/-- Releases the units a request names. -/
def Cluster.release (x : Cluster) (t : Slot) (y : Team) (r : Request) : Cluster :=
  let idx := (List.range r.units).map (r.base + ·)
  if r.cls = 3 then x.dropBlocks t y idx else x.dropPages t y idx

/-- Releases every page, board and block of a team (R184, R189). DESIGN CHOICE: pages are zeroed before blocks
(notes/assumptions/74). -/
def Cluster.releaseAll (x : Cluster) (t : Slot) (y : Team) : Cluster :=
  (x.dropPages t y (y.pages.map (·.1))).dropBlocks t y (y.blocks.map (·.1))

/-- The commands of a team that have not decremented their counters, those saved by a pre-emption among them (R184,
R318). -/
def State.pendingCmds (s : State) (k : ClusterId) (t : Slot) (y : Team) : List Cmd :=
  s.cmds.filter (fun c => clusterOf c.core == k && (s.coreAt c.core).slot == some t) ++ y.saved

/-- Whether commands of a team numbered below `n` have not all decremented their counters (R184). -/
def State.teamCommands (s : State) (k : ClusterId) (t : Slot) (y : Team) (n : Nat) : Bool :=
  (s.pendingCmds k t y).any fun c => decide (c.seq < n)

/-- A group that a release is about to unpin, cleared as arr.clrboard clears it. A started command that still names the
board was queued behind the release and does not delay it (R184, R260). -/
def Group.cleared (g : Group) : Group := if g.mode = .board then { g with mode := .clearing, cmd := none } else g

/-- Whether a release waits for a group: to be cleared, or for a conversion that a restore runs. A conversion for a
command, which was queued behind the release, does not delay it (R184, R191, notes/assumptions/62). -/
def Group.delays (g : Group) : Bool :=
  g.mode == .board || g.mode == .clearing || (g.mode == .converting && g.cmd.isNone)

/-- The groups that a team holds as the boards of some team pages. -/
def Cluster.releasing (x : Cluster) (t : Slot) (idx : List Nat) (g : Group) : Bool :=
  g.holder.any fun h => h.1 == t && idx.any fun i => i / 16 == h.2.toNat && x.underBoard t i

/-- Clears the boards among some team pages (R184). -/
def Cluster.clearBoards (x : Cluster) (t : Slot) (idx : List Nat) : Cluster :=
  { x with groups := x.groups.map fun g => if x.releasing t idx g then g.cleared else g }

/-- The commands whose conversions run on the boards among some team pages, with the slots. -/
def Cluster.converters (x : Cluster) (t : Slot) (idx : List Nat) : List (Nat × Nat) :=
  x.groups.toList.filterMap fun g =>
    if x.releasing t idx g && g.mode == .converting then g.cmd.bind fun q => g.holder.map fun h => (q, h.2.toNat) else none

/-- A conversion whose board is released is over, the rest of its reads noted as R48 says (R48, R184). DESIGN CHOICE: its
command completes with no fault (notes/assumptions/62). -/
def State.endConversion (s : State) (e : Nat × Nat) : State :=
  match s.cmd e.1 with
  | none => s
  | some x => (s.outOfRange x.core 1 .spm (e.2 * 262144)).setCmd e.1 fun y => { y with phase := .finished, result := 0 }

/-- A release waits for the core's own writes and the team's earlier commands, clears its boards, then acts (R184).
`idx` lists the team pages that it names. -/
def releaseWhen (s : State) (t : Slot) (y : Team) (idx : List Nat) (act : Cluster → Cluster) : Result :=
  let n := s.core.relSeq.getD s.nextSeq
  let x := s.cl s.curCluster
  if !s.core.clusterFenced || s.teamCommands s.curCluster t y n then .next (s.setCore { s.core with relSeq := some n })
  else if x.groups.any (fun g => x.releasing t idx g && g.delays) then
    .next ((s.setCl s.curCluster (x.clearBoards t idx)).setCore { s.core with relSeq := some n })
  else .next ((x.converters t idx).foldl State.endConversion (s.setCl s.curCluster (act x))).retire

/-- Team pages that a release of the class names. -/
def Request.teamPages (r : Request) : List Nat := if r.cls = 3 then [] else (List.range r.units).map (r.base + ·)

/-- rel: the units are checked once, before the wait; those that are still mapped after it are released (R184). DESIGN
CHOICE, where another core of the team has released some meanwhile (notes/assumptions/62). -/
def execRel (a : BitVec 5) (s : State) : Result :=
  let r := Request.of (s.g a)
  if malformed (s.g a) then trapReserved s (.rel a)
  else match s.core.slot, s.teamOf s.cur with
  | some t, some y =>
    if s.core.relSeq.isNone && r.unheld (s.cl s.curCluster) t y then trap s causeReleaseUnheld (.ofNat 64 r.cls)
    else releaseWhen s t y r.teamPages fun x => x.release t y r
  | _, _ => trap s causeReleaseUnheld (.ofNat 64 r.cls)

/-- relall (R184). -/
def execRelall (s : State) : Result :=
  match s.core.slot, s.teamOf s.cur with
  | some t, some y => releaseWhen s t y (y.pages.map (·.1)) fun x => x.releaseAll t y
  | _, _ => .next s.retire

/-! ## Lanes -/

/-- Sets VLEN of a core in lots. -/
def Core.setLots (k : Core) (n : Nat) : Core := { k with csr := { k.csr with vlen := .ofNat 7 (8 * n) } }

/-- The largest number of lots up to `hi` whose extra over `cur` is granted (R187). -/
def growTo (s : State) (k : ClusterId) (t : Slot) (cur : Nat) : (hi : Nat) → Nat
  | 0 => cur
  | h + 1 => if h + 1 ≤ cur then cur
             else if s.bankerDecide k t ⟨h + 1 - cur, 0, 0, 0⟩ = 0 then h + 1 else growTo s k t cur h

/-- Lots that the other cores of a core's team hold. -/
def State.otherLots (s : State) (c : CoreId) (t : Slot) : Nat :=
  (s.allocation (clusterOf c) t).lane - (s.coreAt c).lots

/-- The most lots a core may hold: MAXL, within the claim less the others' (R187). -/
def State.lotCap (s : State) (c : CoreId) (t : Slot) : Nat :=
  Nat.min (s.coreAt c).maxLots ((s.maxClaim (clusterOf c) t).lane - s.otherLots c t)

/-- Grows a core's lanes toward MAXL (R187 last step). -/
def State.growLanes (s : State) (c : CoreId) (t : Slot) : State :=
  let k := s.coreAt c
  s.setCoreAt c (k.setLots (growTo s (clusterOf c) t k.lots (s.lotCap c t)))

/-- VLEN of a core as a value. -/
def State.vlenOf (s : State) (c : CoreId) : Word := zext (s.coreAt c).csr.vlen

/-- Whether vclaim's operands are malformed (R187). -/
def badLanes (lo hi : Word) : Bool :=
  lo.toNat % 8 != 0 || hi.toNat % 8 != 0 || decide (hi.toNat < lo.toNat) || decide (64 < hi.toNat)

/-- vclaim, at its turn: MIN and MAXL, the shrink to MAXL, the minimum, then growth (R187). -/
def claimLanes (d a b : BitVec 5) (s : State) : Result :=
  let lo := (s.g a).toNat / 8
  let hi := (s.g b).toNat / 8
  if badLanes (s.g a) (s.g b) then trapReserved s (.vclaim d a b)
  else match s.core.slot, s.teamOf s.cur with
  | some t, some y =>
    match y.claim with
    | none => trap s causeClaimMissing 0
    | some max =>
      if max.lane < lo + s.otherLots s.cur t then trap s causeClaimExceeded 0
      else if !s.core.vq.isEmpty then .next s
      else
        let k := { s.core with minLots := lo, maxLots := hi }
        let s1 := s.setCore (k.setLots (Nat.min k.lots hi))
        let cur := s1.core.lots
        if lo ≤ cur then
          let s2 := s1.growLanes s.cur t
          finishG s2 d (s2.vlenOf s.cur)
        else if s1.bankerDecide s.curCluster t ⟨lo - cur, 0, 0, 0⟩ = 0 then
          let s2 := (s1.setCore (s1.core.setLots lo)).growLanes s.cur t
          finishG s2 d (s2.vlenOf s.cur)
        else .next (s1.block t ⟨lo - cur, 0, 0, 0⟩ (.lanes d lo hi))
  | _, _ => trap s causeClaimMissing 0

/-- vclaim (R187). -/
def execVclaim (d a b : BitVec 5) (s : State) : Result := claimTurn s (claimLanes d a b)

/-- Whether a request of another team waits in the blocked list (R188). -/
def State.othersBlocked (s : State) (k : ClusterId) (t : Slot) : Bool := (s.cl k).blocked.any (fun b => b.team != t)

/-- Renegotiation of a core's lanes; only vreneg lets them grow (R188). -/
def State.renegotiate (s : State) (c : CoreId) (grow : Bool) : State :=
  match (s.coreAt c).slot with
  | none => s
  | some t =>
    let k := s.coreAt c
    if s.othersBlocked (clusterOf c) t then s.setCoreAt c (k.setLots (Nat.min k.lots k.minLots))
    else if grow then s.growLanes c t else s

/-- vreneg (R188). -/
def execVreneg (d : BitVec 5) (s : State) : Result :=
  if !s.core.vq.isEmpty then .next s
  else claimTurn s fun s =>
    let s' := s.renegotiate s.cur true
    finishG s' d (s'.vlenOf s.cur)

/-! ## Events -/

/-- Whether a check that a blocked acq or vclaim passed when it issued fails now: another core of the team has mapped a
unit that it names, or used the claim up (R180, R183, R187). -/
def State.stale (s : State) (k : ClusterId) (b : Blocked) : Bool :=
  (s.team k b.team).any fun x => x.claim.any fun max => match b.kind with
    | .units w => (Request.of w).overlaps x || (overClaim (s.allocation k b.team) (Request.of w).counts max).isSome
    | .lanes _ lo _ => decide (max.lane < lo + s.otherLots (coreOf k b.core) b.team)
    | .launch _ | .relane _ => false

/-- A blocked request is granted: its units or lanes, and its core goes on (R178, R187). DESIGN CHOICE: where its checks
fail by then it leaves the list, and its instruction is taken again and traps as they say (notes/assumptions/69). -/
def State.grantBlocked (s : State) (k : ClusterId) (b : Blocked) : State :=
  let c := coreOf k b.core
  let s1 := s.setCl k { s.cl k with blocked := dropFirst (· == b) (s.cl k).blocked }
  if s.stale k b then s1.setCoreAt c { s1.coreAt c with wait := .ready } else
  match b.kind with
  | .units w => let s2 := s1.grantUnits k b.team (.of w); s2.setCoreAt c (s2.coreAt c).retire
  | .launch w => s1.grantUnits k b.team (.of w)
  | .relane n => s1.setCoreAt c ((s1.coreAt c).setLots n)
  | .lanes d lo _ =>
    let s2 := (s1.setCoreAt c ((s1.coreAt c).setLots lo)).growLanes c b.team
    s2.setCoreAt c (((s2.coreAt c).writeG d (s2.vlenOf c)).retire)

/-- Re-decides a list of blocked requests in order; each sees the counts left by those before it (R178, R179). -/
def State.redecide (s : State) (k : ClusterId) : List Blocked → State
  | [] => s
  | b :: bs => (if s.bankerDecide k b.team b.req = 0 then s.grantBlocked k b else s).redecide k bs

/-- The blocked list is re-decided (R178). -/
def evBlockedListRedecide (k : ClusterId) (s : State) : Option State := some (s.redecide k (s.cl k).blocked)

/-- BLOCKED_LIST_REDECIDE (R178). -/
def execBlockedListRedecide (k : ClusterId) (s : State) : Result := fire s (evBlockedListRedecide k s)

/-- Zeroes a released unit. -/
def Cluster.zeroUnit (x : Cluster) : ZeroUnit → Cluster
  | .page p => { x with spm := Memory.zero x.spm (p * 16384) ((p + 1) * 16384),
                        badSpm := x.badSpm.filter (fun g => g / 512 != p) }
  | .block b => { x with acc := Memory.zero x.acc (b * 4096) ((b + 1) * 4096),
                         badAcc := x.badAcc.filter (fun g => g / 128 != b) }

/-- The oldest zeroing ends (R172). -/
def evZeroingDone (k : ClusterId) (s : State) : Option State :=
  match (s.cl k).zeroing with
  | [] => none
  | u :: us => some (s.setCl k ({ (s.cl k).zeroUnit u with zeroing := us }))

/-- ZEROING_DONE (R172). -/
def execZeroingDone (k : ClusterId) (s : State) : Result := fire s (evZeroingDone k s)

/-- Moves a page's bytes and their errors to a free page, and its owner's map entry with it (R186). -/
def Cluster.movePage (x : Cluster) (p q : Nat) : Cluster :=
  let bs := Memory.readBytes x.spm (p * 16384) 16384
  { x with
    spm := Memory.writeBytes (Memory.zero x.spm (p * 16384) ((p + 1) * 16384)) (q * 16384) bs,
    badSpm := x.badSpm.map (fun g => if g / 512 = p then q * 512 + g % 512 else g),
    teams := Vector.ofFn fun (t : Slot) => (x.teams[t]).map fun y =>
      { y with pages := y.pages.map (fun e => if e.2 = p && !x.underBoard t e.1 then (e.1, q) else e) } }

/-- Where the oldest relocation under way ends: its reserved target, or where a grant took that, the lowest free page
outside its group. -/
def Cluster.relocEnd (x : Cluster) (p q : Nat) : Option Nat := if x.pageFree q then some q else x.target (p / 16)

/-- A relocation of page `p` is over: the group's next one starts. -/
def Cluster.relocOver (x : Cluster) (p : Nat) : Cluster :=
  { x with reloc := x.reloc.filter (·.1 != p) }.startReloc (p / 16)

/-- The oldest relocation under way ends (R186). It waits while its target, or the page itself, is being zeroed. One
whose group is unpinned again, with no free page left, leaves its page in place (notes/assumptions/61). -/
def evPageRelocation (k : ClusterId) (s : State) : Option State :=
  let x := s.cl k
  match x.reloc.find? (·.2.isSome) with
  | some (p, some q) =>
    match x.relocEnd p q with
    | some r =>
      if x.zeroing.contains (.page r) || x.zeroing.contains (.page p) then none
      else some (s.setCl k ((x.movePage p r).relocOver p))
    | none => if (x.group (p / 16)).holder.isNone then some (s.setCl k (x.relocOver p)) else none
  | _ => none

/-- PAGE_RELOCATION (R186). -/
def execPageRelocation (k : ClusterId) (s : State) : Result := fire s (evPageRelocation k s)

end Sys2Proof.Machine
end

