-- ==== Sys2Proof/Machine/Barrier.lean ====
section
/-! DEFINITION. Barriers of a team or of a group (spec/09 R206-R213, spec/10 R217-R220). -/

namespace Sys2Proof.Machine

/-! ## Groups as barriers see them -/

/-- The group entry of a team slot by group number (R192). -/
def Cluster.groupEntry (x : Cluster) (t : Slot) (gnum : BitVec 8) : Option CollEntry :=
  x.coll.find? fun e => e.team == t && e.gnum == gnum

/-- The set bits of a mask, ascending. -/
def maskBits {n : Nat} (m : BitVec n) : List Nat := (List.range n).filter m.getLsbD

/-- The members of a group by rank, as fabric id and logical cluster id (R193). -/
def State.members (s : State) (mem : BitVec 128) (fab : BitVec 32) : List (Nat × Nat) :=
  (if fab = 0 then [s.fabid.toNat] else maskBits fab).flatMap fun f => (maskBits mem).map fun l => (f, l)

/-- The level of a group (R193). -/
def groupLevel (mem : BitVec 128) (fab : BitVec 32) : Scope :=
  if fab ≠ 0 then .fabric
  else if (maskBits mem).all (fun l => l / 32 == ((maskBits mem).head?.getD 0) / 32) then .die else .package

/-- The cluster and team slot of a member of this package that has declared a group. -/
def State.memberTeam (s : State) (asid : BitVec 12) (gnum : BitVec 8) (m : Nat × Nat) : Option (ClusterId × Slot) :=
  if m.1 ≠ s.fabid.toNat then none
  else (s.holderOf m.2).bind fun k =>
    ((s.cl k).coll.find? (fun e => e.asid == asid && e.gnum == gnum)).map fun e => (k, e.team)

/-! ## Bindings -/

/-- The binding of a barrier id of a team. -/
def Team.bar (x : Team) (id : BitVec 8) : Option Barrier := x.bars.find? (·.id == id)

/-- The binding of a barrier id of a team slot. -/
def State.bar (s : State) (k : ClusterId) (t : Slot) (id : BitVec 8) : Option Barrier := (s.team k t).bind (·.bar id)

/-- Changes the team of a slot. -/
def State.modTeam (s : State) (k : ClusterId) (t : Slot) (f : Team → Team) : State := s.setCl k ((s.cl k).mapTeam t f)

/-- Replaces a binding. -/
def State.setBar (s : State) (k : ClusterId) (t : Slot) (b : Barrier) : State :=
  s.modTeam k t fun x => { x with bars := b :: x.bars.filter (·.id != b.id) }

/-- One core as a set. -/
def coreBit (n : Nat) : BitVec 8 := 1 <<< n

/-- Whether a core is in a set. -/
def inSet (x : BitVec 8) (n : Nat) : Bool := x.getLsbD n

/-- All cores of a team of a size. -/
def allCores (tsize : Nat) : BitVec 8 := .ofNat 8 (2 ^ tsize - 1)

/-- Participants not yet arrived. -/
def Barrier.missing (b : Barrier) : BitVec 8 := b.parts &&& ~~~b.dropped &&& ~~~b.arrived

/-- The barrier id an instruction names (R208). -/
def State.barId (s : State) (a : BitVec 5) : BitVec 8 := bits (s.g a) 0 8

/-- A new binding (R207). DESIGN CHOICE: it keeps no bar.max due, so that one that was released under the binding before and
has not taken its result arrives anew when it is taken again (R212, notes/assumptions/64). -/
def newBarrier (id : BitVec 8) (group : Option (BitVec 8)) (parts : BitVec 8) : Barrier :=
  { id := id, group := group, parts := parts, dropped := 0, arrived := 0, maxDue := 0, phase := 0, contrib := none,
    relMax := 0, expired := none }

/-- Whether every participant of a binding to a group has dropped out: its team reports complete in every later phase
(R211, R220). -/
def Barrier.over (b : Barrier) (gnum : BitVec 8) : Bool := b.group == some gnum && b.parts &&& ~~~b.dropped == 0

/-- The participants that a binding word names (R207). DESIGN CHOICE: MEMBERS with bits of no core of the team alone
binds no participant (notes/assumptions/64). -/
def bindParts (w : Word) (tsize : Nat) : BitVec 8 := if bits w 0 8 = 0 then allCores tsize else bits w 0 8 &&& allCores tsize

/-! ## One at a time -/

/-- Whether a barrier operation of the current core waits: one of a core of a higher number has been decided in this
cycle, so that it counts as one of a later cycle (R213). -/
def State.barLate (s : State) : Bool :=
  (s.cl s.curCluster).barDecided.any fun d => d.1 == s.now && decide (corenoOf s.cur < d.2)

/-- A barrier operation of the current core is decided in this cycle. -/
def State.noteBar (s : State) : State :=
  s.setCl s.curCluster { s.cl s.curCluster with barDecided := some (s.now, corenoOf s.cur) }

/-- A barrier operation of the current core, one at a time and in ascending CORENO within a cycle (R213); a wait that is
under way decides nothing. -/
def barTurn (s : State) (go : State → Result) : Result :=
  if s.core.barWait.isSome then go s else if s.barLate then .next s else go s.noteBar

/-- bar.def, at its turn (R207). -/
def bindBar (a b : BitVec 5) (s : State) : Result :=
  let id := s.barId a
  let w := s.g b
  let group := if w.getLsbD 28 then some (bits w 16 8) else none
  match s.core.slot, s.teamOf s.cur with
  | some t, some x =>
    if (x.bar id).any (fun y => y.arrived != 0) then trap s causeBarRebind (zext id)
    else if w.getLsbD 31 then
      .next (s.modTeam s.curCluster t fun y => { y with bars := y.bars.filter (·.id != id) }).retire
    else if group.any (fun g => ((s.cl s.curCluster).groupEntry t g).isNone) then trap s causeBarUnbound (zext id)
    else .next (s.setBar s.curCluster t (newBarrier id group (bindParts w s.core.csr.tsize.toNat))).retire
  | _, _ => trap s causeBarUnbound (zext id)

/-- bar.def (R207). -/
def execBarDef (a b : BitVec 5) (s : State) : Result := barTurn s (bindBar a b)

/-! ## Arrivals -/

/-- Whether the fence of an arrival is complete (R209). -/
def State.barFenced (s : State) (t : Slot) (b : Barrier) : Bool :=
  match b.group with
  | none => s.core.dieFenced
  | some g =>
    match (s.cl s.curCluster).groupEntry t g with
    | none => s.core.dieFenced
    | some e => match groupLevel e.mem e.fab with
      | .fabric => s.fabricFenced s.cur
      | .package => s.packageFenced s.cur
      | _ => s.core.dieFenced

/-- TCORE of the current core. -/
def State.tcore (s : State) : Nat := s.core.csr.tcore.toNat

/-- An arrival of the current core: its checks, its fence, and what follows when it is counted (R209). `wait` is the
state while the fence is not complete. DESIGN CHOICE: the checks are made again while it waits, and see a binding that
another core changes meanwhile (notes/assumptions/64). -/
def arriveBar (s : State) (id : BitVec 8) (wait : State) (go : Slot → Barrier → Result) : Result :=
  match s.core.slot, (s.teamOf s.cur).bind (·.bar id) with
  | some t, some b =>
    let n := s.tcore
    if !inSet b.parts n || inSet b.dropped n || inSet b.arrived n then trap s causeBarOver (zext id)
    else if !s.barFenced t b then .next wait
    else go t { b with arrived := b.arrived ||| coreBit n }
  | _, _ => trap s causeBarUnbound (zext id)

/-- bar.arrive (R209). -/
def execBarArrive (a : BitVec 5) (s : State) : Result :=
  barTurn s fun z => arriveBar z (z.barId a) s fun t b => .next (z.setBar z.curCluster t b).retire

/-- bar.sync's first word: its arrival; a trap comes only after it is counted, and the word behind it waits (R111,
R208, notes/assumptions/34). -/
def execBarSync (a : BitVec 5) (s : State) : Result :=
  barTurn s fun z => arriveBar z (z.barId a) (s.setCore { s.core with wait := .sync }) fun t b =>
    let s' := (z.setBar z.curCluster t b).retire
    .next (s'.setCore { s'.core with sync := some (s.barId a, false) })

/-- bar.drop, at its turn; `wait` is the state while the fence is not complete (R211, R218). -/
def dropBar (a : BitVec 5) (wait s : State) : Result :=
  let id := s.barId a
  let n := s.tcore
  let leave := fun (t : Slot) (b : Barrier) =>
    Host.Outcome.next (s.setBar s.curCluster t { b with dropped := b.dropped ||| coreBit n }).retire
  match s.core.slot, (s.teamOf s.cur).bind (·.bar id) with
  | some t, some b =>
    if inSet b.arrived n && !inSet b.dropped n then leave t b else arriveBar s id wait leave
  | _, _ => arriveBar s id wait leave

/-- bar.drop (R211). -/
def execBarDrop (a : BitVec 5) (s : State) : Result := barTurn s (dropBar a s)

/-! ## Waiting -/

/-- Bindings of a barrier id to a group by live teams of a logical cluster: those of a lost cluster that held the id, and
those whose team holds the group no longer, among them (R19, R220). -/
def State.memberBars (s : State) (asid : BitVec 12) (gnum id : BitVec 8) (l : Nat) : List Barrier :=
  (List.finRange 136).flatMap fun k =>
    if (s.cl k).logical == some (.ofNat 7 l) then
      (s.cl k).teams.toList.filterMap fun o => o.bind fun x =>
        if x.asid == asid then (x.bar id).filter (·.group == some gnum) else none
    else []

/-- Whether a member of this package has left a barrier id for good: all participants of a team of its have dropped, which
lives, or has ended since (R152, R211, R220). -/
def State.memberLeft (s : State) (asid : BitVec 12) (gnum id : BitVec 8) (m : Nat × Nat) : Bool :=
  m.1 == s.fabid.toNat &&
  (s.left.any (fun l => l.asid == asid && l.gnum == gnum && l.member == m.2 && l.id == id) ||
    (s.memberBars asid gnum id m.2).any (·.over gnum))

/-- Participants missing of a member of which no active cluster holds the group: those of a live team's binding; else
which they are is open: a free value. DESIGN CHOICE: at least one is (R210, R220, notes/assumptions/17). -/
def State.strayMissing (s : State) (asid : BitVec 12) (gnum id : BitVec 8) (m : Nat × Nat) : BitVec 8 :=
  match if m.1 = s.fabid.toNat then (s.memberBars asid gnum id m.2).head? else none with
  | some b => b.missing
  | none => if Config.undefByte s.tick 0 = 0 then 1 else Config.undefByte s.tick 0

/-- Participants of a member missing at a barrier id: those not arrived, or all where the member has not bound it
(R210, R220). -/
def State.memberMissing (s : State) (asid : BitVec 12) (gnum id : BitVec 8) (m : Nat × Nat) : BitVec 8 :=
  match s.memberTeam asid gnum m with
  | none => if s.memberLeft asid gnum id m then 0 else s.strayMissing asid gnum id m
  | some (k, t) =>
    match s.bar k t id with
    | some b => if b.group = some gnum then b.missing else allCores (((s.team k t).map (·.cores.length)).getD 0)
    | none => allCores (((s.team k t).map (·.cores.length)).getD 0)

/-- A number whose bit i is the i-th truth value. -/
def packBits : List Bool → Nat
  | [] => 0
  | b :: bs => (if b then 1 else 0) + 2 * packBits bs

/-- The missing-member mask (R210, R220). -/
def State.missMask (s : State) (c : CoreId) (t : Slot) (b : Barrier) : Word :=
  let k := clusterOf c
  match b.group with
  | none => zext b.missing
  | some g =>
    match (s.cl k).groupEntry t g with
    | none => ofBool true <<< 63
    | some e =>
      let miss := (s.members e.mem e.fab).map (s.memberMissing e.asid g b.id)
      match firstAt (fun x => x != 0) 0 miss with
      | none => ofBool true <<< 63
      | some (r, m) =>
        let start := r / 32 * 32
        let window := packBits (((miss.drop start).take 32).map (fun x => x != 0))
        .ofNat 64 (2 ^ 63 + m.toNat * 2 ^ 48 + start % 128 * 2 ^ 40 + start / 128 * 2 ^ 32 + window)

/-- Whether a wait that began at `start` has run out (R210). -/
def State.barExpired (s : State) (c : CoreId) (start : Nat) : Bool :=
  decide (start + Nat.max (s.coreAt c).csr.bto.toNat 1 ≤ s.now)

/-- A wait at an id times out in this cycle: no release of the phase falls in it any more (R210). -/
def State.noteExpiry (s : State) (k : ClusterId) (t : Slot) (b : Barrier) : State :=
  s.setBar k t { b with expired := some s.now }

/-- A core waits at an id for the release of its arrival, which bar.max writes into `dst`, or times out (R210, R212). -/
def waitBar (s : State) (t : Slot) (b : Barrier) (dst : Option (BitVec 5)) : Result :=
  match s.core.barWait with
  | some w =>
    if w.id = b.id then
      if s.barExpired s.cur w.start then trap (s.noteExpiry s.curCluster t b) causeBarTimeout (s.missMask s.cur t b)
      else .next s
    else .next (s.setCore { s.core with barWait := some ⟨b.id, s.now, dst⟩ })
  | none => .next (s.setCore { s.core with barWait := some ⟨b.id, s.now, dst⟩ })

/-- bar.wait, at its turn; the wait of a bar.sync whose arrival has been released is over (R208, R210,
notes/assumptions/34). DESIGN CHOICE: one that completes at once, its phase released before, passes no renegotiation point
(R188, notes/assumptions/64). -/
def awaitBar (a : BitVec 5) (s : State) : Result :=
  let id := s.barId a
  if s.core.sync = some (id, true) then .next s.retire
  else match s.core.slot, (s.teamOf s.cur).bind (·.bar id) with
  | some t, some b => if inSet b.arrived s.tcore then waitBar s t b none else .next s.retire
  | _, _ => trap s causeBarUnbound (zext id)

/-- bar.wait (R210). -/
def execBarWait (a : BitVec 5) (s : State) : Result := barTurn s (awaitBar a)

/-- The FP32 maximum of contributions so far (R200, R212). -/
def joinMax (a : Option (BitVec 32)) (x : BitVec 32) : BitVec 32 :=
  match a with
  | none => if (fp32.unpack x.toNat).isNan then .ofNat 32 fp32.nan else x
  | some y => .ofNat 32 (fp32.minMax true y.toNat x.toNat).1

/-- bar.max, at its turn: it arrives once, waits, and takes the released max; `wait` is the state while the fence is not
complete (R212). DESIGN CHOICE: a bar.max is a re-execution while the core's earlier one at the id has taken no result; where its
phase has been released it completes at once and passes no renegotiation point (R188, notes/assumptions/64). -/
def maxBar (d a b : BitVec 5) (wait s : State) : Result :=
  let id := s.barId a
  let n := s.tcore
  let come := fun (t : Slot) (y : Barrier) =>
    let s' := s.setBar s.curCluster t { y with maxDue := y.maxDue ||| coreBit n,
                                               contrib := some (joinMax y.contrib (bits (s.f b) 0 32)) }
    Host.Outcome.next (s'.setCore { s'.core with barWait := some ⟨id, s.now, some d⟩ })
  match s.core.slot, (s.teamOf s.cur).bind (·.bar id) with
  | some t, some y =>
    if inSet y.maxDue n then
      if inSet y.arrived n then waitBar s t y (some d)
      else
        let s' := s.setBar s.curCluster t { y with maxDue := y.maxDue &&& ~~~(coreBit n) }
        .next (s'.setF d (zext y.relMax)).retire
    else arriveBar s id wait come
  | _, _ => arriveBar s id wait come

/-- bar.max (R212). -/
def execBarMax (d a b : BitVec 5) (s : State) : Result := barTurn s (maxBar d a b s)

/-! ## Events -/

/-- The team slots whose bindings one release covers: the team itself, or every member of the group that has not left;
none while one is not complete (R209, R211, R220). DESIGN CHOICE: an id whose group entry is gone is never released
(notes/assumptions/64). -/
def State.releaseSet (s : State) (k : ClusterId) (t : Slot) (b : Barrier) : Option (List (ClusterId × Slot)) :=
  match b.group with
  | none => if b.missing = 0 && b.arrived != 0 then some [(k, t)] else none
  | some g =>
    match (s.cl k).groupEntry t g with
    | none => none
    | some e =>
      let gone := fun (m : Nat × Nat) => (s.memberTeam e.asid g m).isNone && s.memberLeft e.asid g b.id m
      let ms := ((s.members e.mem e.fab).filter (!gone ·)).map (s.memberTeam e.asid g)
      let complete := ms.all fun m => m.any fun (k', t') => (s.bar k' t' b.id).any fun y =>
        y.group == some g && y.missing == 0
      let some_ := ms.any fun m => m.any fun (k', t') => (s.bar k' t' b.id).any fun y => y.arrived != 0
      if complete && some_ then some (ms.filterMap id) else none

/-- The maximum that a phase releases; minus infinity where nothing was contributed (R212). -/
def State.phaseMax (s : State) (id : BitVec 8) (l : List (ClusterId × Slot)) : BitVec 32 :=
  (l.foldl (fun a (k, t) => match (s.bar k t id).bind (·.contrib) with
    | none => a
    | some x => some (joinMax a x)) none).getD 0xFF800000

/-- Whether a core waits at an id, or is about to by a bar.sync. -/
def Core.waitsAt (k : Core) (id : BitVec 8) : Bool := k.barWait.any (·.id == id) || k.sync == some (id, false)

/-- Cores that a team still holds and that wait at an id when it releases (R209). -/
def State.waiters (s : State) (k : ClusterId) (t : Slot) (id : BitVec 8) : List CoreId :=
  (((s.team k t).map (·.cores)).getD []).map (coreOf k) |>.filter fun c =>
    (s.coreAt c).slot == some t && (s.coreAt c).waitsAt id

/-- A core after the release of the arrival it waits for: its wait is over, with the maximum in bar.max's register; a
bar.sync's wait word will not wait (R209, R212). -/
def Core.leaveBar (k : Core) (m : BitVec 32) : Core :=
  match k.barWait with
  | some w => (match w.dst with
    | some d => k.writeF d (zext m)
    | none => k).retire
  | none => { k with sync := k.sync.map fun e => (e.1, true) }

/-- A renegotiation point of a core: at once, or when its vector instructions have retired (R188). -/
def State.renegotiateDue (s : State) (c : CoreId) : State :=
  if (s.coreAt c).vq.isEmpty then s.renegotiate c false else s.setCoreAt c { s.coreAt c with reneg := true }

/-- TCOREs of waiters whose bar.max takes its result at the release. -/
def State.taking (s : State) (l : List CoreId) : BitVec 8 :=
  l.foldl (fun x c => if (s.coreAt c).barWait.any (·.dst.isSome) then x ||| coreBit (s.coreAt c).csr.tcore.toNat else x) 0

/-- One binding after the release of its phase; `taken` marks the cores whose bar.max is over (R209, R212). -/
def Barrier.released (b : Barrier) (m : BitVec 32) (taken : BitVec 8) : Barrier :=
  { b with arrived := 0, phase := b.phase + 1, contrib := none, relMax := m, maxDue := b.maxDue &&& ~~~taken }

/-- The binding of a team slot is released, and its waiters go on (R188, R209, R210). -/
def State.releaseAt (s : State) (id : BitVec 8) (m : BitVec 32) (e : ClusterId × Slot) : State :=
  match s.bar e.1 e.2 id with
  | none => s
  | some b =>
    let l := s.waiters e.1 e.2 id
    l.foldl (fun z c =>
      let z' := z.setCoreAt c ((z.coreAt c).leaveBar m)
      if b.group.isNone then z'.renegotiateDue c else z') (s.setBar e.1 e.2 (b.released m (s.taking l)))

/-- Whether a wait that a release would end has timed out in this cycle: the release comes in a later one (R210). -/
def State.expiredNow (s : State) (id : BitVec 8) (l : List (ClusterId × Slot)) : Bool :=
  l.any fun e => (s.bar e.1 e.2 id).any (·.expired == some s.now)

/-- A complete phase is released everywhere (R209). -/
def evBarrierRelease (k : ClusterId) (t : Slot) (id : BitVec 8) (s : State) : Option State :=
  (s.bar k t id).bind fun b => (s.releaseSet k t b).bind fun l =>
    if s.expiredNow id l then none
    else some (l.foldl (fun z e => z.releaseAt id (s.phaseMax id l) e) s)

/-- BARRIER_RELEASE (R209). -/
def execBarrierRelease (k : ClusterId) (t : Slot) (id : BitVec 8) (s : State) : Result := fire s (evBarrierRelease k t id s)

/-- A wait at a barrier runs out (R210). -/
def evBarrierTimeout (c : CoreId) (s : State) : Option State :=
  let k := s.coreAt c
  match k.barWait, k.slot with
  | some w, some t =>
    match s.bar (clusterOf c) t w.id with
    | none => none
    | some b =>
      if inSet b.arrived k.csr.tcore.toNat && s.barExpired c w.start && !k.parked then
        some ((s.noteExpiry (clusterOf c) t b).trapAt c causeBarTimeout (s.missMask c t b) false)
      else none
  | _, _ => none

/-- BARRIER_TIMEOUT (R210). -/
def execBarrierTimeout (c : CoreId) (s : State) : Result := fire s (evBarrierTimeout c s)

end Sys2Proof.Machine
end

