-- ==== Sys2Proof/Machine/Cover.lean ====
section
/-! DEFINITION. Which accumulators an unfinished command covers (spec/07 R166, spec/15 R283, spec/17 R306, spec/09
R199), and the accumulator access instructions (spec/07 R166-R167). -/

namespace Sys2Proof.Machine

/-! ## Coverage -/

/-- The bank group that a team holds as board slot `b`. -/
def Cluster.boardOf (x : Cluster) (t : Slot) (b : Nat) : Option Nat :=
  (List.range 8).find? fun g => (x.group g).holder == some (t, .ofNat 3 b) && decide (b < 8)

/-- Whether an offset is one of `cols` accumulators of `rows` rows of a leading dimension (R264, R290). -/
def inRectangle (off base lead rows cols : Nat) : Bool :=
  (List.range rows).any fun i =>
    decide (base + 4 * (i * lead) ≤ off) && decide (off < base + 4 * (i * lead) + 4 * cols)

/-- A signed row stride (R304). -/
def strideOf (x : BitVec 32) : Int := x.toInt

/-- Whether an offset is one of `len` bytes of `rows` rows (R304). -/
def inRows (off base : Nat) (stride : Int) (rows len : Nat) : Bool :=
  (List.range rows).any fun i =>
    let d : Int := base + i * stride
    decide (d ≤ off) && decide ((off : Int) < d + len)

/-- Whether an offset lies in `n` bytes of a destination in accumulator memory (R197). -/
def inAccRange (off : Nat) (dst : BitVec 22) (n : Nat) : Bool :=
  dst.getLsbD 21 && decide (dst.toNat % 2 ^ 21 ≤ off) && decide (off < dst.toNat % 2 ^ 21 + n)

/-- The group that a declaration declares: its turn and its members (R194). -/
def Cmd.declares (x : Cmd) : Option (BitVec 12 × BitVec 128 × BitVec 32) :=
  match decodeCommand x.engine x.word with
  | .ok (.colDecl _ gid mem fab) | .ok (.colDeclT _ gid mem fab) => if mem = 0 then none else some (gid, mem, fab)
  | _ => none

/-- Members of the group that a collective names: as its turn is declared, or as a declaration that its team has queued,
or a pre-emption has saved, will declare it (R193, R194, R297, R318, notes/assumptions/70). -/
def State.groupSize (s : State) (k : ClusterId) (t : Option Slot) (gid : BitVec 12) : Nat :=
  let held := t.bind fun t => (s.cl k).groupEntry t (bits gid 4 8)
  let size := fun (mem : BitVec 128) (fab : BitVec 32) => (s.members mem fab).length
  let saved := ((t.bind (s.team k)).map (·.saved)).getD []
  let queued := (s.cmds.filter (fun y => clusterOf y.core == k && (s.coreAt y.core).slot == t) ++ saved).findSome? fun y =>
    y.declares.bind fun d => if d.1 == gid then some (size d.2.1 d.2.2) else none
  match held with
  | some e => if e.turn == bits gid 0 4 then size e.mem e.fab else queued.getD (size e.mem e.fab)
  | none => queued.getD 0

/-- Whether a matrix command has started: its boards are taken, its setup ended it, or it has stopped (R260, R280,
R283). -/
def Cmd.mmtStarted (x : Cmd) : Bool :=
  x.boards != 0 || x.phase == .stopped || (x.phase == .finished && x.fault.all (·.1 == causeDataError))

/-- The columns that a matrix command covers: until it starts those of every board, of one where it is chained (R166,
R283). -/
def Cmd.mmtCover (x : Cmd) (kchain : Bool) (mask : BitVec 8) : Nat :=
  if x.mmtStarted then (if kchain then x.width else x.width * (maskBits x.boards).length)
  else if kchain then 4096 else 4096 * (maskBits mask).length

/-- The rows that a matrix command covers: after a fault that stopped it those that it has granted (R281, R283). -/
def Cmd.mmtRows (x : Cmd) (m : Nat) : Nat := if x.mmtStarted && x.fault.isSome then Nat.min x.row m else m

/-- The accumulators that a command covers (R166). -/
inductive Cover where
  | none
  /-- `cols` accumulators of each of `rows` rows of a leading dimension. -/
  | rect (base lead rows cols : Nat)
  /-- `len` bytes of each of `rows` rows of a stride. -/
  | lines (base : Nat) (stride : Int) (rows len : Nat)
  /-- `n` bytes of a destination, where it lies in accumulator memory. -/
  | block (dst : BitVec 22) (n : Nat)
  deriving DecidableEq, Repr

/-- Whether an accumulator offset lies in a cover. DEDUCED from R48 and R166: an offset of 0x10_0000 or above names no
accumulator, and no command covers it (notes/assumptions/70). -/
def Cover.contains (v : Cover) (off : Nat) : Bool :=
  decide (off < Config.accBytes) &&
  match v with
  | .none => false
  | .rect base lead rows cols => inRectangle off base lead rows cols
  | .lines base stride rows len => inRows off base stride rows len
  | .block dst n => inAccRange off dst n

/-- Whether a cover holds any accumulator. -/
def Cover.holdsAny (v : Cover) : Bool :=
  match v with
  | .none => false
  | .rect base _ rows cols => decide (base < Config.accBytes) && rows != 0 && cols != 0
  | .lines base stride rows len => (List.range rows).any fun i =>
    let d : Int := base + i * stride
    decide (d < Config.accBytes) && decide (0 < d + len) && len != 0
  | .block dst n => dst.getLsbD 21 && decide (dst.toNat % 2 ^ 21 < Config.accBytes) && n != 0

/-- What an arr.mmt covers (R283). -/
def Cmd.mmtCovers (x : Cmd) : Cover :=
  let w := x.word
  .rect (fld w.w4.toNat 0 21) (fld w.w5.toNat 0 19) (x.mmtRows (fld w.w6.toNat 0 9))
    (x.mmtCover (fld w.w0.toNat 24 1 == 1) (.ofNat 8 (fld w.w6.toNat 16 8)))

/-- What an arr.acmout covers (R283). -/
def Cmd.acmoutCovers (x : Cmd) : Cover :=
  let w := x.word
  if fld w.w0.toNat 24 1 = 1 then
    .rect (fld w.w1.toNat 0 21) (fld w.w2.toNat 0 19) (fld w.w5.toNat 16 9) (fld w.w5.toNat 0 16)
  else .none

/-- What a copy or fill covers (R306). -/
def Cmd.copyCovers (x : Cmd) : Cover :=
  let w := x.word
  if fld w.w4.toNat 16 1 = 1 then
    .lines (fld w.w3.toNat 0 32 + fld w.w4.toNat 0 16 * 2 ^ 32) (strideOf w.w7) (fld w.w5.toNat 20 12) (fld w.w5.toNat 0 20)
  else .none

/-- The accumulators that a command of a team slot covers, from its words as they stand: one whose checks will fail covers
too until its decrement (R166, R199, R283, R306, notes/assumptions/70). -/
def State.coverOf (s : State) (t : Option Slot) (x : Cmd) : Cover :=
  let w := x.word
  let dst : BitVec 22 := .ofNat 22 (fld w.w3.toNat 0 22)
  let bytes := fld w.w4.toNat 0 21
  if fld w.w0.toNat 8 4 ≠ engineCode x.engine then .none
  else match engineCode x.engine * 256 + fld w.w0.toNat 0 8 with
  | 3 => x.mmtCovers
  | 4 => x.acmoutCovers
  | 257 | 258 => x.copyCovers
  | 515 | 517 => .block dst (s.groupSize (clusterOf x.core) t (bits w.w1 0 12) * bytes)
  | 516 | 518 => .block dst bytes
  | 520 => .block dst 4
  | _ => .none

/-- Whether a command of a team slot covers an accumulator (R166). -/
def State.cmdCovers (s : State) (t : Option Slot) (x : Cmd) (off : Nat) : Bool := (s.coverOf t x).contains off

/-- Whether two cores belong to one team. -/
def State.sameTeam (s : State) (a b : CoreId) : Bool :=
  clusterOf a == clusterOf b && (s.coreAt a).slot.isSome && (s.coreAt a).slot == (s.coreAt b).slot

/-- The commands of a core's team that have not decremented, those saved by a pre-emption among them (R166, R318). -/
def State.teamCmds (s : State) (c : CoreId) : List Cmd :=
  s.cmds.filter (fun x => s.sameTeam x.core c) ++ ((s.teamOf c).map (·.saved)).getD []

/-- Whether a command of a core's team, numbered below `n`, covers an accumulator. -/
def State.coveredBefore (s : State) (c : CoreId) (n off : Nat) : Bool :=
  (s.teamCmds c).any fun x => decide (x.seq < n) && s.cmdCovers (s.coreAt c).slot x off

/-- Whether a command of a core's team covers an accumulator (R166). -/
def State.covered (s : State) (c : CoreId) (off : Nat) : Bool := s.coveredBefore c s.nextSeq off

/-! ## acmrd, acmwr -/

/-- The accumulator offset of a register (R166). -/
def State.accOff (s : State) (a : BitVec 5) : Nat := (s.g a).toNat % 2 ^ 21

/-- Reads an accumulator into f[d], after the core's vector instructions (R166, R167). -/
def readAcc (s : State) (d : BitVec 5) (o : Nat) : Result :=
  if !s.core.vq.isEmpty then .next s
  else if s.granuleBad s.cur .acc o then trap s causeDataError (.ofNat 64 o)
  else match s.readTeam s.cur .acc o 4 with
  | none => .next s
  | some (s', v) => finishF s' d (.ofNat 64 v) 0

/-- acmrd (R166). -/
def execAcmrd (d a : BitVec 5) (s : State) : Result :=
  let o := s.accOff a
  if o % 4 ≠ 0 then trap s causeMisaligned (.ofNat 64 o)
  else if s.covered s.cur o then .next s
  else readAcc s d o

/-- acmrd.n (R166). -/
def execAcmrdN (d a : BitVec 5) (s : State) : Result :=
  let o := s.accOff a
  if o % 4 ≠ 0 then trap s causeMisaligned (.ofNat 64 o) else readAcc s d o

/-- acmwr: the write is performed at once. DESIGN CHOICE: commands without ACQ see it too, which R60 leaves unordered
(R166, notes/assumptions/46). -/
def execAcmwr (a b : BitVec 5) (s : State) : Result :=
  let o := s.accOff a
  if o % 4 ≠ 0 then trap s causeMisaligned (.ofNat 64 o)
  else if s.covered s.cur o then trap s causeAcmBusy (.ofNat 64 o)
  else if !s.core.vq.isEmpty then .next s
  else match s.writeTeam s.cur .acc o (leBytes 4 ((s.f b).toNat % 2 ^ 32)) with
  | none => .next s
  | some s' => .next s'.retire

end Sys2Proof.Machine
end

