-- ==== Sys2Proof/Machine/System.lean ====
section
/-! DEFINITION. Control registers, trap return, wfi, end, resume, and the events of a core's traps, parking and
shootdowns (spec/05 R101-R125, spec/07 R146-R152). -/

namespace Sys2Proof.Machine

/-! ## Reading control registers -/

/-- KSTATE as a word (R103). -/
def KState.pack (k : KState) : Word :=
  (ofBool k.park <<< 11) ||| (ofBool k.ie <<< 10) ||| (ofBool (k.ppriv == .supervisor) <<< 8) |||
  (ofBool k.pie <<< 7) ||| (ofBool k.intrap <<< 6) ||| ofBool (k.priv == .supervisor)

/-- TRAPC as a word (R104). -/
def TrapCause.pack (t : TrapCause) : Word := (ofBool t.hwfatal <<< 9) ||| (ofBool t.async <<< 8) ||| zext t.cause

/-- SHOOT as a word (R124). -/
def ShootReg.pack (h : ShootReg) : Word :=
  (zext h.tasid <<< 48) ||| (zext h.vpn <<< 16) ||| (zext h.level <<< 2) ||| (ofBool h.busy <<< 1)

/-- A control register of a core by its number; TABORT is write only and reads zero (R102). -/
def State.readCreg (s : State) (c : CoreId) (r : Nat) : Word :=
  let x := (s.coreAt c).csr
  match r with
  | 0x000 => x.kstate.pack
  | 0x001 => x.trapc.pack
  | 0x002 => x.trappc
  | 0x003 => x.trapaux
  | 0x004 => x.trapv
  | 0x005 => x.trapsave
  | 0x006 => x.frame
  | 0x008 => zext x.teamid
  | 0x009 => zext x.tcore
  | 0x00A => zext x.tsize
  | 0x00B => .ofNat 64 (s.logicalOf c)
  | 0x00C => zext x.gridid
  | 0x00D => zext x.asid
  | 0x00E => .ofNat 64 (corenoOf c).val
  | 0x010 => zext x.fflags
  | 0x011 => zext x.fenable
  | 0x012 => zext x.fround
  | 0x013 => zext x.parkinf
  | 0x018 => zext x.spflag
  | 0x019 => zext x.spaddr
  | 0x01A => zext x.mprog
  | 0x01B => zext x.vlen
  | 0x01C => zext x.pmprog
  | 0x020 => zext x.efault
  | 0x021 => zext x.engfc
  | 0x022 => x.engfa
  | 0x028 => zext x.bto
  | 0x029 => zext x.wrrw
  | 0x030 => .ofNat 64 (s.now - x.placedAt)
  | 0x031 => x.instret
  | 0x040 => x.ptbase
  | 0x041 => x.shoot.pack
  | _ => 0

/-- Registers that user level may not read (R102). -/
def cregHidden (r : Nat) : Bool := [1, 2, 3, 4, 5, 6, 0x13, 0x1C, 0x40, 0x41, 0x42].contains r

/-- Registers that user level may write (R102). -/
def cregUserWrites (r : Nat) : Bool := [0x10, 0x11, 0x12, 0x18, 0x20, 0x28].contains r

/-- Registers that no level may write (R102). -/
def cregReadOnly (r : Nat) : Bool := [8, 9, 0xA, 0xB, 0xC, 0xD, 0xE, 0x13, 0x19, 0x1B, 0x30, 0x31, 0x40].contains r

/-- Whether a level may read a register. -/
def mayRead (p : Priv) (r : Nat) : Bool := p == .supervisor || !cregHidden r

/-- Whether a level may write a register. -/
def mayWrite (p : Priv) (r : Nat) : Bool :=
  match p with
  | .supervisor => !cregReadOnly r
  | .user => cregUserWrites r

/-- The current core's privilege. -/
def State.priv (s : State) : Priv := s.core.csr.kstate.priv

/-- rdc (R149). -/
def execRdc (d : BitVec 5) (r : BitVec 12) (s : State) : Result :=
  if !assignedCreg r.toNat then trapIllegal s (.rdc d r)
  else if !mayRead s.priv r.toNat then trapPrivilege s (.rdc d r)
  else finishG s d (s.readCreg s.cur r.toNat)

/-! ## Writing control registers -/

/-- A privilege level of its code's low bit (R101). -/
def privOf (b : Bool) : Priv := if b then .supervisor else .user

/-- The stored value of a written WRRW: 0 stores 1 (R102). -/
def wrrwStored (v : Word) : BitVec 4 := if bits v 0 4 = 0 then 1 else bits v 0 4

/-- A written EFAULT clears the bits that are ones, but for those that a fault sets in that cycle (R102, R149). -/
def Csr.clearEfault (x : Csr) (now : Nat) (v : Word) : Csr :=
  { x with efault := (x.efault &&& ~~~(bits v 0 16)) ||| x.heldFaults now }

/-- The control registers after a write in cycle `now`; registers with an action of their own are not among them (R36,
R149). -/
def Csr.written (x : Csr) (now r : Nat) (v : Word) : Csr :=
  match r with
  | 0x000 => { x with kstate := { x.kstate with ie := v.getLsbD 10, ppriv := privOf (v.getLsbD 8), pie := v.getLsbD 7,
                                                intrap := v.getLsbD 6 } }
  | 0x001 => { x with trapc := { hwfatal := v.getLsbD 9, async := v.getLsbD 8, cause := bits v 0 8 } }
  | 0x002 => { x with trappc := v }
  | 0x003 => { x with trapaux := v }
  | 0x004 => { x with trapv := v &&& ~~~0xFF#64 }
  | 0x005 => { x with trapsave := v }
  | 0x006 => { x with frame := v &&& ~~~0x3F#64 }
  | 0x010 => { x with fflags := bits v 0 5 ||| x.heldFlags now }
  | 0x011 => { x with fenable := bits v 0 5 }
  | 0x012 => { x with fround := bits v 0 3 }
  | 0x018 => { x with spflag := bits v 0 2 }
  | 0x01A => { x with mprog := bits v 0 6 }
  | 0x01C => { x with pmprog := bits v 0 6 }
  | 0x020 => x.clearEfault now v
  | 0x021 => { x with engfc := bits v 0 16 }
  | 0x022 => { x with engfa := v }
  | 0x028 => { x with bto := bits v 0 32 }
  | 0x029 => { x with wrrw := wrrwStored v }
  | _ => x

/-- Whether a cached translation outlives a shootdown (R124). -/
def TlbEntry.outlives (e : TlbEntry) (h : Shoot) : Bool :=
  !(e.asid == h.asid && (h.level == 0 || e.vpage / 2 ^ (8 * (3 - h.level)) == h.vpn / 2 ^ (8 * (3 - h.level))))

/-- Whether a cached non-leaf entry outlives a shootdown: no table that serves any address of the page does (R124,
notes/assumptions/19). -/
def TableEntry.outlives (e : TableEntry) (h : Shoot) : Bool :=
  let m := Nat.max (48 - 8 * e.level) (40 - 8 * h.level)
  !(e.asid == h.asid && (h.level == 0 || e.pfx * 2 ^ (48 - 8 * e.level) / 2 ^ m == h.vpn * 65536 / 2 ^ m))

/-- Drops a shootdown's translations from every cluster and core, and moves the ASID's epoch (R124 steps 2 and 3). -/
def State.beginShoot (s : State) (h : Shoot) : State :=
  let t := s.tenant h.asid
  { s.setTenant h.asid { t with epoch := t.epoch + 1 } with
    clusters := s.clusters.map fun x => { x with tlb := x.tlb.filter (·.outlives h), tables := x.tables.filter (·.outlives h) },
    cores := s.cores.map fun k => { k with utlb := k.utlb.filter (·.outlives h) } }

/-- A shootdown is asked for: it starts at once, or after those before it (R124). -/
def State.addShoot (s : State) (h : Shoot) : State :=
  let s' := { s with shoots := s.shoots ++ [h] }
  if s.shoots.isEmpty then s'.beginShoot h else s'

/-- The shootdown that a written SHOOT names. -/
def shootOf (v : Word) (by_ : ShootBy) : Shoot :=
  { asid := bits v 48 12, vpn := v.toNat / 2 ^ 16 % 2 ^ 32, level := v.toNat / 4 % 4, by_ := by_ }

/-- A write to SHOOT on the current core: its fields, and with GO the shootdown (R124). -/
def State.writeShoot (s : State) (v : Word) : State :=
  let k := s.core
  let s' := s.setCore { k with csr := { k.csr with
    shoot := { tasid := bits v 48 12, vpn := bits v 16 32, level := bits v 2 2, busy := v.getLsbD 0 } } }
  if v.getLsbD 0 then s'.addShoot (shootOf v (.core s.cur)) else s'

/-- A write to TABORT on the current core: 1 ends its team fatally (R112). -/
def State.writeTabort (s : State) (v : Word) : State :=
  if v.getLsbD 0 then s.endFatally s.cur causeTeamAbort (zext s.core.csr.trapc.cause) else s

/-- Whether a value written to KSTATE would set PPRIV to a level that never runs here (R101, R149). -/
def badPpriv (r : Nat) (v : Word) : Bool := r == 0 && v.getLsbD 9

/-- wrc: a written MPROG holds until the next instruction retires (R115, R149, notes/assumptions/63). -/
def execWrc (a : BitVec 5) (r : BitVec 12) (s : State) : Result :=
  let v := s.g a
  if !assignedCreg r.toNat then trapIllegal s (.wrc a r)
  else if !mayWrite s.priv r.toNat || badPpriv r.toNat v then trapPrivilege s (.wrc a r)
  else if r = 0x041 then (if s.core.csr.shoot.busy then .next s else .next (s.writeShoot v).retire)
  else if r = 0x042 then .next (s.writeTabort v).retire
  else .next (s.retire.setCore (s.retire.core.setCsr (s.retire.core.csr.written s.now r.toNat v)))

/-! ## Trap return, waiting, ending -/

/-- eret: a return from a cause that is fatal by hardware ends the team (R109, R112, R150). -/
def execEret (s : State) : Result :=
  if s.priv = .user then trapPrivilege s .eret
  else if s.core.csr.trapc.hwfatal then .next (s.endFatally s.cur causeTeamAbort (zext s.core.csr.trapc.cause))
  else .next (s.setCore s.core.leaveTrap)

/-- Whether an asynchronous trap is pending on a core. -/
def Core.asyncPending (k : Core) : Bool := k.preempt.isSome || k.lost.isSome

/-- wfi: one that waits retires before a trap that becomes pending is taken (R151). -/
def execWfi (s : State) : Result :=
  let k := s.core
  if k.wake || k.inbox.any (·.arrived) || k.asyncPending then .next (s.setCore { k with wake := false }.retire)
  else .next (s.setCore { k with wait := .event })

/-- Whether a core ends as the pre-emption handler does: at supervisor level, in the trap of a PREEMPT (R374). -/
def Core.handsOff (k : Core) : Bool :=
  k.csr.kstate.priv == .supervisor && k.csr.kstate.intrap && k.csr.trapc.cause == causePreempt

/-- end: the thread ends, its lanes are released, and a pending pre-emption is answered "already ended"; in the handler
of a lost cluster the team ends fatally; the pre-emption handler hands its core over (R108, R113, R152, R187, R374).
DESIGN CHOICE: VLEN is 0 and the lots are free at once, also while vector instructions of the core have still to retire,
which then write what they read at issue (notes/assumptions/84). -/
def execEndThread (s : State) : Result :=
  let k := s.core.retire
  if k.csr.kstate.intrap && k.csr.trapc.hwfatal then
    .next ((s.setCore k).endFatally s.cur causeTeamAbort (zext k.csr.trapc.cause))
  else if k.handsOff then .next (s.setCore { k with run := .handed })
  else
    .next (s.setCore { k with run := .ended, inbox := [], preempt := none, minLots := 0, maxLots := 0,
                              csr := { k.csr with vlen := 0 } })

/-- The core that a global core id names, if a cluster holds it (R9). -/
def State.resumeTarget (s : State) (t : Word) : Option CoreId :=
  if 1023 < t.toNat then none
  else (s.holderOf (t.toNat / 8)).map fun k => coreOf k ⟨t.toNat % 8, by omega⟩

/-- Whether a RESUME waits: one of a sender that ranks behind its own has been decided for the core in this cycle, so that
it counts as one of a later cycle; sequencer cores rank by global core id, service cores after them (R148). -/
def State.resumeLate (s : State) (t : Word) (rank : Nat) : Bool :=
  (s.resumeTarget t).any fun c => (s.coreAt c).resumedBy.any fun d => d.1 == s.now && decide (rank < d.2)

/-- A thread parks no longer. -/
def Core.unparked (k : Core) : Core := k.setCsr { k.csr with kstate := { k.csr.kstate with park := false } }

/-- RESUME of a global core id by a sender of a rank: the state after it and the status (R148). DESIGN CHOICE: a core whose
team is placed, or restored, and whose thread has not started yet holds none (notes/assumptions/73). -/
def resumeCore (s : State) (t : Word) (rank : Nat) : State × Word :=
  if 1023 < t.toNat then (s, 2)
  else match s.resumeTarget t with
  | none => (s, 3)
  | some c =>
    let x := { s.coreAt c with resumedBy := some (s.now, rank) }
    if x.run != .running then (s.setCoreAt c x, 3)
    else if !x.csr.kstate.park then (s.setCoreAt c x, 1)
    else (s.setCoreAt c x.unparked, 0)

/-- resume (R148). -/
def execResume (d a : BitVec 5) (s : State) : Result :=
  if s.priv = .user then trapPrivilege s (.resume d a)
  else if s.resumeLate (s.g a) (s.globalId s.cur) then .next s
  else
    let r := resumeCore s (s.g a) (s.globalId s.cur)
    finishG r.1 d r.2

/-- RESUME by a service core, which receives the status; one that comes late is not enabled (R148,
notes/assumptions/28). -/
def State.serviceResume (s : State) (v : ServiceId) (t : Word) : State :=
  if s.resumeLate t (1024 + v.val) then s
  else
    let r := resumeCore s t (1024 + v.val)
    { r.1 with svcStatus := r.1.svcStatus.set v.val r.2 v.isLt }

/-! ## Events of traps -/

/-- Whether a core stands at an instruction boundary: nothing in progress but what a trap abandons (R111, R236). DESIGN
CHOICE: beside the waits that R111 names, these are abandoned and taken again: a rel or relall, whose clearing goes on
(notes/assumptions/62); a fence, also that of bar.arrive, bar.drop or bar.max; SEND's release; a store on a full buffer;
a load behind a store-buffer entry that it overlaps (notes/assumptions/80). -/
def Core.atBoundary (k : Core) : Bool := k.wait == .ready || k.wait == .acquire || k.wait == .unit

/-- Whether a core holds issue behind a vector instruction that may park it (R234). -/
def Core.holding (k : Core) : Bool := k.csr.fenable != 0 && k.vq.any (·.raises)

/-- Whether PREEMPT is taken now: pending, at a boundary that no park of a vector instruction comes before, with IE set
or the thread parked (R113, R234). DEDUCED: a parked thread takes it at once whatever IE holds, one that parked inside a
handler too, where with INTRAP set it is a DOUBLE_TRAP (notes/assumptions/44). -/
def Core.takesPreempt (k : Core) : Bool :=
  k.run == .running && k.preempt.isSome && k.atBoundary && !k.holding && (k.csr.kstate.ie || k.parked)

/-- Whether CLUSTER_LOST is taken now: the core can issue and stands at such a boundary (R108, R234). -/
def Core.takesLost (k : Core) : Bool := k.run == .running && k.lost.isSome && k.atBoundary && !k.holding && !k.parked

/-- PREEMPT is taken: what the core waits for is withdrawn; a parked thread runs its handler with PARK held (R111,
R113, R117). -/
def evPreempt (c : CoreId) (s : State) : Option State :=
  let k := s.coreAt c
  if k.takesPreempt then
    let s' := s.abandon c
    let k' := { s'.coreAt c with preempt := none, wait := .ready, parkAside := k.csr.kstate.park }
    some ((s'.setCoreAt c k').trapAt c causePreempt (zext (k.preempt.getD 0)) true)
  else none

/-- PREEMPT (R113). -/
def execPreempt (c : CoreId) (s : State) : Result := fire s (evPreempt c s)

/-- CLUSTER_LOST is taken (R108). -/
def evClusterLost (c : CoreId) (s : State) : Option State :=
  let k := s.coreAt c
  if k.takesLost then
    let s' := s.abandon c
    some ((s'.setCoreAt c { s'.coreAt c with lost := none, wait := .ready }).trapAt c causeClusterLost (k.lost.getD 0) true)
  else none

/-- CLUSTER_LOST (R108). -/
def execClusterLost (c : CoreId) (s : State) : Result := fire s (evClusterLost c s)

/-- The oldest held message of a core's parks is delivered (R147, R383). -/
def evFpEvent (c : CoreId) (s : State) : Option State :=
  let k := s.coreAt c
  let v := s.serviceOf c
  match k.heldEvent with
  | [] => none
  | w :: ws =>
    if s.svcRoom v then
      some ((s.setCoreAt c { k with heldEvent := ws }).svcPush v
        { word := w, kind := 1, asid := k.csr.asid, src := .ofNat 10 (s.globalId c), arrived := true })
    else none

/-- FP_EVENT (R147). -/
def execFpEvent (c : CoreId) (s : State) : Result := fire s (evFpEvent c s)

/-- TABORT_WRITE: what a written TABORT does on the current core (R112). -/
def execTabortWrite (v : Word) (s : State) : Result := .next (s.writeTabort v)

/-- EFAULT_CLEAR: what a written EFAULT does on the current core (R149). -/
def execEfaultClear (v : Word) (s : State) : Result := .next (s.setCore (s.core.setCsr (s.core.csr.clearEfault s.now v)))

/-- SPFLAG_WRITE: what a written SPFLAG does on the current core (R48). -/
def execSpflagWrite (v : Word) (s : State) : Result :=
  .next (s.setCore (s.core.setCsr { s.core.csr with spflag := bits v 0 2 }))

/-- WRRW_WRITE: what a written WRRW does on the current core (R102). -/
def execWrrwWrite (v : Word) (s : State) : Result :=
  .next (s.setCore (s.core.setCsr { s.core.csr with wrrw := wrrwStored v }))

/-- ILLEGAL_INSTRUCTION of a fetched word on the current core (R84). -/
def execIllegalInstruction (w : BitVec 32) (s : State) : Result := trap s causeIllegal (zext w)

/-- RESERVED_FIELD of a fetched word on the current core (R84). -/
def execReservedField (w : BitVec 32) (s : State) : Result := trap s causeReserved (zext w)

/-- FETCH_REGION, or NULL_REGION below the first TCM address, of a fetch on the current core (R84, R140). -/
def execFetchRegion (a : Word) (s : State) : Result :=
  trap s (if a.toNat < Config.tcmBase then causeNullRegion else causeFetchRegion) a

/-! ## Shootdowns -/

/-- SHOOT_GO: what a written SHOOT does on the current core; it waits while one is under way (R124). -/
def execShootGo (v : Word) (s : State) : Result := if s.core.csr.shoot.busy then .next s else .next (s.writeShoot v)

/-- Whether an access carries an older epoch of an ASID. -/
def oldEpoch (h : Shoot) (now : BitVec 16) (asid : BitVec 12) (epoch : BitVec 16) : Bool := asid == h.asid && epoch != now

/-- What a core still has under an old epoch (R124 step 4). -/
def Core.oldAccess (k : Core) (old : BitVec 12 → BitVec 16 → Bool) : Bool :=
  k.stores.any (fun e => e.kind == .phys && old e.asid e.epoch) ||
  match k.wait with
  | .load ld => old ld.asid ld.epoch
  | _ => false

/-- A shipped or map operation on its way under an old epoch (R124 step 5). -/
def TransitItem.oldAccess (old : BitVec 12 → BitVec 16 → Bool) : TransitItem → Bool
  | .ship o => old o.asid o.epoch
  | .map o => old o.asid o.epoch
  | .store _ _ | .copy _ _ | .loadMark => false

/-- Whether any access of an older epoch is outstanding (R124 steps 4 and 5). -/
def State.oldAccess (s : State) (h : Shoot) : Bool :=
  let old := oldEpoch h (s.tenant h.asid).epoch
  s.cores.any (·.oldAccess old) || s.transit.any (·.item.oldAccess old) ||
  s.ships.any (fun o => o.result.isNone && old o.asid o.epoch) ||
  s.mapOps.any (fun o => o.result.isNone && old o.asid o.epoch) ||
  s.granules.any (fun g => g.space == .phys && old g.asid g.epoch)

/-- Whoever waited for a shootdown learns of its end (R124, R310). -/
def State.acknowledge (s : State) : ShootBy → State
  | .core c =>
    let k := s.coreAt c
    s.setCoreAt c { k with csr := { k.csr with shoot := { k.csr.shoot with busy := false } } }
  | .tier d =>
    { s with migrations := replaceFirst (fun m => m.die == d && m.phase == .shooting)
                             (fun m => { m with phase := .copying }) s.migrations }
  | .service _ => s

/-- The shootdown under way completes, and the next begins (R124). -/
def evShootdownComplete (s : State) : Option State :=
  match s.shoots with
  | [] => none
  | h :: rest =>
    if s.oldAccess h then none
    else
      let s' := ({ s with shoots := rest }).acknowledge h.by_
      some (match rest with
        | [] => s'
        | n :: _ => s'.beginShoot n)

/-- SHOOTDOWN_COMPLETE (R124). -/
def execShootdownComplete (s : State) : Result := fire s (evShootdownComplete s)

end Sys2Proof.Machine
end

