-- ==== Sys2Proof/Machine/Messages.lean ====
section
/-! DEFINITION. Cluster messages, completion counters and the issue of engine commands (spec/07 R153-R162). -/

namespace Sys2Proof.Machine

/-! ## Messages -/

/-- The core of the current team with a TCORE (R154). -/
def State.teamCore (s : State) (n : Nat) : Option CoreId :=
  ((s.teamOf s.cur).bind (fun t => t.cores[n]?)).map (coreOf s.curCluster)

/-- Whether the thread of a TCORE of the current team has ended, on core `c` or before that core was freed (R152). -/
def State.hasEnded (s : State) (n : Nat) (c : CoreId) : Bool :=
  if (s.coreAt c).slot = s.core.slot then (s.coreAt c).run == .ended else (s.teamOf s.cur).any fun t => t.ended.getLsbD n

/-- Whether a core of a team has taken PREEMPT and not resumed (R153). DESIGN CHOICE: that lasts while it is in the trap of
the PREEMPT, or not running; an ERET, or a cleared INTRAP, ends it (notes/assumptions/78). -/
def Core.preemptTaken (k : Core) : Bool :=
  k.run != .running || (k.csr.kstate.intrap && k.csr.trapc.cause == causePreempt)

/-- The word that SEND delivers (R154). -/
def State.sentWord (s : State) (a : BitVec 5) : Word :=
  (zext s.core.csr.tcore <<< 56) ||| (s.g a &&& 0x00FFFFFFFFFFFFFF)

/-- SEND to the quadrant's service core (R154, R383). -/
def sendService (s : State) (d a : BitVec 5) : Result :=
  let v := s.serviceOf s.cur
  if s.svcRoom v then
    finishG (s.svcPush v { word := s.sentWord a, kind := 0, asid := s.core.csr.asid,
                           src := .ofNat 10 (s.globalId s.cur), arrived := false }) d 0
  else finishG s d 1

/-- SEND to a core of the team; one that a pre-emption has freed takes no word (R153, R154). -/
def sendCore (s : State) (d a : BitVec 5) (n : Nat) : Result :=
  match s.teamCore n with
  | none => finishG s d 2
  | some c =>
    let k := s.coreAt c
    if s.hasEnded n c then finishG s d 2
    else if k.slot ≠ s.core.slot || k.preemptTaken || 8 ≤ k.inbox.length then finishG s d 1
    else finishG (s.setCoreAt c { k with inbox := k.inbox ++ [⟨false, s.sentWord a⟩] }) d 0

/-- send: it waits for its release at CLUSTER (R154, R156). DESIGN CHOICE: the status is decided after the release, as the
destination then is; an asynchronous trap at the wait abandons it, and the SEND is taken again (notes/assumptions/80). -/
def execSend (d a : BitVec 5) (t : BitVec 4) (s : State) : Result :=
  if 8 < t.toNat then trapIllegal s (.send d a t)
  else if !s.core.clusterFenced then .next s
  else if t = 8 then sendService s d a
  else if s.core.csr.tsize.toNat ≤ t.toNat then finishG s d 2
  else sendCore s d a t.toNat

/-- The oldest word of an inbox, if it has arrived. -/
def Core.oldestWord (k : Core) : Option Word :=
  match k.inbox with
  | w :: _ => if w.arrived then some w.word else none
  | [] => none

/-- The current core takes its oldest inbox word into g[d] (R155). -/
def takeWord (s : State) (d : BitVec 5) (w : Word) : Result :=
  finishG (s.setCore { s.core with inbox := s.core.inbox.tail }) d w

/-- recv (R155). -/
def execRecv (d : BitVec 5) (s : State) : Result :=
  match s.core.oldestWord with
  | some w => takeWord s d w
  | none => .next s

/-- recv.t (R155). -/
def execRecvT (d : BitVec 5) (s : State) : Result :=
  match s.core.oldestWord with
  | some w => takeWord s d w
  | none => finishG s d (-1)

/-- The oldest word in flight arrives (R151, R153). -/
def evMessageArrival (d : MsgDest) (s : State) : Option State :=
  match d with
  | .core c =>
    let k := s.coreAt c
    if k.inbox.all (·.arrived) then none
    else
      let l := replaceFirst (fun w => !w.arrived) (fun w => { w with arrived := true }) k.inbox
      some (s.setCoreAt c { k with wake := true, inbox := l })
  | .service v =>
    let l := s.svc[v]
    if l.all (·.arrived) then none
    else
      let l' := replaceFirst (fun e => !e.arrived) (fun e => { e with arrived := true }) l
      some { s with svc := s.svc.set v.val l' v.isLt }

/-- MESSAGE_ARRIVAL (R153). -/
def execMessageArrival (d : MsgDest) (s : State) : Result := fire s (evMessageArrival d s)

/-! ## Counters -/

/-- A waitc with threshold `n` (R158). -/
def waitCounter (s : State) (c : BitVec 4) (n : Nat) : Result :=
  if n = 0 ∨ 255 < n ∨ (s.core.readC c).toNat < n then .next s.retire else .next s

/-- waitc with an immediate: 0 is illegal (R158). -/
def execWaitc (d : BitVec 4) (i : BitVec 8) (s : State) : Result :=
  if i = 0 then trapIllegal s (.waitc d i) else waitCounter s d i.toNat

/-- waitc with a register (R158). -/
def execWaitcReg (d : BitVec 4) (a : BitVec 5) (s : State) : Result := waitCounter s d (s.g a).toNat

/-- rdcnt (R159). -/
def execRdcnt (d : BitVec 5) (a : BitVec 4) (s : State) : Result := finishG s d (zext (s.core.readC a))

/-! ## Engine issue -/

/-- The eight words of a command at an address of memory. -/
def readCmd (m : Mem) (a : Nat) : CmdWord :=
  { w0 := Memory.read32 m a, w1 := Memory.read32 m (a + 4), w2 := Memory.read32 m (a + 8),
    w3 := Memory.read32 m (a + 12), w4 := Memory.read32 m (a + 16), w5 := Memory.read32 m (a + 20),
    w6 := Memory.read32 m (a + 24), w7 := Memory.read32 m (a + 28) }

/-- A command as ENQ queues it (R161). -/
def newCmd (seq : Nat) (c : CoreId) (e : Engine) (counter : BitVec 4) (reply : Option (BitVec 5)) (w : CmdWord) : Cmd :=
  { seq := seq, core := c, engine := e, counter := counter, reply := reply, word := w, place := .queue,
    phase := .queued, row := 0, byte := 0, boards := 0, width := 0, ascales := [], wscales := [], fetched := [], count := 0, skipped := 0,
    unstaged := 0, pos := 0, turn := 0, matched := false, mixed := false,
    sent := false, got := [], written := 0, fault := none, result := 0 }

/-- A core's queue of an engine, oldest first. -/
def State.queueOf (s : State) (c : CoreId) (e : Engine) : List Cmd :=
  s.cmds.filter fun x => x.core == c && x.engine == e && x.place == .queue

/-- The command enters its queue and its counter counts it, in one step (R161). With a reply the core waits
(R162). -/
def enqueueCmd (s : State) (e : Engine) (counter : BitVec 4) (d : BitVec 5) (w : CmdWord) : Result :=
  let k := s.core.writeC counter (s.core.readC counter + 1)
  let reply := if d = 0 then none else some d
  let s' := { s with nextSeq := s.nextSeq + 1, cmds := s.cmds ++ [newCmd s.nextSeq s.cur e counter reply w] }
  if d = 0 then .next (s'.setCore k.retire) else .next (s'.setCore { k with wait := .enqReply s.nextSeq d })

/-- enq (R161, R162). -/
def execEnq (e : BitVec 3) (c : BitVec 4) (a d : BitVec 5) (s : State) : Result :=
  let w := s.g a
  let en := engineOf e.toNat
  if 3 < e.toNat then trapIllegal s (.enq e c a d)
  else if w.toNat % 32 ≠ 0 then trap s causeMisaligned w
  else if w.toNat < Config.tcmBase ∨ Config.tcmBase + Config.tcmBytes ≤ w.toNat + 31 then trap s causeFetchRegion w
  else if 2 ≤ (s.queueOf s.cur en).length then .next s
  else if s.core.readC c = 255 then trap s causeCounterOverflow (zext c)
  else if s.core.stores.any (fun x => x.meets .tcm w.toNat 32) then .next s
  else enqueueCmd s en c d (readCmd s.core.tcm (w.toNat - Config.tcmBase))

end Sys2Proof.Machine
end

