-- ==== Sys2Proof/Machine/Commands.lean ====
section
/-! DEFINITION. What the four engines share: which command starts, acquire and release, faults, completion (spec/03
R59-R64, spec/05 R106, spec/07 R160-R162). -/

namespace Sys2Proof.Machine

/-- A command that has not started, or waits to go on after a resume. -/
def Cmd.unstarted (x : Cmd) : Bool := x.phase == .queued || x.phase == .held || x.phase == .stopped

/-- Whether a core awaits the reply of this command, or of one behind it that it could hold up: of its queue, of the array,
or of its team's turn of a group (R162, notes/assumptions/36). -/
def State.replyBehind (s : State) (x : Cmd) : Bool :=
  s.cmds.any fun y => y.engine == x.engine && y.reply.isSome &&
    ((decide (x.seq ≤ y.seq) && (y.core == x.core || (x.engine == .arr && s.sameTeam y.core x.core))) ||
      (x.engine == .col && y.word.w1 == x.word.w1 && !x.unstarted && (y.unstarted || decide (x.pos < y.pos)) &&
        s.sameTeam y.core x.core))

/-- The cores of a team that it still holds, with their TCOREs. -/
def State.coresOf (s : State) (k : ClusterId) (t : Slot) (x : Team) : List (Nat × CoreId) :=
  (List.range x.cores.length).filterMap fun i =>
    let c := coreOf k (x.cores.getD i 0)
    if (s.coreAt c).slot = some t then some (i, c) else none

/-- Whether every thread of a team has retired END (R152). -/
def State.allEnded (s : State) (k : ClusterId) (t : Slot) (x : Team) : Bool :=
  (List.range x.cores.length).all fun i =>
    x.ended.getLsbD i || (s.coresOf k t x).any fun e => e.1 == i && (s.coreAt e.2).run == .ended

/-- Whether the launch unit has begun to stop the engines of a team that it pre-empts: a core has been handed over
(R374). -/
def State.enginesStop (s : State) (k : ClusterId) (t : Slot) (x : Team) : Bool :=
  decide ((s.coresOf k t x).length < x.cores.length) || (s.coresOf k t x).any fun e => (s.coreAt e.2).run == .handed

/-- Whether a command is a collective that has started and is not matched. -/
def Cmd.unmatched (x : Cmd) : Bool := x.engine == .col && x.phase == .running && !x.matched

/-- Whether engines go on with a command: its team runs, or its pre-emption has not reached the engines, or a core
awaits a reply through it, which none of a team that ends does of an unmatched collective, or it is one of the agents'
(R112, R162, R205, R277, R374, notes/assumptions/36). -/
def State.goesOn (s : State) (x : Cmd) : Bool :=
  let k := clusterOf x.core
  match (s.coreAt x.core).slot.bind fun t => (s.team k t).map fun y => (t, y) with
  | none => true
  | some (t, y) =>
    y.status == .starting || y.status == .running || (y.status == .preempting && !s.enginesStop k t y) ||
    (s.replyBehind x && !(y.status == .fatal && x.unmatched)) || x.engine == .agt

/-- Whether a command is at the head of its core's queue (R272). -/
def State.atHead (s : State) (x : Cmd) : Bool := ((s.queueOf x.core x.engine).head?).any (·.seq == x.seq)

/-- Whether a command may start now: in queue order, an array command at the head or from the hold area (R64, R284,
R300). -/
def State.mayStart (s : State) (x : Cmd) : Bool :=
  x.unstarted && s.goesOn x &&
  match x.engine with
  | .arr => x.place == .hold || s.atHead x
  | e => !(s.queueOf x.core e).any (fun y => decide (y.seq < x.seq) && y.unstarted)

/-- The command whose start is at work goes on as `go` says, where it may (R64). -/
def startCmd (s : State) (go : Cmd → Option State) : Result :=
  fire s ((s.cmd s.cmdRef).bind fun x => if s.mayStart x then go x else none)

/-- Whether a collective has started and not matched, and its team's stop lets it match no more: it is withdrawn, or
aborts its turn (R196, R205). -/
def State.withdrawn (s : State) (x : Cmd) : Bool := x.unmatched && !s.goesOn x

/-- Whether an earlier command of a command's queue has accesses to make that a later one could meet: it has started and
not decremented, nor is withdrawn, or its writes are outstanding (R64). None of the array's has: a command that hands its queue's head on
has read all that it reads but a group that no write reaches, and its drains come before those of later rows (R48,
R272, R274, R284). -/
def State.queueBusy (s : State) (x : Cmd) : Bool :=
  (x.engine != .arr &&
    s.cmds.any fun y => y.core == x.core && y.engine == x.engine && decide (y.seq < x.seq) && !y.unstarted && !s.withdrawn y) ||
  (x.engine == .cpy && s.granules.any fun g => g.core == x.core && decide (g.seq < x.seq))

/-- Whether a write that the core may have observed before a command's ENQ is still on its way, accepted before: in a
gateway one of its die, and for `host` in a host port one of any die, which a group's barrier may have counted (R60,
R209, R298). -/
def State.observedWay (s : State) (x : Cmd) (host : Bool) : Bool :=
  s.transit.any fun t => decide (t.seq ≤ x.seq) && t.item != .loadMark &&
    match t.queue with
    | .gateway _ _ => dieOfCore t.core == dieOfCore x.core
    | .hostPort _ => host
    | .stack _ => false

/-- Whether a write of an earlier command of a command's queue is on its way to its home, for `host` in a host port too
(R64). -/
def State.queueWay (s : State) (x : Cmd) (host : Bool) : Bool :=
  s.transit.any fun t => t.item.copied.any (fun g => g.core == x.core && decide (g.seq < x.seq)) &&
    match t.queue with
    | .hostPort _ => host
    | _ => true

/-- Whether a command's acquire is performed: the core's own earlier writes, those that it had observed, and the
accesses of the earlier commands of its queue; one that resumes performs none (R60, R64, R280, R298, R316). -/
def State.acquired (s : State) (x : Cmd) : Bool :=
  x.phase == .stopped ||
  match (hdrOf x.word.w0.toNat).acq with
  | none => true
  | some .system =>
    s.packageFenced x.core && !s.transit.any (fun t => t.unperformed x.core true) && !s.observedWay x true &&
      !s.queueBusy x && !s.queueWay x true
  | some .package | some .fabric =>
    s.packageFenced x.core && !s.observedWay x false && !s.queueBusy x && !s.queueWay x false
  | some _ => (s.coreAt x.core).dieFenced && !s.queueBusy x

/-- Whether an engine of a core reaches a line now: its home is awake and none of its requests queues there; after an
acquire also no store of the die to the line is still on the way (R55, R60, R334). -/
def State.engineReaches (s : State) (x : Cmd) (pa : Nat) : Bool :=
  (s.stackQueue pa).isNone && !s.lineHeld pa &&
  ((hdrOf x.word.w0.toNat).acq.isNone ||
    !s.transit.any (fun t => some t.queue == wayQueue x.core pa && t.item != .loadMark && lineOf t.item.pa == lineOf pa))

/-! ## Progress -/

/-- A command stops at a fault (R63). -/
def State.faultCmd (s : State) (seq : Nat) (cause : BitVec 8) (aux : Word) : State :=
  s.setCmd seq fun x => { x with phase := .finished, fault := some (cause, aux) }

/-- A command has done all but its release, reply and decrement. -/
def State.finishCmd (s : State) (seq : Nat) (result : Word) : State :=
  s.setCmd seq fun x => { x with phase := .finished, result := result }

/-- A command is under way. -/
def State.runCmd (s : State) (seq : Nat) : State := s.setCmd seq fun x => { x with phase := .running }

/-- ENGFA of a word and bit of a command word (R282, notes/assumptions/33). -/
def fieldAux (e : Nat × Nat) : Word := .ofNat 64 (e.1 + e.2 * 256)

/-- ENGFA of a command whose word fails its checks at a field: the group id of a collective command (R88, R194, R282).
-/
def State.rejectAux (s : State) (seq : Nat) (e : Nat × Nat) : Word :=
  match s.cmd seq with
  | some x => if x.engine = .col then zext (bits x.word.w1 0 12) else fieldAux e
  | none => fieldAux e

/-- A command whose word fails its checks (R88, R282). -/
def State.rejectCmd (s : State) (seq : Nat) (e : Nat × Nat) : State :=
  s.faultCmd seq causeCmdReserved (s.rejectAux seq e)

/-! ## Completion -/

/-- Whether every write that a command's release covers is performed at its scope, the descriptor of its map among them,
and every drain is written: at DIE or narrower a write is once it is accepted, at PACKAGE and FABRIC at its home, at SYSTEM
at the host too (R52, R54, R61, R283, R308, R339). -/
def State.released (s : State) (x : Cmd) : Bool :=
  let made := !s.granules.any (·.seq == x.seq) && !s.maps.any fun m => m.maker == x.seq && !m.written
  !((s.cl (clusterOf x.core)).drain.any (·.seq == x.seq)) &&
  match (hdrOf x.word.w0.toNat).rel with
  | none => true
  | some .system => made && !s.copyOut x.seq true
  | some .package | some .fabric => made && !s.copyOut x.seq false
  | some _ => made

/-- A core's counter drops by one, never below zero, and its wake bit is set (R100, R151). -/
def Core.decrement (k : Core) (c : BitVec 4) : Core :=
  { k.writeC c (if k.readC c = 0 then 0 else k.readC c - 1) with wake := true }

/-- EFAULT, and the first fault's record (R63, R106). -/
def Csr.noteFault (x : Csr) (e : Engine) (c : BitVec 4) (cause : BitVec 8) (aux : Word) : Csr :=
  let y := { x with efault := x.efault ||| 1 <<< c.toNat }
  if x.engfc.getLsbD 15 then y
  else { y with engfc := .ofNat 16 (0x8000 + engineCode e * 4096 + c.toNat * 256 + cause.toNat), engfa := aux }

/-- EFAULT of a core for a command that faults in cycle `now`, before its decrement (R63, R149). -/
def Core.noteFault (k : Core) (x : Cmd) (now : Nat) : Core :=
  match x.fault with
  | none => k
  | some (cause, aux) =>
    k.setCsr ((k.csr.noteFault x.engine x.counter cause aux).noteSet now 0 (1 <<< x.counter.toNat))

/-- The reply of a command: its result, or all ones after a fault (R162). -/
def Cmd.answer (x : Cmd) : Word := if x.fault.isSome then -1 else x.result

/-- A core that waits for the reply of a command receives it (R162). -/
def Core.takeReply (k : Core) (x : Cmd) : Core :=
  match k.wait with
  | .enqReply q d => if q = x.seq then (k.writeG d x.answer).retire else k
  | _ => k

/-- A command's fault is noted, its reply delivered, its counter decremented, and it is gone (R61-R63, R162). -/
def State.complete (s : State) (x : Cmd) : State :=
  { s.setCoreAt x.core ((((s.coreAt x.core).noteFault x s.now).takeReply x).decrement x.counter) with
    cmds := s.cmds.filter (·.seq != x.seq) }

/-- Whether a command stands at an earlier position of a data command's group and turn. -/
def Cmd.posBefore (y x : Cmd) : Bool :=
  y.engine == .col && !y.unstarted && y.word.w1 == x.word.w1 && decide (y.pos < x.pos)

/-- Whether a pre-emption has saved an earlier command of a data command's turn (R205). -/
def State.savedBefore (s : State) (x : Cmd) : Bool := (s.teamOf x.core).any fun t => t.saved.any (·.posBefore x)

/-- Whether no earlier data command of the same team, group and turn still has to decrement; one that a pre-emption has
saved holds no reply back, for which the pre-emption itself would wait (R111, R198, notes/assumptions/66). -/
def State.collTurn (s : State) (x : Cmd) : Bool :=
  x.engine != .col ||
  (!s.cmds.any (fun y => y.posBefore x && s.sameTeam y.core x.core) && (x.reply.isSome || !s.savedBefore x))

/-- Whether a packet of a collective command has not been accepted by the next port (R201). DESIGN CHOICE: the tiles
that the member's port forwards for another source are not its command's (notes/assumptions/66). -/
def State.collSending (s : State) (x : Cmd) : Bool :=
  s.packets.any fun p => p.hop == p.src && p.turn == x.turn && p.pos == x.pos && p.gnum == bits x.word.w1 4 8 &&
    (s.cl (clusterOf x.core)).logical == some p.src && p.asid == (s.coreAt x.core).csr.asid

/-- Whether a collective command has sent and received all (R201). -/
def State.collDone (s : State) (x : Cmd) : Bool :=
  x.engine == .col && x.phase == .running && x.sent && decide (x.count ≤ x.written) && !s.collSending x

/-- Whether an arr.mmt has granted all its rows, and only its drains, release and decrement remain (R272). -/
def Cmd.rowsGranted (x : Cmd) : Bool :=
  x.engine == .arr && x.phase == .finished && x.fault.isNone && fld x.word.w0.toNat 0 8 == 3

/-- Whether a stop saves an arr.mmt that has granted all its rows, with ROW = M, instead of letting it decrement (R277,
R319). DESIGN CHOICE: the two entries of its core in the save area go to the youngest of its commands that are queued or
have granted all their rows; an older one decrements before the stop (R279, R284, notes/assumptions/76). -/
def State.savesGranted (s : State) (x : Cmd) : Bool :=
  x.rowsGranted &&
  decide ((s.cmds.filter fun y => y.core == x.core && y.engine == .arr && (y.place == .queue || y.rowsGranted) &&
    decide (x.seq < y.seq)).length < 2)

/-- A finished command completes (R61); an arr.mmt that its team's stop saves does not (R277). -/
def evCommandComplete (seq : Nat) (s : State) : Option State :=
  match s.cmd seq with
  | none => none
  | some x =>
    if (x.phase = .finished || s.collDone x) && s.released x && s.collTurn x && (s.goesOn x || !s.savesGranted x) then
      some (s.complete x)
    else none

/-- COMMAND_COMPLETE (R61). -/
def execCommandComplete (seq : Nat) (s : State) : Result := fire s (evCommandComplete seq s)

/-! ## Team memory as an engine reaches it -/

/-- What an engine's access gives; what a fault leaves counted and noted stays. -/
inductive Eng (α : Type) where
  | ok (s : State) (x : α)
  | stall
  | fault (s : State) (cause : BitVec 8) (aux : Word)

/-- Goes on with what an engine read; a stall waits, a fault stops the command. -/
def Eng.next {α : Type} (r : Eng α) (seq : Nat) (go : State → α → Option State) : Option State :=
  match r with
  | .ok s' x => go s' x
  | .stall => none
  | .fault s' c x => some (s'.faultCmd seq c x)

/-- An engine of a core reads `n` bytes at a team-virtual offset, all in one granule; a granule in error faults
(R48, R281). -/
def engRead (s : State) (c : CoreId) (sp : Space) (off n : Nat) : Eng Nat :=
  if s.granuleBad c sp off then
    .fault s causeDataError (.ofNat 64 off)
  else match s.readTeam c sp off n with
  | none => .stall
  | some (s', v) => .ok s' v

/-- Numbers of `n` bytes each, read at offsets in order. -/
def engReads (s : State) (c : CoreId) (sp : Space) (n : Nat) : List Nat → Eng (List Nat)
  | [] => .ok s []
  | o :: os => match engRead s c sp o n with
    | .stall => .stall
    | .fault s' k x => .fault s' k x
    | .ok s' v => match engReads s' c sp n os with
      | .ok s'' l => .ok s'' (v :: l)
      | r => r

end Sys2Proof.Machine
end

