-- ==== Sys2Proof/Machine/Array.lean ====
section
/-! DEFINITION. The ternary array: boards, rows and drains, and the output of accumulators (spec/14, spec/15). -/

namespace Sys2Proof.Machine

/-! ## Boards -/

/-- The cluster of a command. -/
def State.clusterOfCmd (s : State) (x : Cmd) : Cluster := s.cl (clusterOf x.core)

/-- The bank group that a command's team holds as board slot `b` (R260). -/
def State.boardGroup (s : State) (x : Cmd) (b : Nat) : Option Nat :=
  (s.coreAt x.core).slot.bind fun t => (s.clusterOfCmd x).boardOf t b

/-- Replaces a bank group of a command's cluster. -/
def State.setBoard (s : State) (x : Cmd) (g : Nat) (v : Group) : State :=
  s.setCl (clusterOf x.core) ((s.clusterOfCmd x).setGroup g v)

/-- Board slots that a board command names, from word 1. -/
def slotOfCmd (x : Cmd) : Nat := x.word.w1.toNat % 8

/-- Whether an earlier held command of the same core names one of some slots; a held arr.clrboard counts until its
clearing has ended (R284). -/
def State.behindHeld (s : State) (x : Cmd) (slots : List Nat) : Bool :=
  s.cmds.any fun y => y.core == x.core && y.engine == .arr && decide (y.seq < x.seq) && y.place == .hold &&
    y.phase != .finished && slots.contains (slotOfCmd y)

/-- Commands of a core in its hold area (R284). -/
def State.holdCount (s : State) (c : CoreId) : Nat :=
  (s.cmds.filter fun y => y.core == c && y.place == .hold && y.phase == .held).length

/-- A board command is held: it hands the head on while the hold area has room (R284). -/
def State.holdCmd (s : State) (x : Cmd) : Option State :=
  if x.place = .hold || 8 ≤ s.holdCount x.core then none
  else some (s.setCmd x.seq fun y => { y with place := .hold, phase := .held })

/-- Whether a group still moves or zeroes pages that its token brought (R172, R186). -/
def Cluster.groupBusy (x : Cluster) (g : Nat) : Bool :=
  x.zeroing.any (fun u => match u with | .page p => p / 16 == g | _ => false) || x.reloc.any (·.1 / 16 == g)

/-- Whether a started arr.mmt of a command's team names a slot: it runs, is finished, or has stopped, saved by a
pre-emption too (R262, R280). -/
def State.boardInUse (s : State) (x : Cmd) (b : Nat) : Bool :=
  (s.teamCmds x.core).any fun y => y.engine == .arr && y.boards.getLsbD b

/-- A conversion starts (R261). -/
def State.convert (s : State) (x : Cmd) (g : Nat) (width wscale : Nat) : State :=
  (s.setBoard x g { (s.clusterOfCmd x).group g with mode := .converting, width := width, wscale := wscale,
                                                    cmd := some x.seq }).setCmd x.seq
    fun y => { y with phase := .running, place := .gone }

/-- arr.mkboard at its start (R286). DESIGN CHOICE: while pages of a group in DATA still move or are zeroed it is not
started and keeps the head of its queue (notes/assumptions/75). -/
def startMkboard (s : State) (x : Cmd) (b width wscale : Nat) : Option State :=
  if !s.acquired x then none
  else if s.behindHeld x [b] then s.holdCmd x
  else match s.boardGroup x b with
  | none => some (s.faultCmd x.seq causeBoardState (.ofNat 64 b))
  | some g =>
    match ((s.clusterOfCmd x).group g).mode with
    | .data => if (s.clusterOfCmd x).groupBusy g then none else some (s.convert x g width wscale)
    | .clearing => s.holdCmd x
    | _ => some (s.faultCmd x.seq causeBoardState (.ofNat 64 g))

/-- arr.mkboard (R285, R286). -/
def execArrMkboard (_h : Hdr) (slot : BitVec 3) (width : BitVec 13) (wscale : BitVec 21) (s : State) : Result :=
  startCmd s fun x => startMkboard s x slot.toNat width.toNat wscale.toNat

/-- An arr.clrboard takes part in a clearing; a held one keeps its place in the hold area until the clearing has ended
(R284). -/
def State.runClear (s : State) (x : Cmd) : State :=
  s.setCmd x.seq fun y => { y with phase := .running, place := if y.place = .hold then .hold else .gone }

/-- arr.clrboard at its start: on a group in CLEARING it completes when that clearing ends (R260, R287). -/
def startClrboard (s : State) (x : Cmd) (b : Nat) : Option State :=
  if !s.acquired x then none
  else if s.behindHeld x [b] then s.holdCmd x
  else match s.boardGroup x b with
  | none => some (s.faultCmd x.seq causeBoardState (.ofNat 64 b))
  | some g =>
    let grp := (s.clusterOfCmd x).group g
    match grp.mode with
    | .data => some (s.finishCmd x.seq 0)
    | .clearing => some (s.runClear x)
    | .converting => s.holdCmd x
    | .board =>
      if s.boardInUse x b then s.holdCmd x
      else some ((s.setBoard x g { grp with mode := .clearing, cmd := none }).runClear x)

/-- arr.clrboard (R287). -/
def execArrClrboard (_h : Hdr) (slot : BitVec 3) (s : State) : Result := startCmd s fun x => startClrboard s x slot.toNat

/-- The lowest illegal trit byte of a group under a width, as its group byte offset (R261). -/
def illegalTrit (m : Mem) (g width : Nat) : Option Nat :=
  (m.find? (fun c => decide (g * 262144 ≤ c.1) && decide (c.1 < g * 262144 + 64 * width) && decide (243 ≤ c.2.toNat))).map
    fun c => c.1 - g * 262144

/-- A conversion that a restore runs meets an illegal byte: its team ends fatally (R191). -/
def abortRestore (s : State) (k : ClusterId) (g : Group) : State :=
  match g.holder with
  | none => s
  | some (t, _) => s.setCl k ((s.cl k).mapTeam t fun x =>
      { x with status := .fatal, fatal := some (x.fatal.getD (causeTeamAbort, zext causeTritByte)) })

/-- A conversion ends: the group is a board, or data again where a checked byte is illegal (R261). A conversion that a
restore runs belongs to no command (R191). -/
def evBoardConversionDone (k : ClusterId) (g : Slot) (s : State) : Option State :=
  let x := s.cl k
  let grp := x.group g.val
  if grp.mode ≠ .converting then none
  else
    let put := fun (v : Group) => s.setCl k (x.setGroup g.val v)
    match illegalTrit x.spm g.val grp.width, grp.cmd with
    | some o, some q =>
      some ((put { grp with mode := .data, width := 0, wscale := 0, cmd := none }).faultCmd q causeTritByte (.ofNat 64 o))
    | some _, none => some (abortRestore (put { grp with mode := .data, width := 0, wscale := 0 }) k grp)
    | none, some q => some ((put { grp with mode := .board, cmd := none }).finishCmd q 0)
    | none, none => some (put { grp with mode := .board })

/-- BOARD_CONVERSION_DONE (R261). -/
def execBoardConversionDone (k : ClusterId) (grp : Slot) (s : State) : Result := fire s (evBoardConversionDone k grp s)

/-- Whether a running command is an arr.clrboard of a bank group. -/
def State.clears (s : State) (k : ClusterId) (g : Nat) (x : Cmd) : Bool :=
  x.engine == .arr && x.phase == .running && clusterOf x.core == k &&
  match decodeCommand .arr x.word with
  | .ok (.arrClrboard _ b) => s.boardGroup x b.toNat == some g
  | _ => false

/-- A clearing ends: the group is data, its width and table forgotten, and every arr.clrboard that takes part in it is
done (R262). -/
def evBoardClearDone (k : ClusterId) (g : Slot) (s : State) : Option State :=
  let x := s.cl k
  let grp := x.group g.val
  if grp.mode ≠ .clearing then none
  else
    let s' := s.setCl k (x.setGroup g.val { grp with mode := .data, width := 0, wscale := 0, cmd := none })
    some { s' with cmds := s.cmds.map fun y => if s.clears k g.val y then { y with phase := .finished, result := 0 } else y }

/-- BOARD_CLEAR_DONE (R262). -/
def execBoardClearDone (k : ClusterId) (grp : Slot) (s : State) : Result := fire s (evBoardClearDone k grp s)

/-! ## The start of arr.mmt -/

/-- What taking the boards of a mask gives: the groups, a wait, or a fault (R290). -/
inductive Boards where
  | ok (gs : List Nat)
  | hold
  | fault (aux : Nat)
  deriving DecidableEq, Repr

/-- Takes boards in ascending slot order; a resumed command does not wait for a conversion (R280, R290). -/
def takeBoards (s : State) (x : Cmd) : List Nat → Boards
  | [] => .ok []
  | b :: bs =>
    match s.boardGroup x b with
    | none => .fault b
    | some g =>
      match ((s.clusterOfCmd x).group g).mode with
      | .board => match takeBoards s x bs with
        | .ok gs => .ok (g :: gs)
        | r => r
      | .converting => if x.phase = .stopped then .fault g else .hold
      | _ => .fault g

/-- The width of some boards, which are all of one: none without a board (R263). -/
def Cluster.widthOf (x : Cluster) (gs : List Nat) : Nat := (gs.head?.map fun g => (x.group g).width).getD 0

/-- The first group whose width differs from the first's (R263). -/
def oddWidth (x : Cluster) (gs : List Nat) : Option Nat :=
  gs.find? fun g => (x.group g).width != (x.group (gs.headD 0)).width

/-- Offsets of the words of an activation-scale table set (R290). -/
def ascaleOffs (ascale tables m : Nat) : List Nat := (List.range (tables * 2 * m)).map fun e => (ascale + 4 * e) % 2 ^ 21

/-- Words of a weight-scale table that a board of a width uses, two for each group of 128 columns (R40, R290). -/
def wscaleWords (width : Nat) : Nat := 2 * ((width + 127) / 128)

/-- Offsets of the words of a weight-scale table that a board of a width uses (R40, R290). -/
def wscaleOffs (wscale width : Nat) : List Nat := (List.range (wscaleWords width)).map fun e => wscale + 4 * e

/-- Offsets of the weight scales of a bank group's board. -/
def Group.scaleOffs (g : Group) : List Nat := wscaleOffs g.wscale g.width

/-- Numbers as 32-bit words. -/
def words32 (l : List Nat) : List (BitVec 32) := l.map (.ofNat 32 ·)

/-- arr.mmt with its boards found: setup reads the scale tables, and the command runs (R280, R289, R290, R319). -/
def setupMmt (s : State) (x : Cmd) (gs : List Nat) (mask : BitVec 8) (kchain : Bool) (ascale m : Nat) : Option State :=
  (engReads s x.core .spm 4 (ascaleOffs ascale (if kchain then gs.length else 1) m)).next x.seq fun s1 as =>
    (engReads s1 x.core .spm 4 (gs.flatMap fun g => ((s.clusterOfCmd x).group g).scaleOffs)).next x.seq fun s2 ws =>
      some (s2.setCmd x.seq fun y =>
        { y with boards := mask, width := (s.clusterOfCmd x).widthOf gs, ascales := words32 as, wscales := words32 ws,
                 phase := if gs.isEmpty || decide (m ≤ y.row) then .finished else .running })

/-- arr.mmt at its start (R280, R284, R290, R319). -/
def startMmt (s : State) (x : Cmd) (mask : BitVec 8) (kchain : Bool) (ascale m : Nat) : Option State :=
  let named := if x.phase = .stopped then x.boards else mask
  if !s.acquired x || s.behindHeld x (maskBits named) then none
  else if x.phase = .stopped && decide (m < x.row) then some (s.rejectCmd x.seq (0, 0))
  else match takeBoards s x (maskBits named) with
  | .hold => none
  | .fault a => some (s.faultCmd x.seq causeBoardState (.ofNat 64 a))
  | .ok gs =>
    match oddWidth (s.clusterOfCmd x) gs with
    | some g => some (s.faultCmd x.seq causeBoardState (.ofNat 64 g))
    | none => setupMmt s x gs named kchain ascale m

/-- arr.mmt (R288-R290). -/
def execArrMmt (_h : Hdr) (kchain _accum : Bool) (_rowptr _stride ascale _accbase : BitVec 21) (_lead : BitVec 19)
    (m : BitVec 9) (_fmt : BitVec 2) (mask : BitVec 8) (s : State) : Result :=
  startCmd s fun x => startMmt s x mask kchain ascale.toNat m.toNat

/-! ## Partial sums -/

/-- An activation format (R263). -/
inductive ActFmt where
  | e4m3
  | int8
  | e2m1
  | bf16
  deriving DecidableEq, Repr

/-- The activation format of a code (R288). -/
def actFmt (f : BitVec 2) : ActFmt := if f = 0 then .e4m3 else if f = 1 then .int8 else if f = 2 then .e2m1 else .bf16

/-- Bits of an activation element (R263). -/
def ActFmt.width : ActFmt → Nat
  | .e4m3 | .int8 => 8
  | .e2m1 => 4
  | .bf16 => 16

/-- Bytes of a 320-element step (R263). -/
def ActFmt.stepBytes (f : ActFmt) : Nat := 40 * f.width

/-- The value of an activation element (R28, R263). -/
def ActFmt.value (f : ActFmt) (x : Nat) : FVal :=
  match f with
  | .e4m3 => fp8.unpack x
  | .int8 => .fin (128 ≤ x) (if 128 ≤ x then 256 - x else x) 0
  | .e2m1 => fp4.unpack x
  | .bf16 => Machine.bf16.unpack x
where
  fp8 := Machine.e4m3
  fp4 := Machine.e2m1

/-- Exponent of the unit of a half's partial sums: fixed, or from the largest element of the half for BF16; none where
no element is finite and not zero (R265). -/
def ActFmt.unit (f : ActFmt) (l : List FVal) : Option Int :=
  match f with
  | .e4m3 => some (-9)
  | .int8 => some 0
  | .e2m1 => some (-1)
  | .bf16 =>
    (l.foldl (fun (a : Option Int) v => match v with
      | .fin _ m e => if m = 0 then a else
        let x : Int := e + m.log2
        some (match a with | none => x | some y => if y < x then x else y)
      | _ => a) none).map (· - 31)

/-- An element in units of 2^u, bits below dropped (R265). -/
def inUnits (u : Int) : FVal → Int
  | .fin n m e =>
    let k : Nat := if u ≤ e then m * 2 ^ (e - u).toNat else m / 2 ^ (u - e).toNat
    if n then -(k : Int) else k
  | _ => 0

/-- The sum of elements under weights 0, 1 and 2 for 0, +1 and -1 (R37, R265). -/
def weighted (u : Int) : List (Nat × FVal) → Int
  | [] => 0
  | (w, v) :: l => (if w = 1 then inUnits u v else if w = 2 then -inUnits u v else 0) + weighted u l

/-- float24 of a sum: rounded to nearest even at 24 significant bits (R265). -/
def float24 (p : Int) : Int :=
  if p.natAbs < 2 ^ 24 then p
  else
    let q := p.natAbs.log2 - 23
    let k := (roundTo .rne false p.natAbs 0 q false).1 * 2 ^ q
    if p < 0 then -(k : Int) else k

/-- Whether a weighted element is an infinity of a sign (R267). -/
def weightedInf (neg : Bool) (x : Nat × FVal) : Bool :=
  match x.2 with
  | .inf n => x.1 != 0 && (if x.1 = 2 then !n else n) == neg
  | _ => false

/-- The partial sum of a half (R265, R267). -/
def partialSum (u : Option Int) (l : List (Nat × FVal)) : PartialSum :=
  if l.any (·.2.isNan) then .nan
  else match l.any (weightedInf false), l.any (weightedInf true) with
  | true, true => .nan
  | true, false => .inf false
  | false, true => .inf true
  | false, false => match u with
    | none => .fin 0 0
    | some e => .fin (float24 (weighted e l)) e

/-- A partial sum as a value; a zero sum is +0. -/
def PartialSum.toVal : PartialSum → FVal
  | .nan => .nan false
  | .inf n => .inf n
  | .fin m e => .fin (m < 0) m.natAbs e

/-- Trits of a byte, lowest K first (R38). -/
def tritsOf : (n b : Nat) → List Nat
  | 0, _ => []
  | n + 1, b => b % 3 :: tritsOf n (b / 3)

/-- The 160 weights of half `h` of column row `n` of a board's group; zeros of one that is released (R48, R259). -/
def weightsOf (m : Mem) (g : Option Nat) (n h : Nat) : List Nat :=
  match g with
  | some g => (Memory.readBytes m (g * 262144 + 64 * n + 32 * h) 32).flatMap fun b => tritsOf 5 b.toNat
  | none => .replicate 160 0

/-! ## Rows -/

/-- The fields of a running arr.mmt. -/
structure Mmt where
  kchain : Bool
  accum : Bool
  rowptr : Nat
  stride : Nat
  accbase : Nat
  lead : Nat
  m : Nat
  fmt : ActFmt

/-- The fields of an arr.mmt from its word. -/
def Cmd.mmt (x : Cmd) : Option Mmt :=
  match decodeCommand .arr x.word with
  | .ok (.arrMmt _ kchain accum rowptr stride _ accbase lead m fmt _) =>
    some { kchain := kchain, accum := accum, rowptr := rowptr.toNat, stride := stride.toNat, accbase := accbase.toNat,
           lead := lead.toNat, m := m.toNat, fmt := actFmt fmt }
  | _ => none

/-- The elements of a row step from its granules, 32 bytes each (R29). -/
def rowElems (f : ActFmt) (granules : List Nat) : List FVal :=
  granules.flatMap fun g => (List.range (256 / f.width)).map fun i => f.value (g / 2 ^ (f.width * i) % 2 ^ f.width)

/-- Elements of half `h` of 320-element step `j` of a row. -/
def halfElems (l : List FVal) (j h : Nat) : List FVal := (l.drop (320 * j + 160 * h)).take 160

/-- The first granule of some boards beyond correction, as its group byte offset (R281). -/
def badBoard (x : Cluster) (width : Nat) : List Nat → Option Nat
  | [] => none
  | g :: gs =>
    match x.badSpm.find? (fun b => decide (g * 8192 ≤ b) && decide (b < g * 8192 + 2 * width)) with
    | some b => some (b * 32 - g * 262144)
    | none => badBoard x width gs

/-- What the drains of one row need: the command, the row, its boards, their width, and each half's elements with
their unit, by step and half. -/
structure RowJob where
  cmd : Cmd
  mm : Mmt
  row : Nat
  gs : List (Option Nat)
  width : Nat
  elems : List FVal

/-- The drain of board position `j`, column `n`, half `h` of a row (R264-R266). -/
def RowJob.drain (r : RowJob) (spm : Mem) (j n h : Nat) (lane : Slot) (first : Bool) : Drain :=
  let es := halfElems r.elems (if r.mm.kchain then j else 0) h
  let sa := r.cmd.ascales.getD ((if r.mm.kchain then 2 * r.mm.m * j else 0) + 2 * r.row + h) 0
  let sw := r.cmd.wscales.getD (wscaleWords r.width * j + 2 * (n / 128) + h) 0
  { lane := lane, sum := partialSum (r.mm.fmt.unit es) ((weightsOf spm (r.gs.getD j none) n h).zip es),
    scale := .ofNat 32 (fp32.mul .rne sa.toNat sw.toNat).1, first := first }

/-- Columns that a row reaches (R264). -/
def RowJob.cols (r : RowJob) : Nat := if r.mm.kchain then r.width else r.width * r.gs.length

/-- Whether column `c` of the row is reached by no earlier row of the command (R266, R280). -/
def RowJob.firstAt (r : RowJob) (c : Nat) : Bool := r.row = 0 || decide (r.cols ≤ r.mm.lead + c)

/-- The drains of column `c` of a row, in the order of R268. -/
def RowJob.column (r : RowJob) (spm : Mem) (c : Nat) : List Drain :=
  let boards := if r.mm.kchain then (List.range r.gs.length).map (fun j => (j, c)) else [(c / r.width, c % r.width)]
  let fresh := !r.mm.accum && r.firstAt c
  boards.flatMap fun (j, n) => [0, 1].map fun h =>
    r.drain spm j n h ⟨c % 8, by omega⟩ (fresh && (!r.mm.kchain || j == 0) && h == 0)

/-- The drain beats of a row, one for each granule of eight accumulators (R270). DEDUCED: in N-parallel mode with W no
multiple of 8 a granule that two boards share is one beat, which makes fewer beats than the count that R270 gives
(notes/assumptions/85). -/
def RowJob.beats (r : RowJob) (spm : Mem) : List DrainBeat :=
  (List.range ((r.cols + 7) / 8)).map fun t =>
    { seq := r.cmd.seq, off := r.mm.accbase + 4 * (r.row * r.mm.lead) + 32 * t,
      lead := t == 0,
      drains := ((List.range 8).map (8 * t + ·)).flatMap fun c => if c < r.cols then r.column spm c else [] }

/-- Offsets of the granules of a row (R263, R290). -/
def Mmt.rowOffs (mm : Mmt) (row boards : Nat) : List Nat :=
  (List.range (mm.fmt.stepBytes * (if mm.kchain then boards else 1) / 32)).map fun t =>
    (mm.rowptr + row * mm.stride + 32 * t) % 2 ^ 21

/-- The row after which a command hands the head of its queue on (R272, R284). -/
def Cmd.rowGranted (x : Cmd) (m : Nat) : Cmd :=
  if m ≤ x.row + 1 then { x with row := x.row + 1, fetched := [], phase := .finished, place := .gone }
  else { x with row := x.row + 1, fetched := [] }

/-- The running arr.mmt at the head of a core's queue (R272). -/
def State.headMmt (s : State) (c : CoreId) : Option (Cmd × Mmt) :=
  match (s.queueOf c .arr).head? with
  | none => none
  | some x => if x.phase = .running then (x.mmt).map (x, ·) else none

/-- Bank groups of the boards with which a command started; none for one that has been released since (R184). -/
def State.boardGroups (s : State) (x : Cmd) : List (Option Nat) := (maskBits x.boards).map (s.boardGroup x)

/-- A row's reads of boards that its team has released since the command started are noted (R48, R184). -/
def State.noteReleased (s : State) (x : Cmd) : State :=
  (maskBits x.boards).foldl
    (fun st b => if (s.boardGroup x b).isNone then st.outOfRange x.core 1 .spm (b * 262144) else st) s

/-- The next granule of a command's next row is read, ahead of the row's grant (R271). -/
def evRowFetch (c : CoreId) (s : State) : Option State :=
  (s.headMmt c).bind fun (x, mm) =>
    if !s.goesOn x then none
    else ((mm.rowOffs x.row (s.boardGroups x).length)[x.fetched.length]?).bind fun o =>
      (engRead s c .spm o 32).next x.seq fun s1 v => some (s1.setCmd x.seq fun y => { y with fetched := y.fetched ++ [v] })

/-- The compute of a command's row ends: its boards are free of it (R272). -/
def Cluster.computed (x : Cluster) (seq : Nat) : Cluster := { x with computing := x.computing.filter (· != seq) }

/-- The next row of a command is granted: what is not fetched of it is read, it computes, and its beats are queued
(R263-R272, R281). -/
def grantRow (s : State) (x : Cmd) (mm : Mmt) : Option State :=
  let k := clusterOf x.core
  let gs := s.boardGroups x
  match badBoard (s.cl k) x.width (gs.filterMap id) with
  | some a => some (s.faultCmd x.seq causeDataError (.ofNat 64 a))
  | none =>
    (engReads (s.noteReleased x) x.core .spm 32 ((mm.rowOffs x.row gs.length).drop x.fetched.length)).next x.seq fun s1 l =>
      let job : RowJob := { cmd := x, mm := mm, row := x.row, gs := gs, width := x.width,
                            elems := rowElems mm.fmt (x.fetched ++ l) }
      let y := s1.cl k
      some ((s1.setCl k { y with drain := y.drain ++ job.beats y.spm, computing := x.seq :: y.computing }).setCmd x.seq
        (·.rowGranted mm.m))

/-- Whether a row of the command is in compute, or its drain has not started (R272). -/
def Cluster.rowPending (x : Cluster) (seq : Nat) : Bool :=
  x.computing.contains seq || x.drain.any fun b => b.lead && b.seq == seq

/-- Whether another command of the team computes on a board of a command's mask (R272). -/
def State.boardComputes (s : State) (x : Cmd) : Bool :=
  s.cmds.any fun y => y.seq != x.seq && (s.clusterOfCmd x).computing.contains y.seq && y.boards &&& x.boards != 0 &&
    s.sameTeam y.core x.core

/-- The command of a core whose next row is eligible: it is the running head, its previous row has left compute and
started its drain, and every board of its mask is free of compute (R272). -/
def State.eligible (s : State) (c : CoreId) : Option (Cmd × Mmt) :=
  (s.headMmt c).bind fun (x, mm) =>
    if s.goesOn x && !(s.cl (clusterOf c)).rowPending x.seq && !s.boardComputes x then some (x, mm) else none

/-- The first core from `ptr` on that a test picks (R273). -/
def scanFrom (ptr : Slot) (p : Slot → Bool) : Option Slot :=
  ((List.range 8).map fun i => (⟨(ptr.val + i) % 8, by omega⟩ : Slot)).find? p

/-- Credits of a cluster's cores reloaded from WRRW (R273). -/
def State.reloadCredits (s : State) (k : ClusterId) : State :=
  (List.finRange 8).foldl (fun st n =>
    let c := coreOf k n
    st.setCoreAt c { st.coreAt c with credit := (st.coreAt c).csr.wrrw.toNat }) s

/-- Credits as the next grant uses them: reloaded where no eligible core has any (R273). -/
def State.withCredits (s : State) (k : ClusterId) (elig : Slot → Bool) : State :=
  if (List.finRange 8).any (fun n => elig n && (s.coreAt (coreOf k n)).credit != 0) then s else s.reloadCredits k

/-- A grant has been made to core `n`: its credit, and where the scan goes on (R273). -/
def State.granted (s : State) (k : ClusterId) (n : Slot) : State :=
  let c := coreOf k n
  let left := (s.coreAt c).credit - 1
  let s1 := s.setCoreAt c { s.coreAt c with credit := left }
  s1.setCl k { s1.cl k with rowPtr := if left = 0 then ⟨(n.val + 1) % 8, by omega⟩ else n }

/-- One row is granted by weighted round robin; a throttled array may withhold it (R273, R392). -/
def evRowGrant (k : ClusterId) (s : State) : Option State :=
  let elig := fun (n : Slot) => (s.eligible (coreOf k n)).isSome
  if s.throttled && Config.withhold s.tick then none
  else if !(List.finRange 8).any elig then none
  else
    let s1 := s.withCredits k elig
    (scanFrom (s1.cl k).rowPtr fun n => elig n && (s1.coreAt (coreOf k n)).credit != 0).bind fun n =>
      (s.eligible (coreOf k n)).bind fun (x, mm) => grantRow (s1.granted k n) x mm

/-- ROW_GRANT (R273). -/
def execRowGrant (k : ClusterId) (s : State) : Result := fire s (evRowGrant k s)

/-! ## Drains -/

/-- One drain into an accumulator: its new value and the flags (R266, R267). -/
def applyDrain (acc : Nat) (d : Drain) : FRes :=
  fp32.fmaVal .rne false d.sum.toVal (fp32.unpack d.scale.toNat) (fp32.unpack (if d.first then 0x80000000 else acc))

/-- The drains of a beat in order on the eight accumulators of its granule; whether one overflowed. -/
def applyDrains : List Drain → List Nat → List Nat × Bool
  | [], l => (l, false)
  | d :: ds, l =>
    let r := applyDrain (l.getD d.lane.val 0) d
    let t := applyDrains ds (l.set d.lane.val r.1)
    (t.1, r.2 &&& flagOF != 0 || t.2)

/-- Accumulators that a beat writes, the first ones of its granule. -/
def DrainBeat.lanes (b : DrainBeat) : Nat := b.drains.foldl (fun a d => Nat.max a (d.lane.val + 1)) 0

/-- Whether a beat overwrites every accumulator of its granule without reading one. -/
def DrainBeat.overwrites (b : DrainBeat) : Bool :=
  (List.range 8).all fun i => (b.drains.find? (fun d => d.lane.val == i)).any (·.first)

/-- A beat is written for a command's core (R270, R274). Drains onto a granule in error are dropped
(notes/assumptions/26). -/
def writeBeat (s : State) (c : CoreId) (b : DrainBeat) : Option State :=
  (s.readTeam c .acc b.off 32).bind fun (s1, v) =>
    let r := applyDrains b.drains ((List.range 8).map fun i => v / 2 ^ (32 * i) % 2 ^ 32)
    let bs := (r.1.take b.lanes).flatMap (leBytes 4)
    let s2 := if s.granuleBad c .acc b.off && !b.overwrites then some s1 else s1.writeTeam c .acc b.off bs
    s2.map fun st => if r.2 then st.raiseBeside c flagOF 0 else st

/-- The oldest drain beat of a cluster is written (R270). -/
def evDrainBeat (k : ClusterId) (s : State) : Option State :=
  match (s.cl k).drain with
  | [] => none
  | b :: bs =>
    let y : Cluster := { s.cl k with drain := bs }
    let s1 := s.setCl k (if b.lead then y.computed b.seq else y)
    match s.cmd b.seq with
    | none => some s1
    | some x => writeBeat s1 x.core b

/-- DRAIN_BEAT (R270). -/
def execDrainBeat (k : ClusterId) (s : State) : Result := fire s (evDrainBeat k s)

/-! ## arr.acmout -/

/-- Whether an earlier command of the team covers a source accumulator (R293). -/
def acmoutBlocked (s : State) (x : Cmd) (base lead cols rows : Nat) : Bool :=
  (List.range rows).any fun i => (List.range cols).any fun c => s.coveredBefore x.core x.seq (base + 4 * (i * lead + c))

/-- An accumulator as arr.acmout writes it: the code, and whether it is outlying (R293). -/
def acmoutValue (F : Fmt) (scale : Option Nat) (x : Nat) : Nat × Bool :=
  let v := fp32.unpack x
  let y := match scale with
    | none => v
    | some r => (v.mul (fp32.unpack r)).getD (.nan false)
  let o := F.ofVal .rne y
  match y with
  | .nan _ => (o.1, true)
  | .inf _ => (o.1, false)
  | .fin _ _ _ => (o.1, o.2 &&& flagOF != 0)

/-- The output format of a code (R291). -/
def acmoutFmt (f : BitVec 2) : Fmt := if f = 1 then bf16 else if f = 2 then e4m3 else fp32

/-- The fields of an arr.acmout. -/
structure Acmout where
  clear : Bool
  scale : Option Nat
  accbase : Nat
  lead : Nat
  dst : Nat
  dstride : Nat
  cols : Nat
  rows : Nat
  fmt : Fmt

/-- Bytes of an output element. -/
def Acmout.size (a : Acmout) : Nat := a.fmt.width / 8

/-- Whether the output of a row is written after source granule `t`: its output granule is complete, or the row. -/
def Acmout.flushes (a : Acmout) (t : Nat) : Bool := 8 * (t + 1) * a.size % 32 == 0 || decide (a.cols ≤ 8 * (t + 1))

/-- Writes the collected output codes of row `x.row`, those that end before source granule `x.byte` and `more`. -/
def Acmout.put (a : Acmout) (s : State) (x : Cmd) (more : List Nat) : Option State :=
  let at_ := a.dst + x.row * a.dstride + (8 * x.byte - x.fetched.length) * a.size
  s.writeTeam x.core .spm (at_ % 2 ^ 21) ((x.fetched ++ more).flatMap (leBytes a.size))

/-- Granule `x.byte` of row `x.row` is read, and cleared where asked; the output of a row is written one output granule
at a time, and what was collected before a fault with it (R64, R293-R295). -/
def acmoutGranule (s : State) (x : Cmd) (a : Acmout) : Option State :=
  let off := a.accbase + 4 * (x.row * a.lead + 8 * x.byte)
  match engRead s x.core .acc off 32 with
  | .stall => none
  | .fault s1 c w => (if x.fetched.isEmpty then some s1 else a.put s1 x []).map (·.faultCmd x.seq c w)
  | .ok s1 v =>
    let out := (List.range 8).map fun i => acmoutValue a.fmt a.scale (v / 2 ^ (32 * i) % 2 ^ 32)
    let codes := out.map (·.1)
    let last := decide (a.cols ≤ 8 * (x.byte + 1))
    (if a.clear then s1.writeTeam x.core .acc off (List.replicate 32 0) else some s1).bind fun s2 =>
      (if a.flushes x.byte then a.put s2 x codes else some s2).map fun s3 =>
        s3.setCmd x.seq fun y =>
          { y with count := y.count + (out.filter (·.2)).length,
                   fetched := if a.flushes x.byte then [] else y.fetched ++ codes,
                   row := if last then y.row + 1 else y.row, byte := if last then 0 else y.byte + 1 }

/-- Whether an arr.acmout may do its next granule: it goes on, or is inside a row, which a stop lets it finish
(R295). -/
def State.acmoutGoes (s : State) (x : Cmd) : Bool := s.goesOn x || x.byte != 0

/-- arr.acmout starts, or does its next granule, or is done (R293, R295, R319). -/
def runAcmout (s : State) (x : Cmd) (a : Acmout) : Option State :=
  if x.phase = .running then
    if x.row = a.rows then some (s.finishCmd x.seq (.ofNat 64 x.count))
    else if s.acmoutGoes x then acmoutGranule s x a else none
  else if !s.mayStart x || !s.acquired x then none
  else if a.rows < x.row then some (s.rejectCmd x.seq (0, 0))
  else if x.phase ≠ .stopped && acmoutBlocked s x a.accbase a.lead a.cols a.rows then none
  else if a.rows = 0 || a.cols = 0 then some (s.finishCmd x.seq 0)
  else some (s.runCmd x.seq)

/-- arr.acmout (R291-R295). -/
def execArrAcmout (_h : Hdr) (clear scl : Bool) (accbase : BitVec 21) (lead : BitVec 19) (dst dstride : BitVec 21)
    (cols : BitVec 16) (rows : BitVec 9) (rscale : BitVec 32) (ofmt : BitVec 2) (s : State) : Result :=
  fire s ((s.cmd s.cmdRef).bind fun x =>
    runAcmout s x { clear := clear, scale := if scl then some rscale.toNat else none, accbase := accbase.toNat,
                    lead := lead.toNat, dst := dst.toNat, dstride := dstride.toNat, cols := cols.toNat,
                    rows := rows.toNat, fmt := acmoutFmt ofmt })

end Sys2Proof.Machine
end

