-- ==== Sys2Proof/Machine/Collective.lean ====
section
/-! DEFINITION. Groups and collective commands (spec/09 R192-R205). -/

namespace Sys2Proof.Machine

/-! ## Groups -/

/-- The group table's entry of an ASID and group number at a cluster (R192). -/
def State.collEntry (s : State) (k : ClusterId) (asid : BitVec 12) (gnum : BitVec 8) : Option CollEntry :=
  (s.cl k).coll.find? fun e => e.asid == asid && e.gnum == gnum

/-- Whether two entries have one key. -/
def CollEntry.sameKey (e f : CollEntry) : Bool := e.asid == f.asid && e.gnum == f.gnum

/-- Stores an entry at a cluster. -/
def State.setColl (s : State) (k : ClusterId) (e : CollEntry) : State :=
  s.setCl k { s.cl k with coll := e :: (s.cl k).coll.filter (fun f => !f.sameKey e) }

/-- The logical id of a cluster. -/
def State.logicalId (s : State) (k : ClusterId) : BitVec 7 := (s.cl k).logical.getD 0

/-- Frees an entry, the packets held for it, which are not counted, and the aborts of turns that its member had still to
declare (R192, R196). DESIGN CHOICE: R195 counts discards in an entry (notes/assumptions/66). -/
def State.freeColl (s : State) (k : ClusterId) (e : CollEntry) : State :=
  let me := (s.logicalId k).toNat
  { s.setCl k { s.cl k with coll := (s.cl k).coll.filter (fun f => !f.sameKey e),
                            held := (s.cl k).held.filter (fun p => !(p.asid == e.asid && p.gnum == e.gnum)) } with
    abortedTurns := s.abortedTurns.filter fun a => !(a.asid == e.asid && a.gnum == e.gnum && a.member == me) }

/-- The members of an entry by rank (R193). -/
def State.entryMembers (s : State) (e : CollEntry) : List (Nat × Nat) := s.members e.mem e.fab

/-- The rank of a logical cluster of this package in an entry. -/
def State.rankIn (s : State) (e : CollEntry) (l : BitVec 7) : Option Nat :=
  (firstAt (fun m => m == (s.fabid.toNat, l.toNat)) 0 (s.entryMembers e)).map (·.1)

/-- The other members of an entry on this package, ascending (R202). -/
def State.otherPorts (s : State) (e : CollEntry) (me : BitVec 7) : List (BitVec 7) :=
  ((s.entryMembers e).filter fun m => m.1 == s.fabid.toNat && m.2 != me.toNat).map fun m => .ofNat 7 m.2

/-- The group id as a word. -/
def gidAux (gid : BitVec 12) : Word := zext gid

/-- Whether packets of an entry's turn are on their way to a port, further along a chain too, or from it (R194). -/
def State.turnInFlight (s : State) (k : ClusterId) (e : CollEntry) : Bool :=
  let me := s.logicalId k
  s.packets.any fun p => p.asid == e.asid && p.gnum == e.gnum && p.turn == e.turn &&
    (p.dst == me || p.hop == me || p.src == me || p.chain.contains me)

/-- Packets that a port held for a turn reach it once the turn is declared (R195). -/
def State.unhold (s : State) (k : ClusterId) (e : CollEntry) : State :=
  let mine := fun (p : Packet) => p.asid == e.asid && p.gnum == e.gnum && p.turn == e.turn
  { s.setCl k { s.cl k with held := (s.cl k).held.filter (fun p => !mine p) } with
    packets := s.packets ++ ((s.cl k).held.filter mine) }

/-- The reply of a declaration (R194). -/
def declReply (discards : Nat) (gid : BitVec 12) : Word := .ofNat 64 (discards % 2 ^ 32 * 2 ^ 32 + gid.toNat)

/-- Whether a declaration names the port's own cluster and package (R194). -/
def State.namesSelf (s : State) (k : ClusterId) (mem : BitVec 128) (fab : BitVec 32) : Bool :=
  (s.cl k).logical.any (fun l => mem.getLsbD l.toNat) && (fab == 0 || fab.getLsbD s.fabid.toNat)

/-- Whether a port holds a group, or a live team has a barrier id bound to it. -/
def State.groupLive (s : State) (asid : BitVec 12) (gnum : BitVec 8) : Bool :=
  s.clusters.any fun x => x.coll.any (fun e => e.asid == asid && e.gnum == gnum) ||
    x.teams.any fun o => o.any fun y => y.asid == asid && y.bars.any (·.group == some gnum)

/-- Whether a use is of a group. -/
def GroupUse.of (u : GroupUse) (asid : BitVec 12) (gnum : BitVec 8) : Bool := u.asid == asid && u.gnum == gnum

/-- A use after a member's declaration with a mask. -/
def GroupUse.joined (u : GroupUse) (me : Nat) (mem : BitVec 128) : GroupUse :=
  { u with mem := u.mem ||| mem, seen := u.seen ||| 1 <<< me }

/-- Whether a declaration begins a new use of a group: nothing of one is left, or the member has declared it before and it
lives no more (notes/assumptions/64). -/
def State.newUse (s : State) (asid : BitVec 12) (gnum : BitVec 8) (me : Nat) : Bool :=
  (s.uses.find? (·.of asid gnum)).all fun u => u.seen.getLsbD me && !s.groupLive asid gnum

/-- A member's declaration in the uses of groups; a new use forgets who left the one before and which turns of it were
aborted, and a member that declares the group has left it no more (R196, R220, notes/assumptions/64). -/
def State.usedBy (s : State) (asid : BitVec 12) (gnum : BitVec 8) (me : Nat) (mem : BitVec 128) : State :=
  let ours := fun (l : LeftMember) => l.asid == asid && l.gnum == gnum
  let others := s.uses.filter (!·.of asid gnum)
  if s.newUse asid gnum me then
    { s with uses := (⟨asid, gnum, 0, 0⟩ : GroupUse).joined me mem :: others, left := s.left.filter (!ours ·),
             abortedTurns := s.abortedTurns.filter fun a => !(a.asid == asid && a.gnum == gnum) }
  else
    { s with uses := (s.uses.filter (·.of asid gnum)).map (·.joined me mem) ++ others,
             left := s.left.filter fun l => !(ours l && l.member == me) }

/-- How far a turn lies ahead of another, modulo 16 (R195). -/
def turnsAhead (turn from_ : BitVec 4) : Nat := (turn - from_).toNat

/-- Whether a member that stands at a turn is still to declare another: it is 1 to 7 ahead (R195, R196). -/
def turnAwaited (turn at_ : BitVec 4) : Bool := decide (0 < turnsAhead turn at_) && decide (turnsAhead turn at_ < 8)

/-- A member's declaration of a turn: aborts of turns that it has reached or passed are kept no longer (R196), and its own
leaving of the group is over (R220). -/
def State.declared (s : State) (asid : BitVec 12) (gnum : BitVec 8) (turn : BitVec 4) (me : Nat) (mem : BitVec 128) :
    State :=
  let s' := s.usedBy asid gnum me mem
  { s' with abortedTurns := s'.abortedTurns.filter fun a =>
      !(a.asid == asid && a.gnum == gnum && a.member == me) || turnAwaited a.turn turn }

/-- What a team that ends leaves behind for its groups: the barrier ids at which it counts as complete in every later
phase, since all its participants have dropped (R152, R211, R220). -/
def State.leaving (s : State) (k : ClusterId) (x : Team) : List LeftMember :=
  x.bars.filterMap fun b => b.group.bind fun g =>
    if b.over g then some ⟨x.asid, g, (s.logicalId k).toNat, b.id⟩ else none

/-- Whether a use of a group is over: every member has declared it, and it lives no more. -/
def State.useOver (s : State) (u : GroupUse) : Bool := u.mem &&& ~~~u.seen == 0 && !s.groupLive u.asid u.gnum

/-- What is kept of teams that have left groups. DESIGN CHOICE: a record goes when its cluster declares the group again, or
the use of the group is over, or a new one begins (notes/assumptions/64). -/
def State.keepLeft (s : State) (l : List LeftMember) : State :=
  let past := s.uses.filter s.useOver
  { s with left := (s.left ++ l).filter fun r => !past.any (·.of r.asid r.gnum), uses := s.uses.filter (!s.useOver ·) }

/-- Whether a turn was aborted before a member declared it (R196). -/
def State.turnAborted (s : State) (asid : BitVec 12) (gnum : BitVec 8) (turn : BitVec 4) (me : Nat) : Bool :=
  s.abortedTurns.any fun a => a.asid == asid && a.gnum == gnum && a.turn == turn && a.member == me

/-- col.decl and col.decl.t at their start (R194). -/
def startDecl (s : State) (x : Cmd) (gid : BitVec 12) (mem : BitVec 128) (fab : BitVec 32) (noWait : Bool) :
    Option State :=
  let k := clusterOf x.core
  let asid := (s.coreAt x.core).csr.asid
  let gnum := bits gid 4 8
  let turn := bits gid 0 4
  let fault := fun c => some (s.faultCmd x.seq c (gidAux gid))
  match (s.coreAt x.core).slot with
  | none => fault causeGroupUndeclared
  | some t =>
    let declare := fun (d : Nat) =>
      let me := (s.logicalId k).toNat
      let e : CollEntry := { team := t, asid := asid, gnum := gnum, mem := mem, fab := fab, turn := turn, pos := 0,
                             discards := 0, records := [],
                             aborted := (s.usedBy asid gnum me mem).turnAborted asid gnum turn me }
      some ((((s.declared asid gnum turn me mem).setColl k e).unhold k e).finishCmd x.seq (declReply d gid))
    match s.collEntry k asid gnum with
    | none =>
      if mem = 0 then some (s.finishCmd x.seq (declReply 0 gid))
      else if !s.namesSelf k mem fab then fault causeGroupUndeclared
      else if 64 ≤ (s.cl k).coll.length then fault causeGroupBusy
      else declare 0
    | some e =>
      if mem = 0 then
        if e.team = t then some (((s.freeColl k e).keepLeft []).finishCmd x.seq (declReply e.discards gid))
        else some (s.finishCmd x.seq (declReply 0 gid))
      else if !s.namesSelf k mem fab then fault causeGroupUndeclared
      else if e.team ≠ t then fault causeGroupBusy
      else if turn ≠ e.turn + 1 then fault causeGroupUndeclared
      else if s.turnInFlight k e then (if noWait then fault causeGroupBusy else none)
      else declare e.discards

/-- col.decl (R194). -/
def execColDecl (_h : Hdr) (gid : BitVec 12) (mem : BitVec 128) (fab : BitVec 32) (s : State) : Result :=
  startCmd s fun x => startDecl s x gid mem fab false

/-- col.decl.t (R194). -/
def execColDeclT (_h : Hdr) (gid : BitVec 12) (mem : BitVec 128) (fab : BitVec 32) (s : State) : Result :=
  startCmd s fun x => startDecl s x gid mem fab true

/-! ## Collective commands -/

/-- The fields of a data command (R197). -/
structure CollJob where
  gid : BitVec 12
  opc : Nat
  src : BitVec 22
  dst : BitVec 22
  bytes : Nat
  op : Nat
  fmt : Nat
  root : Nat

/-- The data command of a word. -/
def Cmd.collJob (x : Cmd) : Option CollJob :=
  match decodeCommand .col x.word with
  | .ok (.colAllgather _ gid src dst bytes) =>
    some { gid := gid, opc := 3, src := src, dst := dst, bytes := bytes.toNat, op := 0, fmt := 0, root := 0 }
  | .ok (.colRedscat _ gid src dst bytes op fmt) =>
    some { gid := gid, opc := 4, src := src, dst := dst, bytes := bytes.toNat, op := op.toNat, fmt := fmt.toNat, root := 0 }
  | .ok (.colAlltoall _ gid src dst bytes) =>
    some { gid := gid, opc := 5, src := src, dst := dst, bytes := bytes.toNat, op := 0, fmt := 0, root := 0 }
  | .ok (.colBcast _ gid src dst bytes root) =>
    some { gid := gid, opc := 6, src := src, dst := dst, bytes := bytes.toNat, op := 0, fmt := 0, root := root.toNat }
  | .ok (.colBarrier _ gid) =>
    some { gid := gid, opc := 7, src := 0, dst := 0, bytes := 0, op := 0, fmt := 0, root := 0 }
  | .ok (.colMaxbar _ gid src dst) =>
    some { gid := gid, opc := 8, src := src, dst := dst, bytes := 4, op := 2, fmt := 0, root := 0 }
  | _ => none

/-- What a match packet carries (R198). -/
def CollJob.params (j : CollJob) (n : Nat) : CollParams :=
  { opc := j.opc, bytes := j.bytes, op := j.op, fmt := j.fmt, root := j.root, n := n }

/-- Sends a packet along a chain of ports (R202). -/
def State.sendChain (s : State) (e : CollEntry) (me : BitVec 7) (pos rank : Nat) (body : PacketBody) :
    List (BitVec 7) → State
  | [] => s
  | d :: ds =>
    { s with packets := s.packets ++ [{ src := me, hop := me, dst := d, chain := ds, asid := e.asid, gnum := e.gnum,
                                        turn := e.turn, pos := pos, rank := rank, body := body }] }

/-- A match record enters an entry. -/
def CollEntry.addRecord (e : CollEntry) (r : MatchRecord) : CollEntry := { e with records := e.records ++ [r] }

/-- A data command takes its position and sends its match packet (R197, R198). DESIGN CHOICE: one that is refused before it
sends anything takes no position; its turn is looked at before ROOT and the alignment of the root's SRC
(notes/assumptions/66). -/
def startColl (s : State) (x : Cmd) (j : CollJob) : Option State :=
  let k := clusterOf x.core
  let me := s.logicalId k
  let fault := fun c => some (s.faultCmd x.seq c (gidAux j.gid))
  match (s.coreAt x.core).slot.bind fun t => (s.cl k).groupEntry t (bits j.gid 4 8) with
  | none => fault causeGroupUndeclared
  | some e =>
    let n := (s.entryMembers e).length
    let rank := (s.rankIn e me).getD 0
    if bits j.gid 0 4 ≠ e.turn then fault causeGroupUndeclared
    else if n ≤ j.root then some (s.rejectCmd x.seq (5, 16))
    else if j.opc = 6 ∧ rank = j.root ∧ j.src.toNat % 32 ≠ 0 then some (s.rejectCmd x.seq (2, 0))
    else if e.aborted then fault causeGroupBusy
    else
      let e' := { e with pos := e.pos + 1 }.addRecord { pos := e.pos, rank := rank, params := j.params n }
      some (((s.setColl k e').sendChain e me e.pos rank (.matching (j.params n)) (s.otherPorts e me)).setCmd x.seq
        fun y => { y with phase := .running, pos := e.pos, turn := e.turn })

/-- A data command of a word starts (R198). -/
def startOf (s : State) : Result := startCmd s fun x => x.collJob.bind (startColl s x)

/-- col.allgather (R199). -/
def execColAllgather (_h : Hdr) (_gid : BitVec 12) (_src _dst : BitVec 22) (_bytes : BitVec 21) (s : State) : Result :=
  startOf s

/-- col.redscat (R199). -/
def execColRedscat (_h : Hdr) (_gid : BitVec 12) (_src _dst : BitVec 22) (_bytes : BitVec 21) (_op _fmt : BitVec 2)
    (s : State) : Result := startOf s

/-- col.alltoall (R199). -/
def execColAlltoall (_h : Hdr) (_gid : BitVec 12) (_src _dst : BitVec 22) (_bytes : BitVec 21) (s : State) : Result :=
  startOf s

/-- col.bcast (R199). -/
def execColBcast (_h : Hdr) (_gid : BitVec 12) (_src _dst : BitVec 22) (_bytes : BitVec 21) (_root : BitVec 12)
    (s : State) : Result := startOf s

/-- col.barrier (R199). -/
def execColBarrier (_h : Hdr) (_gid : BitVec 12) (s : State) : Result := startOf s

/-- col.maxbar (R199). -/
def execColMaxbar (_h : Hdr) (_gid : BitVec 12) (_src _dst : BitVec 22) (s : State) : Result := startOf s

/-! ## Matching -/

/-- The cluster and entry of a member of this package in a turn. -/
def State.peerEntry (s : State) (e : CollEntry) (m : Nat × Nat) : Option (ClusterId × CollEntry) :=
  if m.1 ≠ s.fabid.toNat then none
  else (s.holderOf m.2).bind fun k =>
    (s.collEntry k e.asid e.gnum).bind fun f => if f.turn = e.turn then some (k, f) else none

/-- What a member's match packet at a position carries, as a port has it: the record of the packet, or, where the
member's mask leaves the port out, what the member sent to others (R198). -/
def State.matchFrom (s : State) (k : ClusterId) (e : CollEntry) (pos q : Nat) : Option CollParams :=
  match e.records.find? fun r => r.pos == pos && r.rank == q with
  | some r => some r.params
  | none =>
    ((s.entryMembers e)[q]?.bind (s.peerEntry e)).bind fun (k', f) =>
      if f.mem.getLsbD (s.logicalId k).toNat then none
      else (f.records.find? fun r => r.pos == pos && some r.rank == s.rankIn f (s.logicalId k')).map (·.params)

/-- Whether a port has the match packet of every member at a position (R198). -/
def State.hasAll (s : State) (k : ClusterId) (e : CollEntry) (pos : Nat) : Bool :=
  (List.range (s.entryMembers e).length).all fun q => (s.matchFrom k e pos q).isSome

/-- Whether a match packet that a port has at a position differs from its own (R198). -/
def State.mismatched (s : State) (k : ClusterId) (e : CollEntry) (pos : Nat) (p : CollParams) : Bool :=
  (List.range (s.entryMembers e).length).any fun q => (s.matchFrom k e pos q).any (· != p)

/-- The data command of a port's team at a position of its turn. -/
def State.collCmd (s : State) (k : ClusterId) (e : CollEntry) (pos : Nat) : Option Cmd :=
  s.cmds.find? fun y => y.engine == .col && clusterOf y.core == k && (s.coreAt y.core).slot == some e.team &&
    y.phase == .running && bits y.word.w1 4 8 == e.gnum && y.turn == e.turn && y.pos == pos

/-- Whether a command is an unmatched one of an entry's turn. -/
def CollEntry.unmatched (e : CollEntry) (y : Cmd) : Bool :=
  y.unmatched && bits y.word.w1 4 8 == e.gnum && y.turn == e.turn

/-- Whether a command of a port's team, a saved one too, stands at an earlier position of the turn and is neither matched
nor faulted: no later position is decided before it (R198, R205). -/
def State.openBefore (s : State) (k : ClusterId) (e : CollEntry) (pos : Nat) : Bool :=
  s.cmds.any (fun y => e.unmatched y && clusterOf y.core == k && (s.coreAt y.core).slot == some e.team &&
    decide (y.pos < pos)) ||
  (s.team k e.team).any fun t => t.saved.any fun y => e.unmatched y && decide (y.pos < pos)

/-- The ports of this package that have declared an entry's turn of its group. -/
def State.turnEntries (s : State) (e : CollEntry) : List (ClusterId × CollEntry) :=
  (List.range 128).filterMap fun l => s.peerEntry e (s.fabid.toNat, l)

/-- Whether a port's entry names another port, whose group is of equal N (R198). -/
def State.names (s : State) (a b : ClusterId × CollEntry) : Bool :=
  a.2.mem.getLsbD (s.logicalId b.1).toNat && (s.entryMembers a.2).length == (s.entryMembers b.2).length

/-- Ports that some of a turn's ports name or are named by, in as many rounds as it takes; `fuel` bounds them. -/
def State.closeLinks (s : State) (all : List (ClusterId × CollEntry)) :
    (fuel : Nat) → List (ClusterId × CollEntry) → List (ClusterId × CollEntry)
  | 0, l => l
  | f + 1, l =>
    let l' := all.filter fun a => l.any fun b => a.1 == b.1 || s.names a b || s.names b a
    if l'.length = l.length then l else s.closeLinks all f l'

/-- The ports whose matching is one with a port's: those of equal N that it names, that name it, and so on; under equal
masks, its members (R198). -/
def State.linked (s : State) (k : ClusterId) (e : CollEntry) : List (ClusterId × CollEntry) :=
  s.closeLinks (s.turnEntries e) 128 ((s.turnEntries e).filter (·.1 == k))

/-- Whether linked members declared a turn under different masks (R198). -/
def State.masksDiffer (s : State) (k : ClusterId) (e : CollEntry) : Bool :=
  (s.linked k e).any fun a => a.2.mem != e.mem || a.2.fab != e.fab

/-- Whether a port is done with a position that it took: its command there has gone on to its decrement. -/
def State.donePos (s : State) (k : ClusterId) (e : CollEntry) (pos : Nat) : Bool :=
  e.records.any (fun r => r.pos == pos && some r.rank == s.rankIn e (s.logicalId k)) && (s.collCmd k e pos).isNone &&
  !(s.team k e.team).any fun t => t.saved.any fun y => e.unmatched y && y.pos == pos

/-- Whether a linked port is ready at a position: it has every match packet, its earlier positions are decided, and its
command waits there, or, under masks that differ, is done (R198, R205). -/
def State.readyAt (s : State) (differ : Bool) (pos : Nat) (a : ClusterId × CollEntry) : Bool :=
  s.hasAll a.1 a.2 pos && !s.openBefore a.1 a.2 pos &&
  ((s.collCmd a.1 a.2 pos).any (fun y => y.matched || s.goesOn y) || (differ && s.donePos a.1 a.2 pos))

/-- Whether every member has declared the turn, and every linked port is ready at a position (R198, R205). -/
def State.allMatched (s : State) (k : ClusterId) (e : CollEntry) (pos : Nat) : Bool :=
  ((s.entryMembers e).all fun m => (s.peerEntry e m).isSome) &&
  (s.linked k e).all (s.readyAt (s.masksDiffer k e) pos)

/-- Tiles of a block (R202). -/
def tilesOf (bytes : Nat) : Nat := (bytes + 255) / 256

/-- Tiles that a member of a matched collective receives, its own among them (R199). -/
def CollJob.dueTiles (j : CollJob) (n : Nat) : Nat :=
  if j.opc = 6 then tilesOf j.bytes else if j.opc = 7 then n else n * tilesOf j.bytes

/-- The command of one member of a matched collective (R198). -/
def State.markMatched (s : State) (differ : Bool) (pos : Nat) (a : ClusterId × CollEntry) : State :=
  match s.collCmd a.1 a.2 pos with
  | none => s
  | some x => s.setCmd x.seq fun y =>
    { y with matched := true, mixed := differ,
             count := (x.collJob.map (·.dueTiles (s.entryMembers a.2).length)).getD 0 }

/-- A collective is matched at every linked member at once, or a member's command learns that match packets differ, each
once the earlier positions are decided (R198). -/
def matchColl (s : State) (x : Cmd) (j : CollJob) (e : CollEntry) : Option State :=
  let k := clusterOf x.core
  if s.openBefore k e x.pos then none
  else if s.mismatched k e x.pos (j.params (s.entryMembers e).length) then
    some (s.faultCmd x.seq causeGroupUndeclared (gidAux j.gid))
  else if s.hasAll k e x.pos && s.allMatched k e x.pos then
    some ((s.linked k e).foldl (·.markMatched (s.masksDiffer k e) x.pos) s)
  else none

/-! ## Data -/

/-- Space of a collective address (R197). -/
def collSpace (a : BitVec 22) : Space := if a.getLsbD 21 then .acc else .spm

/-- Offset of a collective address (R197). -/
def collOff (a : BitVec 22) : Nat := a.toNat % 2 ^ 21

/-- Bytes of the source range of a member. -/
def CollJob.srcBytes (j : CollJob) (n rank : Nat) : Nat :=
  match j.opc with
  | 4 | 5 => n * j.bytes
  | 6 => if rank = j.root then j.bytes else 0
  | 7 => 0
  | _ => j.bytes

/-- Whether the overlap of a member's source and destination is defined (R199). -/
def CollJob.exempt (j : CollJob) (rank : Nat) : Bool :=
  (j.opc == 4 && collOff j.dst == collOff j.src + rank * j.bytes) ||
  (j.opc == 3 && collOff j.src == collOff j.dst + rank * j.bytes)

/-- Whether a granule of a member's destination overlaps its source and so is undefined (R199). -/
def CollJob.undefinedAt (j : CollJob) (n rank off len : Nat) : Bool :=
  collSpace j.src == collSpace j.dst && !j.exempt rank && decide (0 < j.srcBytes n rank) &&
  decide (off < collOff j.src + j.srcBytes n rank) && decide (collOff j.src < off + len)

/-- Writes bytes to a member's destination from an offset on, granule by granule; `fuel` bounds the granules. -/
def collWrite (s : State) (c : CoreId) (j : CollJob) (n rank : Nat) : (fuel off : Nat) → List Byte → Option State
  | 0, _, _ => some s
  | f + 1, off, bs =>
    if bs.isEmpty then some s
    else
      let len := Nat.min bs.length (32 - off % 32)
      let out := if j.undefinedAt n rank off len then (List.range len).map (fun i => Config.undefByte s.tick (off + i))
        else bs.take len
      (s.writeTeam c (collSpace j.dst) off out).bind fun s' => collWrite s' c j n rank f (off + len) (bs.drop len)

/-- Two elements reduced (R200). -/
def reduceElem (op fmt a b : Nat) : Nat :=
  match fmt with
  | 2 => if op = 0 then (a + b) % 2 ^ 32 else amoLike (op == 2) a b
  | _ =>
    let F := if fmt = 1 then bf16 else fp32
    if op = 0 then (F.add .rne a b).1 else (F.minMax (op == 2) a b).1
where
  amoLike (wantMax : Bool) (a b : Nat) : Nat :=
    if ((BitVec.ofNat 32 a).slt (BitVec.ofNat 32 b)) == wantMax then b else a

/-- Bytes of a reduction element. -/
def reduceSize (fmt : Nat) : Nat := if fmt = 1 then 2 else 4

/-- Two tiles reduced element by element; `fuel` bounds the elements. -/
def reduceTiles (op fmt : Nat) : (fuel : Nat) → List Byte → List Byte → List Byte
  | 0, _, _ => []
  | f + 1, a, b =>
    let w := reduceSize fmt
    if a.isEmpty then []
    else leBytes w (reduceElem op fmt (leNat (a.take w)) (leNat (b.take w))) ++ reduceTiles op fmt f (a.drop w) (b.drop w)

/-- The tiles of an offset by rank, where all are there. -/
def gathered (got : List (Nat × Nat × List Byte)) (n off : Nat) : Option (List (List Byte)) :=
  (List.range n).mapM fun q => (got.find? (fun g => g.1 == q && g.2.1 == off)).map (·.2.2)

/-- The left fold over ranks (R200). -/
def foldTiles (op fmt : Nat) : List (List Byte) → List Byte
  | [] => []
  | x :: xs => xs.foldl (fun a b => reduceTiles op fmt 128 a b) x

/-- A reduction that has every member's tile of an offset writes it (R199, R200). -/
def reduceAt (s : State) (x : Cmd) (j : CollJob) (n rank off : Nat) : Option State :=
  match gathered x.got n off with
  | none => some s
  | some l =>
    let v := foldTiles j.op j.fmt l
    (collWrite s x.core j n rank 9 (collOff j.dst + off) v).map fun s' =>
      s'.setCmd x.seq fun y => { y with result := if j.opc = 8 then .ofNat 64 (leNat v) else y.result }

/-- A member's command receives the tile of rank `q` at an offset (R199, R202). DESIGN CHOICE: it is written at once, so that
where DST overlaps SRC at a member that has not sent yet, the other members may receive those bytes in place of its source
(notes/assumptions/66). -/
def takeTile (s : State) (x : Cmd) (j : CollJob) (n rank q off : Nat) (bs : List Byte) : Option State :=
  let s1 := s.setCmd x.seq fun y => { y with written := y.written + 1 }
  match j.opc with
  | 3 | 5 => collWrite s1 x.core j n rank 9 (collOff j.dst + q * j.bytes + off) bs
  | 6 => collWrite s1 x.core j n rank 9 (collOff j.dst + off) bs
  | 7 => some s1
  | _ =>
    let x' := { x with got := x.got ++ [(q, off, bs)] }
    reduceAt (s1.setCmd x.seq fun y => { y with got := x'.got }) x' j n rank off

/-- The bytes of a granule number. -/
def granuleBytes (l : List Nat) : List Byte := l.flatMap (leBytes 32)

/-- Reads a member's source bytes from an offset on: granules, or the one word of col.maxbar; a fault carries the group id
(R194). -/
def readSrc (s : State) (x : Cmd) (j : CollJob) (off len : Nat) : Eng (List Byte) :=
  if j.opc = 8 then
    match engRead s x.core (collSpace j.src) (collOff j.src) 4 with
    | .ok s' v => .ok s' (leBytes 4 v)
    | .stall => .stall
    | .fault s' c _ => .fault s' c (gidAux j.gid)
  else
    match engReads s x.core (collSpace j.src) 32 ((List.range (len / 32)).map fun i => collOff j.src + off + 32 * i) with
    | .ok s' l => .ok s' (granuleBytes l)
    | .stall => .stall
    | .fault s' c _ => .fault s' c (gidAux j.gid)

/-- A block cut into tiles with their offsets; `fuel` bounds them. -/
def cutTiles : (fuel off : Nat) → List Byte → List (Nat × List Byte)
  | 0, _, _ => []
  | f + 1, off, bs => if bs.isEmpty then [] else (off, bs.take 256) :: cutTiles f (off + 256) (bs.drop 256)

/-- The tiles that a member sends to rank `r`, from its whole source. -/
def CollJob.tilesFor (j : CollJob) (r : Nat) (src : List Byte) : List (Nat × List Byte) :=
  match j.opc with
  | 4 | 5 => cutTiles (tilesOf j.bytes) 0 ((src.drop (r * j.bytes)).take j.bytes)
  | 7 => [(0, [])]
  | _ => cutTiles (tilesOf j.bytes) 0 src

/-- A command's tiles leave for the other ports: one chain for a tile that all receive, else one packet for each
(R202). -/
def sendTiles (s : State) (x : Cmd) (j : CollJob) (e : CollEntry) (rank : Nat) (src : List Byte) : State :=
  let me := s.logicalId (clusterOf x.core)
  let others := s.otherPorts e me
  let out := fun (st : State) (ds : List (BitVec 7)) (l : List (Nat × List Byte)) =>
    l.foldl (fun z t => z.sendChain e me x.pos rank (.tile t.1 t.2) ds) st
  if j.opc = 4 || j.opc = 5 then
    others.foldl (fun st d => out st [d] (j.tilesFor ((s.rankIn e d).getD 0) src)) s
  else if j.opc = 6 && rank != j.root then s
  else out s others (j.tilesFor rank src)

/-- A command receives its own tiles. -/
def takeOwn (s : State) (seq : Nat) (j : CollJob) (n rank : Nat) : List (Nat × List Byte) → Option State
  | [] => some s
  | (off, bs) :: l =>
    (s.cmd seq).bind fun x => (takeTile s x j n rank rank off bs).bind fun s' => takeOwn s' seq j n rank l

/-- Bytes of the destination range of a member. -/
def CollJob.dstBytes (j : CollJob) (n : Nat) : Nat := if j.opc = 3 || j.opc = 5 then n * j.bytes else j.bytes

/-- Four undefined bytes as a reply. -/
def undefWord (tick i : Nat) : Word :=
  .ofNat 64 (leNat ((List.range 4).map fun b => Config.undefByte tick (i + b)))

/-- Under different masks the destination receives undefined values, all at once (R198). -/
def undefinedDst (s : State) (x : Cmd) (j : CollJob) (n rank : Nat) : Option State :=
  let m := j.dstBytes n
  (collWrite s x.core j n rank (m / 32 + 1) (collOff j.dst)
    ((List.range m).map fun i => Config.undefByte s.tick i)).map fun s' =>
      s'.setCmd x.seq fun y => { y with sent := true, mixed := false, written := y.count,
                                        result := if j.opc = 8 then undefWord s.tick m else y.result }

/-- Whether an earlier command of a command's team, group and turn is under way with its tiles still to send (R198, R203).
-/
def State.sendsFirst (s : State) (x : Cmd) : Bool :=
  s.cmds.any fun y => y.engine == .col && y.phase == .running && s.sameTeam y.core x.core && y.word.w1 == x.word.w1 &&
    decide (y.pos < x.pos) && !y.sent

/-- A matched command whose acquire is performed reads its source and sends its tiles, after those of the commands
before it (R198, R201, R203). DESIGN CHOICE: where its source faults it sends nothing, and the other members wait for its
tiles for ever (notes/assumptions/66). -/
def sendColl (s : State) (x : Cmd) (j : CollJob) (e : CollEntry) : Option State :=
  let n := (s.entryMembers e).length
  let rank := (s.rankIn e (s.logicalId (clusterOf x.core))).getD 0
  if !s.acquired x || s.sendsFirst x then none
  else if x.mixed then undefinedDst s x j n rank
  else
    (readSrc s x j 0 (j.srcBytes n rank)).next x.seq fun s1 src =>
      let s2 := (sendTiles s1 x j e rank src).setCmd x.seq fun y => { y with sent := true }
      if j.opc = 6 && rank != j.root then some s2
      else takeOwn s2 x.seq j n rank (j.tilesFor rank src)

/-- A collective command is matched, or, once matched, sends its data (R198). DESIGN CHOICE: a command of a turn that
its own team has closed by the next declaration, or of a group that its team has undeclared, waits for ever
(notes/assumptions/66). -/
def evCollectiveMatch (seq : Nat) (s : State) : Option State :=
  match s.cmd seq with
  | none => none
  | some x =>
    if x.phase ≠ .running || (x.sent && !x.mixed) then none
    else x.collJob.bind fun j =>
      ((s.coreAt x.core).slot.bind fun t => (s.cl (clusterOf x.core)).groupEntry t (bits j.gid 4 8)).bind fun e =>
        if e.turn ≠ x.turn then none
        else if x.matched then sendColl s x j e else matchColl s x j e

/-- COLLECTIVE_MATCH (R198). -/
def execCollectiveMatch (seq : Nat) (s : State) : Result := fire s (evCollectiveMatch seq s)

/-! ## Arrival -/

/-- A packet of the current turn is delivered: a match packet of a member is recorded, a tile is taken by the command
it is for (R195, R202). -/
def deliverPacket (s : State) (k : ClusterId) (e : CollEntry) (p : Packet) : Option State :=
  match p.body with
  | .matching q =>
    match s.rankIn e p.src with
    | none => some s
    | some r => some (s.setColl k (e.addRecord { pos := p.pos, rank := r, params := q }))
  | .tile off bs =>
    match s.collCmd k e p.pos with
    | none => some s
    | some x =>
      x.collJob.bind fun j =>
        if x.matched then
          takeTile s x j (s.entryMembers e).length ((s.rankIn e (s.logicalId k)).getD 0) ((s.rankIn e p.src).getD 0) off bs
        else none

/-- What a port does with a packet, by the distance of its turn (R195). DESIGN CHOICE: a held match packet takes a slot of
the hold store, as a tile does (notes/assumptions/66). -/
def portPacket (s : State) (k : ClusterId) (p : Packet) : Option State :=
  match s.collEntry k p.asid p.gnum with
  | none => some s
  | some e =>
    let d := (p.turn - e.turn).toNat
    if d = 0 then deliverPacket s k e p
    else if d < 8 then
      if 16 ≤ (s.cl k).held.length then none
      else some (s.setCl k { s.cl k with held := (s.cl k).held ++ [{ p with hop := p.dst, chain := [] }] })
    else some (s.setColl k { e with discards := e.discards + 1 })

/-- A packet as it goes on along its chain, in a chain slot of the port that it has reached (R202). -/
def Packet.onward (p : Packet) : Option Packet :=
  match p.chain with
  | [] => none
  | d :: ds => some { p with hop := p.dst, dst := d, chain := ds }

/-- Whether a packet is a tile. -/
def Packet.isTile (p : Packet) : Bool :=
  match p.body with
  | .tile _ _ => true
  | .matching _ => false

/-- Tiles in the chain-buffer slots of a port (R202). -/
def State.chainSlots (s : State) (l : BitVec 7) : Nat :=
  (s.packets.filter fun p => p.isTile && p.hop == l && p.hop != p.src && p.hop != p.dst).length

/-- Whether an earlier packet of a source and group still has to reach a port (R203). -/
def Packet.behind (p q : Packet) : Bool :=
  q.src == p.src && q.asid == p.asid && q.gnum == p.gnum && (q.dst == p.dst || q.chain.contains p.dst)

/-- Packet `i` reaches its port, behind every earlier one of its source and group to that port, a tile only where the
port has a chain slot for it; it keeps its place among its source's packets (R195, R202, R203). DESIGN CHOICE: an ACQ of
the port's own command holds back no tile that the port forwards for another source (R201, notes/assumptions/66). -/
def evCollectivePacketArrival (i : Nat) (s : State) : Option State :=
  match s.packets[i]? with
  | none => none
  | some p =>
    if (s.packets.take i).any p.behind || (p.isTile && p.hop != p.dst && decide (32 ≤ s.chainSlots p.dst)) then none
    else
      let s1 := { s with packets := s.packets.take i ++ p.onward.toList ++ s.packets.drop (i + 1) }
      match s.holderOf p.dst.toNat with
      | none => some s1
      | some k => portPacket s1 k p

/-- COLLECTIVE_PACKET_ARRIVAL (R195). -/
def execCollectivePacketArrival (i : Nat) (s : State) : Result := fire s (evCollectivePacketArrival i s)

/-! ## Aborts -/

/-- At one port, the unmatched commands of an aborted turn fault, those that a pre-emption has saved among them
(R196, R205). -/
def State.abortAt (s : State) (k : ClusterId) (e : CollEntry) : State :=
  let aux : Word := zext (e.gnum ++ e.turn)
  let s1 := (s.setColl k { e with aborted := true }).modTeam k e.team fun x =>
    { x with saved := x.saved.map fun y =>
        if e.unmatched y then { y with phase := .finished, fault := some (causeGroupBusy, aux) } else y }
  (s.cmds.filter fun y => e.unmatched y && clusterOf y.core == k && (s.coreAt y.core).slot == some e.team).foldl
    (fun st y => st.faultCmd y.seq causeGroupBusy aux) s1

/-- At one port, the matched commands of a turn whose tiles a lost cluster will not send end with undefined values
(R19, R196, notes/assumptions/66). -/
def State.orphanAt (s : State) (k : ClusterId) (e : CollEntry) : State :=
  (s.cmds.filter fun y => y.matched && y.phase == .running && y.engine == .col && clusterOf y.core == k &&
      (s.coreAt y.core).slot == some e.team && bits y.word.w1 4 8 == e.gnum && y.turn == e.turn).foldl
    (fun st y => ((y.collJob.bind fun j =>
      undefinedDst st y j (st.entryMembers e).length ((st.rankIn e (st.logicalId k)).getD 0)).getD st)) s

/-- Whether a member is still to declare the turn of an entry: its own entry stands before it, or it has none and has not
declared the group in its present use (R195, R196, notes/assumptions/66). -/
def State.mayReach (s : State) (e : CollEntry) (m : Nat × Nat) : Bool :=
  match (s.holderOf m.2).bind fun k => s.collEntry k e.asid e.gnum with
  | some f => turnAwaited e.turn f.turn
  | none => !s.uses.any fun u => u.of e.asid e.gnum && u.seen.getLsbD m.2

/-- The turn of a member's entry is aborted at every other member of this package: at once, or when it declares the turn,
where it is still to do so (R196); `lost` holds for a member on a lost cluster. -/
def State.abortTurn (s : State) (k : ClusterId) (e : CollEntry) (lost : Bool) : State :=
  let me := s.logicalId k
  (s.entryMembers e).foldl (fun st m =>
    if m.1 ≠ s.fabid.toNat ∨ m.2 = me.toNat then st
    else match st.peerEntry e m with
    | some (k', f) => let z := st.abortAt k' f; if lost then z.orphanAt k' f else z
    | none =>
      if st.mayReach e m then { st with abortedTurns := st.abortedTurns ++ [⟨e.asid, e.gnum, e.turn, m.2⟩] } else st) s

end Sys2Proof.Machine
end

