-- ==== Sys2Proof/Machine/Control.lean ====
section
/-! DEFINITION. Branches and jumps (spec/06 R140-R141). -/

namespace Sys2Proof.Machine

/-- A conditional branch retires to its target or to the next word (R140). -/
def branch (s : State) (taken : Bool) (i : BitVec 16) : Result :=
  .next (s.setCore (s.core.retireTo (if taken then target s.pc i else s.pc + 4)))

/-- beq (R140). -/
def execBeq (a b : BitVec 5) (i : BitVec 16) (s : State) : Result := branch s (s.g a == s.g b) i

/-- bne (R140). -/
def execBne (a b : BitVec 5) (i : BitVec 16) (s : State) : Result := branch s (s.g a != s.g b) i

/-- blt (R140). -/
def execBlt (a b : BitVec 5) (i : BitVec 16) (s : State) : Result := branch s ((s.g a).slt (s.g b)) i

/-- bge (R140). -/
def execBge (a b : BitVec 5) (i : BitVec 16) (s : State) : Result := branch s (!(s.g a).slt (s.g b)) i

/-- bltu (R140). -/
def execBltu (a b : BitVec 5) (i : BitVec 16) (s : State) : Result := branch s ((s.g a).ult (s.g b)) i

/-- bgeu (R140). -/
def execBgeu (a b : BitVec 5) (i : BitVec 16) (s : State) : Result := branch s (!(s.g a).ult (s.g b)) i

/-- A jump that links: the target is read before g[d] is written (R141). -/
def jump (s : State) (d : BitVec 5) (dest : Word) : Result :=
  .next (s.setCore ((s.core.writeG d (s.pc + 4)).retireTo dest))

/-- jal (R141). -/
def execJal (d : BitVec 5) (i : BitVec 21) (s : State) : Result := jump s d (target s.pc i)

/-- jalr: a target that is not a multiple of 4 is MISALIGNED (R141). -/
def execJalr (d a : BitVec 5) (i : BitVec 16) (s : State) : Result :=
  if (s.ea a i).toNat % 4 ≠ 0 then trap s causeMisaligned (s.ea a i) else jump s d (s.ea a i)

end Sys2Proof.Machine
end

