-- ==== Sys2Proof/Machine/Copy.lean ====
section
/-! DEFINITION. The copy engine and the tier manager (spec/17). -/

namespace Sys2Proof.Machine

/-! ## Copies and fills -/

/-- The fields of a cpy.copy or, with a pattern, of a cpy.fill (R302, R307). -/
structure CopyJob where
  cvt : Bool
  pattern : Option (BitVec 32)
  src : Nat
  sacc : Bool
  dst : Nat
  dacc : Bool
  len : Nat
  rows : Nat
  sstride : Int
  dstride : Int

/-- The copy or fill of a command word. -/
def Cmd.copyJob (x : Cmd) : Option CopyJob :=
  match decodeCommand .cpy x.word with
  | .ok (.cpyCopy _ cvt src sacc dst dacc len rows sstride dstride) =>
    some { cvt := cvt, pattern := none, src := src.toNat, sacc := sacc, dst := dst.toNat, dacc := dacc,
           len := len.toNat, rows := rows.toNat, sstride := strideOf sstride, dstride := strideOf dstride }
  | .ok (.cpyFill _ pattern dst dacc len rows dstride) =>
    some { cvt := false, pattern := some pattern, src := 0, sacc := false, dst := dst.toNat, dacc := dacc,
           len := len.toNat, rows := rows.toNat, sstride := 0, dstride := strideOf dstride }
  | _ => none

/-- Destination bytes of a row (R304). -/
def CopyJob.rowBytes (j : CopyJob) : Nat := if j.cvt then j.len / 2 else j.len

/-- The destination address of a row, unwrapped (R304). -/
def CopyJob.rowAt (j : CopyJob) (i : Nat) : Int := j.dst + i * j.dstride

/-- A start: setup, with nothing to do for no row or no byte (R303, R316). -/
def startCopy (s : State) (x : Cmd) (len rows : Nat) : Option State :=
  if !s.acquired x then none
  else if len = 0 || rows ≤ x.row then some (s.finishCmd x.seq 0)
  else some (s.runCmd x.seq)

/-- cpy.copy (R302-R306). -/
def execCpyCopy (_h : Hdr) (_cvt : Bool) (_src : BitVec 48) (_sacc : Bool) (_dst : BitVec 48) (_dacc : Bool)
    (len : BitVec 20) (rows : BitVec 12) (_sstride _dstride : BitVec 32) (s : State) : Result :=
  startCmd s fun x => startCopy s x len.toNat rows.toNat

/-- cpy.fill (R307). -/
def execCpyFill (_h : Hdr) (_pattern : BitVec 32) (_dst : BitVec 48) (_dacc : Bool) (len : BitVec 20)
    (rows : BitVec 12) (_dstride : BitVec 32) (s : State) : Result :=
  startCmd s fun x => startCopy s x len.toNat rows.toNat

/-! ## Addresses -/

/-- The accumulator offset of an unwrapped address; one below 0 lies in no block (R304). -/
def accAddr (a : Int) : Nat := if a < 0 then 2 ^ 21 + (a % 2 ^ 21).toNat else a.toNat

/-- The window address of an unwrapped address: modulo 2^48 (R304). -/
def winAddr (a : Int) : Nat := (a % 2 ^ 48).toNat

/-- An unwrapped address as ENGFA reports it. -/
def copyAux (acc : Bool) (a : Int) : Word := .ofNat 64 (if acc then accAddr a else winAddr a)

/-- Where a copy's address leads (R301). -/
inductive CopyPlace where
  | tcm (off : Nat)
  | team (sp : Space) (off : Nat)
  | phys (x : Xlat)

/-- Resolves an address of a command for an access (R301, R311). A translation fault carries the address, or, with
`aux`, what R105 gives it (R305, R332). -/
def copyPlace (s : State) (x : Cmd) (aux acc : Bool) (a : Int) (acs : Access) : Eng CopyPlace :=
  let v := winAddr a
  if acc then .ok s (.team .acc (accAddr a))
  else if Config.tcmBase ≤ v ∧ v < Config.tcmBase + Config.tcmBytes then .ok s (.tcm (v - Config.tcmBase))
  else if Config.spmBase ≤ v ∧ v < Config.spmBase + Config.spmBytes then .ok s (.team .spm (v - Config.spmBase))
  else if v < Config.translatedBase then .fault s causePageNotPresent (.ofNat 64 v)
  else
    let csr := (s.coreAt x.core).csr
    match translate s (clusterOf x.core) csr.asid csr.ptbase v acs with
    | (s', .fault c w) => .fault s' c (if aux then w else .ofNat 64 v)
    | (_, .stall) => .stall
    | (s', .ok t) => if s'.engineReaches x t.pa then .ok s' (.phys t) else .stall

/-- Reads `n` bytes of one granule (R301, R305). -/
def copyRead (s : State) (x : Cmd) (aux acc : Bool) (a : Int) (n : Nat) : Eng (List Byte) :=
  match copyPlace s x aux acc a .read with
  | .stall => .stall
  | .fault s' c w => .fault s' c w
  | .ok s1 (.tcm off) => .ok s1 (Memory.readBytes (s1.coreAt x.core).tcm off n)
  | .ok s1 (.team sp off) =>
    if s1.granuleBad x.core sp off then .fault s1 causeDataError (copyAux acc a)
    else match s1.readTeam x.core sp off n with
    | none => .stall
    | some (s2, v) => .ok s2 (leBytes n v)
  | .ok s1 (.phys t) =>
    match s1.lineFault t.pa (s1.sealFor t.buf) with
    | some c => .fault (s1.countBuddy t.pa) c (copyAux acc a)
    | none => .ok (s1.countBuddy t.pa) (Memory.readBytes s1.mem t.pa n)

/-- Bytes from an address to the end of its granule, at most `n`. -/
def inGranule (a : Int) (n : Nat) : Nat := Nat.min n (32 - (a % 32).toNat)

/-- Reads `n` bytes, granule by granule; `fuel` bounds the granules. -/
def copyReads (s : State) (x : Cmd) (aux acc : Bool) : (fuel : Nat) → (a : Int) → (n : Nat) → Eng (List Byte)
  | 0, _, _ => .ok s []
  | f + 1, a, n =>
    if n = 0 then .ok s []
    else match copyRead s x aux acc a (inGranule a n) with
    | .stall => .stall
    | .fault s' c w => .fault s' c w
    | .ok s1 l => match copyReads s1 x aux acc f (a + inGranule a n) (n - inGranule a n) with
      | .ok s2 r => .ok s2 (l ++ r)
      | r => r

/-! ## Grants -/

/-- FP32 bytes as BF16 bytes (R304). -/
def toBf16 : List Byte → List Byte
  | a :: b :: c :: d :: l => leBytes 2 (fconvert fp32 bf16 .rne (leNat [a, b, c, d])).1 ++ toBf16 l
  | _ => []

/-- Whether a destination address is also a source byte of the command (R304). -/
def CopyJob.overlaps (j : CopyJob) (a : Int) : Bool :=
  j.pattern.isNone && j.sacc == j.dacc &&
  (List.range j.rows).any fun i =>
    let d := a - (j.src + i * j.sstride)
    let d := if j.dacc then d else d % 2 ^ 48
    decide (0 ≤ d) && decide (d < j.len)

/-- Bytes for destination addresses from `a` on, byte `i` of their granule; those of an overlap are undefined (R6, R304). -/
def CopyJob.settle (j : CopyJob) (tick : Nat) (a : Int) : Nat → List Byte → List Byte
  | _, [] => []
  | i, b :: l => (if j.overlaps a then Config.undefByte tick i else b) :: j.settle tick (a + 1) (i + 1) l

/-- The bytes of a fill from an address on (R307). -/
def fillBytes (p : BitVec 32) (a : Int) (n : Nat) : List Byte :=
  (List.range n).map fun (i : Nat) => bits p (8 * ((a + i) % 4).toNat) 8

/-- The part of one destination granule that a row writes: from byte `byte` of row `row` on, `len` bytes, which stand from
byte `at_` of the granule on. -/
structure RowPart where
  row : Nat
  byte : Nat
  len : Nat
  at_ : Nat
  deriving DecidableEq, Repr

/-- How far the granule at an address lies behind byte 0 of row `i`, at least -31 where the row may reach it; modulo 2^48
in the windows (R304). -/
def CopyJob.behind (j : CopyJob) (a : Int) (i : Nat) : Int :=
  let d := a - a % 32 - j.rowAt i
  if j.dacc then d else (d + 31) % 2 ^ 48 - 31

/-- The part that row `i` writes of the granule of an address. -/
def CopyJob.part (j : CopyJob) (a : Int) (i : Nat) : Option RowPart :=
  let d := j.behind a i
  let lo := (max d 0).toNat
  let hi := (min (j.rowBytes : Int) (d + 32)).toNat
  if lo < hi then some { row := i, byte := lo, len := hi - lo, at_ := (lo - d).toNat } else none

/-- The parts of the granule of an address that rows from `i` on write, in row order. -/
def CopyJob.parts (j : CopyJob) (a : Int) (i : Nat) : List RowPart :=
  (List.range (j.rows - i)).filterMap fun n => j.part a (i + n)

/-- Whether no row before row `i` writes the granule of an address. -/
def CopyJob.untouched (j : CopyJob) (i : Nat) (a : Int) : Bool := (List.range i).all fun n => (j.part a n).isNone

/-- Whether no row before row `i` writes the granule of byte `b` of it: that row then has it granted (R300). -/
def CopyJob.fresh (j : CopyJob) (i b : Nat) : Bool := j.untouched i (j.rowAt i + b)

/-- The destination bytes of a row's part of a granule (R304, R307). -/
def CopyJob.data (j : CopyJob) (s : State) (x : Cmd) (p : RowPart) : Eng (List Byte) :=
  let a := j.rowAt p.row + p.byte
  match j.pattern with
  | some w => .ok s (fillBytes w a p.len)
  | none =>
    match copyReads s x false j.sacc 6 (j.src + p.row * j.sstride + (if j.cvt then 2 * p.byte else p.byte))
        (if j.cvt then 2 * p.len else p.len) with
    | .ok s' l => .ok s' (j.settle s.tick a p.at_ (if j.cvt then toBf16 l else l))
    | r => r

/-- The bytes of a granule, none where it keeps its own, with bytes put from byte `i` on. -/
def overlay (l : List (Option Byte)) (i : Nat) (bs : List Byte) : List (Option Byte) :=
  l.take i ++ bs.map some ++ l.drop (i + bs.length)

/-- The bytes of a granule from its rows' parts, a later row's over an earlier one's (R300, R304). -/
def CopyJob.gather (j : CopyJob) (s : State) (x : Cmd) : List RowPart → List (Option Byte) → Eng (List (Option Byte))
  | [], l => .ok s l
  | p :: ps, l =>
    match j.data s x p with
    | .ok s' bs => j.gather s' x ps (overlay l p.at_ bs)
    | .stall => .stall
    | .fault s' c w => .fault s' c w

/-- The cells that a granule's bytes write, its byte 0 at an address. -/
def granuleCells (o : Nat) (l : List (Option Byte)) : List Host.Cell :=
  (List.range 32).filterMap fun i => (l.getD i none).map (o + i, ·)

/-- The destination address of a command's progress, unwrapped. -/
def CopyJob.at_ (j : CopyJob) (x : Cmd) : Int := j.rowAt x.row + x.byte

/-- Whether some row covers the aligned line of a window address whole (R304). -/
def CopyJob.lineCovered (j : CopyJob) (a : Int) : Bool :=
  (List.range j.rows).any fun i => decide ((a - a % 64 - j.rowAt i) % 2 ^ 48 + 64 ≤ j.rowBytes)

/-- Whether an address lies in the lower granule of its line. -/
def lowerHalf (a : Int) : Bool := decide (a % 64 < 32)

/-- Whether the next granule of a copy is the first granted of a line in translated space that one row covers whole: the
other one is granted later, by the same row or by another (R304, notes/assumptions/68). -/
def CopyJob.wholeLine (j : CopyJob) (x : Cmd) : Bool :=
  let a := j.at_ x
  !j.dacc && decide (Config.translatedBase ≤ winAddr a) && j.lineCovered a &&
  (if lowerHalf a then j.untouched x.row (a + 32) else j.untouched (x.row + 1) (a - 32))

/-- Whether a granule is half a whole line of a command, which waits for the other half, the granule of an address. -/
def Granule.awaits (g : Granule) (seq : Nat) (va : Nat) : Bool := g.half && g.seq == seq && g.va.toNat / 64 == va / 64

/-- The half granted already of the whole line of an address (R304). -/
def State.halfOf (s : State) (x : Cmd) (a : Int) : Option Granule := s.granules.find? (·.awaits x.seq (winAddr a))

/-- A granted granule whose bytes are `l`, the place of address `a` of it resolved; a merge into a granule or line beyond
correction faults, which half a whole line is not (R304, R305). -/
def granuleAt (s : State) (x : Cmd) (p : CopyPlace) (a : Int) (acc half : Bool) (l : List (Option Byte)) : Eng Granule :=
  let csr := (s.coreAt x.core).csr
  let g : Granule := { seq := x.seq, stamp := s.tick, core := x.core, space := .tcm, cells := [], whole := false, half := false,
                       va := copyAux acc a, asid := csr.asid, epoch := 0, buf := 0 }
  let cells := fun (o : Nat) => granuleCells (o - o % 32) l
  match p with
  | .tcm o => .ok s { g with cells := cells o }
  | .team sp o =>
    if (cells o).length < 32 && s.granuleBad x.core sp o then .fault s causeDataError (copyAux acc a)
    else .ok s { g with space := if sp = .spm then .spm else .acc, cells := cells o }
  | .phys t =>
    if !half && s.lineBad t.pa then .fault (s.countBuddy t.pa) causeDataError (copyAux acc a)
    else .ok s { g with space := .phys, cells := cells t.pa, half := half, epoch := t.epoch, buf := t.buf }

/-- The second granule of a whole line, that of address `a`, joins the first, granted before: they are one write, under
one translation, which counts as granted with the second (R125, R304, notes/assumptions/68). -/
def Granule.joined (h : Granule) (tick : Nat) (a : Int) (l : List (Option Byte)) : Granule :=
  let line := h.place - h.place % 64
  { h with stamp := tick, whole := true, half := false,
           cells := if lowerHalf a then granuleCells line l ++ h.cells else h.cells ++ granuleCells (line + 32) l }

/-- The grant of a command's next destination granule, for all rows that write it: their sources read, the destination
resolved, or, for the second granule of a whole line, as the first one's was (R64, R300, R304, R305). -/
def grantBytes (s : State) (x : Cmd) (j : CopyJob) : Eng Granule :=
  let a := j.at_ x
  match j.gather s x (j.parts a x.row) (List.replicate 32 none) with
  | .stall => .stall
  | .fault s' c w => .fault s' c w
  | .ok s1 l =>
    match s1.halfOf x a with
    | some h => .ok s1 (h.joined s1.tick a l)
    | none => match copyPlace s1 x false j.dacc a .write with
      | .stall => .stall
      | .fault s' c w => .fault s' c w
      | .ok s2 p => granuleAt s2 x p a j.dacc (j.wholeLine x) l

/-- The first place from byte `b` of row `i` on whose granule no row before has written, row and byte; row `rows` where
there is none. `fuel` bounds the granules on the way. -/
def CopyJob.nextFresh (j : CopyJob) : (fuel i b : Nat) → Nat × Nat
  | 0, i, b => (i, b)
  | f + 1, i, b =>
    if j.rows ≤ i then (i, 0)
    else if j.rowBytes ≤ b then j.nextFresh f (i + 1) 0
    else if j.fresh i b then (i, b)
    else j.nextFresh f i (b + inGranule (j.rowAt i + b) (j.rowBytes - b))

/-- Progress behind the granule that a command grants: at the next granule to grant; behind the last only writes remain
(R300). -/
def Cmd.copied (x : Cmd) (j : CopyJob) : Cmd :=
  let p := j.nextFresh (j.rows * (j.rowBytes / 32 + 3) + 1) x.row (x.byte + inGranule (j.at_ x) (j.rowBytes - x.byte))
  { x with row := p.1, byte := p.2, phase := if p.1 < j.rows then x.phase else .finished }

/-- A granted granule is outstanding, with the half of its line that waited for it, and the command goes on behind it. -/
def putGranule (s : State) (x : Cmd) (j : CopyJob) (g : Granule) : State :=
  { s with granules := s.granules.filter (fun (h : Granule) => !h.awaits x.seq g.va.toNat) ++ [g] }.setCmd x.seq (·.copied j)

/-- The next granule of a copy (R300, R304, R305). -/
def grantCopy (s : State) (x : Cmd) (j : CopyJob) : Option State :=
  (grantBytes s x j).next x.seq fun s1 g => some (putGranule s1 x j g)

/-- Granules outstanding at the copy engine of a cluster (R300). -/
def State.outstanding (s : State) (k : ClusterId) : Nat :=
  ((s.granules.filter fun g => clusterOf g.core == k).map fun g => if g.whole then 2 else 1).sum

/-- The next grant of an active command, where 64 outstanding granules leave it room (R300). -/
def State.copyGrant (s : State) (x : Cmd) : Option State :=
  if x.phase ≠ .running || !s.goesOn x then none
  else (x.copyJob).bind fun j => if 64 ≤ s.outstanding (clusterOf x.core) then none else grantCopy s x j

/-- The place of a command in the round robin: CORENO, and age in the core's queue (R300). -/
def Cmd.copyTurn (x : Cmd) : Nat × Nat := ((corenoOf x.core).val, x.seq)

/-- Whether a place comes after the one granted last. -/
def afterLast (last : Option (Nat × Nat)) (p : Nat × Nat) : Bool :=
  match last with
  | none => true
  | some l => decide (l.1 < p.1) || (l.1 == p.1 && decide (l.2 < p.2))

/-- Whether a command comes before another in the round robin behind the one granted last: those after it first, by
CORENO and age (R300). -/
def copyBefore (last : Option (Nat × Nat)) (x y : Cmd) : Bool :=
  if afterLast last x.copyTurn == afterLast last y.copyTurn then afterLast (some x.copyTurn) y.copyTurn
  else afterLast last x.copyTurn

/-- The copy engine grants the next granule of a command, the first in its round robin that can be granted (R300). -/
def evCopyGranuleGrant (seq : Nat) (s : State) : Option State :=
  (s.cmd seq).bind fun x =>
    let k := clusterOf x.core
    let others := s.cmds.filter fun y => y.engine == .cpy && clusterOf y.core == k && y.seq != seq
    if others.any fun y => copyBefore (s.cl k).copyLast y x && (s.copyGrant y).isSome then none
    else (s.copyGrant x).map fun s' => s'.setCl k { s'.cl k with copyLast := some x.copyTurn }

/-- COPY_GRANULE_GRANT (R300). -/
def execCopyGranuleGrant (seq : Nat) (s : State) : Result := fire s (evCopyGranuleGrant seq s)

/-- A granted granule of team memory is written; one that would merge into a granule that has gone bad since its grant
faults its command (R305). None while its place stalls it. -/
def writeTeamGranule (s : State) (g : Granule) (sp : Space) : Option State :=
  if g.cells.length < 32 && s.granuleBad g.core sp g.place then some (s.mergeFault g)
  else s.writeTeamCells g.core sp g.place g.cells

/-- A granted granule is written, or, in translated space, leaves for its home as a store does (R135, R308). None while
its place stalls it. -/
def writeGranted (s : State) (g : Granule) : Option State :=
  match g.space with
  | .tcm =>
    let k := s.coreAt g.core
    some (s.setCoreAt g.core { k with tcm := Memory.writeCells k.tcm g.cells })
  | .spm => writeTeamGranule s g .spm
  | .acc => writeTeamGranule s g .acc
  | .phys => s.depart g.core g.place (.copy g (s.sealFor g.buf))

/-- Whether a granted granule waits for the other one of its line: its command goes on, and no shootdown waits for the
write while nothing of the command can be granted (R124, R304, R315, notes/assumptions/68). -/
def State.awaitsOther (s : State) (g : Granule) : Bool :=
  g.half && (s.cmd g.seq).any fun x => x.phase == .running && s.goesOn x &&
    !(s.shoots.any (·.asid == g.asid) && (s.copyGrant x).isNone)

/-- The oldest granted granule of a command that waits for no other one is written or accepted, a whole line at once
(R300, R304, R305, R308). DESIGN CHOICE: of a line whose granules are not granted one after another, the one write is
issued in the place of the second, where R300 names an order of single granules (notes/assumptions/68). -/
def evCopyGranuleWrite (seq : Nat) (s : State) : Option State :=
  let due := fun (g : Granule) => g.seq == seq && !s.awaitsOther g
  (s.granules.find? due).bind fun g => writeGranted { s with granules := dropFirst due s.granules } g

/-- COPY_GRANULE_WRITE (R308). -/
def execCopyGranuleWrite (seq : Nat) (s : State) : Result := fire s (evCopyGranuleWrite seq s)

/-! ## cpy.pref -/

/-- What a page is to cpy.pref (R313). -/
inductive PageKind where
  | migrate (l : Leaf)
  | skip
  | absent
  /-- A table of its walk lies in a sleeping stack, or the page is under shootdown. -/
  | wait

/-- Whether a page migrates, or waits to (R310). -/
def State.migrating (s : State) (asid : BitVec 12) (vpage : Nat) : Bool :=
  s.migrations.any fun m => m.asid == asid && m.vpage == vpage

/-- What a page is by its leaf (R313, R334). -/
def leafKind (s : State) (asid : BitVec 12) (ptbase : Word) (vpage : Nat) : State × PageKind :=
  if 2 ^ 32 ≤ vpage then (s, .absent)
  else match walk s asid ptbase (vpage * 65536) with
  | (s1, .ok l) =>
    (s1, if l.level ≠ 3 || !l.read then .absent else if l.space = 1 || l.space = 3 then .migrate l else .skip)
  | (s1, .fault _ _) => (s1, .absent)
  | (s1, .stall) => (s1, .wait)

/-- A page's migration is asked of the die's tier manager (R310). -/
def newMigration (x : Cmd) (asid : BitVec 12) (vpage : Nat) (l : Leaf) : Migration :=
  { die := dieOfCore x.core, seq := x.seq, asid := asid, vpage := vpage, phase := .queued, oldPage := l.page / 65536,
    newPage := 0, oldSpace := l.space, buf := l.buf }

/-- The reply of cpy.pref (R313). -/
def Cmd.prefReply (x : Cmd) : Word := .ofNat 64 (x.unstaged % 2 ^ 16 * 2 ^ 48 + x.skipped % 2 ^ 16 * 2 ^ 32 + x.count % 2 ^ 32)

/-- cpy.pref examines its next page, once its last migration has ended (R313, R315). -/
def prefPage (s : State) (x : Cmd) (addr count : Nat) : Option State :=
  let csr := (s.coreAt x.core).csr
  let vpage := addr / 65536 + x.row
  if s.migrations.any (·.seq == x.seq) then none
  else if count ≤ x.row then some (s.finishCmd x.seq x.prefReply)
  else if !s.goesOn x then none
  else if s.migrating csr.asid vpage then some (s.setCmd x.seq fun y => { y with row := y.row + 1, skipped := y.skipped + 1 })
  else match leafKind s csr.asid csr.ptbase vpage with
  | (_, .wait) => none
  | (s, .skip) => some (s.setCmd x.seq fun y => { y with row := y.row + 1, skipped := y.skipped + 1 })
  | (s, .absent) => some (s.setCmd x.seq fun y => { y with row := y.row + 1, unstaged := y.unstaged + 1 })
  | (s, .migrate l) =>
    some ({ s with migrations := s.migrations ++ [newMigration x csr.asid vpage l] }.setCmd x.seq
      fun y => { y with row := y.row + 1 })

/-- cpy.pref starts, or goes on with its next page (R313, R316). -/
def execCpyPref (_h : Hdr) (addr : BitVec 48) (count : BitVec 16) (s : State) : Result :=
  fire s ((s.cmd s.cmdRef).bind fun x =>
    if x.phase = .running then prefPage s x addr.toNat count.toNat
    else if s.mayStart x && s.acquired x then some (s.runCmd x.seq) else none)

/-! ## The tier manager -/

/-- Replaces the registers of a die. -/
def State.setDie (s : State) (d : DieId) (r : DieRegs) : State := { s with dies := s.dies.set d.val r d.isLt }

/-- Whether a die's done ring is full (R309). -/
def DieRegs.doneFull (r : DieRegs) : Bool := r.tmdhead + 1 == r.tmdtail

/-- TMSTAT with one page more staged, or not staged (R309). -/
def DieRegs.counted (r : DieRegs) (staged : Bool) : DieRegs :=
  let lo := bits r.tmstat 0 32
  let hi := bits r.tmstat 32 32
  { r with tmstat := if staged then zext hi <<< 32 ||| zext (lo + 1) else zext (hi + 1) <<< 32 ||| zext lo }

/-- The first element that a test picks, changed or removed. -/
def changeFirst {α : Type} (p : α → Bool) (f : α → Option α) : List α → List α
  | [] => []
  | x :: xs => if p x then (f x).toList ++ xs else x :: changeFirst p f xs

/-- The first migration of a die, changed or removed. -/
def State.setMigration (s : State) (d : DieId) (f : Migration → Option Migration) : State :=
  { s with migrations := changeFirst (·.die == d) f s.migrations }

/-- A page is not staged for lack of a frame (R310 step 1). -/
def notStaged (s : State) (d : DieId) (m : Migration) : State :=
  ((s.setDie d ((s.dies[d]).counted false)).setMigration d (fun _ => none)).setCmd m.seq
    fun y => { y with unstaged := y.unstaged + 1 }

/-- A leaf entry rewritten to a frame of T1, keeping BUF, MAP, W and RD (R120, R310 step 2). -/
def stagedLeaf (e frame : Nat) : Nat := e / 2 ^ 48 * 2 ^ 48 + frame * 65536 + e % 2 ^ 6

/-- Steps 1 to 3 of a migration: a frame, the leaf, and the shootdown (R310). -/
def beginMigration (s : State) (d : DieId) (m : Migration) : Option State :=
  let r := s.dies[d]
  let pt := (s.tenant m.asid).pt
  if r.doneFull || !s.shoots.isEmpty || s.homeBusy (r.tmfbase.toNat + 8 * r.tmftail.toNat) 8 then none
  else if r.tmfhead = r.tmftail then some (notStaged s d m)
  else match leafKind s m.asid pt m.vpage with
  | (_, .wait) => none
  | (s, .skip) => some ((s.setMigration d (fun _ => none)).setCmd m.seq fun y => { y with skipped := y.skipped + 1 })
  | (s, .absent) => some ((s.setMigration d (fun _ => none)).setCmd m.seq fun y => { y with unstaged := y.unstaged + 1 })
  | (s, .migrate l) =>
    let frame := s.readPhys (r.tmfbase.toNat + 8 * r.tmftail.toNat) 8 / 65536 % 2 ^ 32
    let s1 := s.writeRaw l.entry (leBytes 8 (stagedLeaf (s.readPhys l.entry 8) frame))
    let s2 := s1.setMigration d fun m =>
      some { m with phase := .shooting, oldPage := l.page / 65536, newPage := frame, oldSpace := l.space, buf := l.buf }
    some ((s2.setDie d { r with tmftail := r.tmftail + 1 }).addShoot
      { asid := m.asid, vpn := m.vpage, level := 3, by_ := .tier d })

/-- The seal of line `i` of a page at its new address: the buffer's now, but for one whose MAC would fail (R310 step 4,
R387, notes/assumptions/11). -/
def State.movedSeal (s : State) (old : Nat) (buf : BitVec 12) (i : Nat) : Option Seal :=
  match s.seals.find? (fun x => x.1 == old * 1024 + i) with
  | some (_, t) => t
  | none => some (s.sealFor buf)

/-- The lines of a page move to a frame through the security block, with their errors (R310 step 4, R390). -/
def State.movePage (s : State) (old new : Nat) (buf : BitVec 12) : State :=
  let bs := s.mem.filterMap fun c => if c.1 / 65536 = old then some (new * 65536 + c.1 % 65536, c.2) else none
  let inNew := fun (l : Nat) => l / 1024 == new
  let up := fun (l : Nat) => new * 1024 + l % 1024
  let lines := List.range 1024
  let s' := { s with
    mem := Memory.writeCells (Memory.zero s.mem (new * 65536) ((new + 1) * 65536)) bs,
    poison := s.poison.filter (fun l => !inNew l) ++ (s.poison.filter (fun l => l / 1024 == old)).map up,
    seals := lines.map (fun i => (new * 1024 + i, s.movedSeal old buf i)) ++
      s.seals.filter fun (x : Nat × Option Seal) => !inNew x.1 }
  s'.countBuddies (lines.map fun i => new * 65536 + 64 * i)

/-- Whether anything is still on its way to a page (R66). -/
def State.pageBusy (s : State) (page : Nat) : Bool :=
  s.transit.any (fun t => t.item != .loadMark && t.item.pa / 65536 == page) ||
  s.ships.any fun o => o.result.isNone && o.pa / 65536 == page

/-- Address of the next entry of a die's done ring (R309). -/
def DieRegs.doneAt (r : DieRegs) : Nat := r.tmdbase.toNat + 16 * r.tmdhead.toNat

/-- Whether a migration's lines and its done-ring entry can be written: no stack of theirs sleeps, and nothing waits at the
old page or the entry (R310, R320, R334). -/
def State.canMove (s : State) (d : DieId) (m : Migration) : Bool :=
  !s.pageBusy m.oldPage && !s.homeBusy (s.dies[d]).doneAt 16 &&
  [65536 * m.oldPage, 65536 * m.newPage].all fun a => (s.stackQueue a).isNone

/-- The two doublewords of a done-ring entry (R309). -/
def doneEntry (m : Migration) : List Byte :=
  leBytes 8 (m.vpage * 65536 + m.asid.toNat) ++ leBytes 8 (m.oldPage * 65536 + m.oldSpace.toNat)

/-- Steps 4 and 5 of a migration: the lines, and the done-ring entry (R310). -/
def endMigration (s : State) (d : DieId) (m : Migration) : State :=
  let r := s.dies[d]
  let s1 := (s.movePage m.oldPage m.newPage m.buf).writeRaw r.doneAt (doneEntry m)
  let s2 := s1.setDie d { r.counted true with tmdhead := r.tmdhead + 1 }
  (s2.setMigration d fun _ => none).setCmd m.seq fun y => { y with count := y.count + 1 }

/-- A die's tier manager does the next part of its first migration; the lines move once the old home is quiet and every
stack concerned is awake (R66, R310, R334). -/
def evTierMigration (d : DieId) (s : State) : Option State :=
  match s.migrations.find? (·.die == d) with
  | none => none
  | some m =>
    match m.phase with
    | .queued => beginMigration s d m
    | .shooting => none
    | .copying => if s.canMove d m then some (endMigration s d m) else none

/-- TIER_MIGRATION (R310). -/
def execTierMigration (die : DieId) (s : State) : Result := fire s (evTierMigration die s)

/-! ## cpy.tierq -/

/-- HOME of a physical address (R314). -/
def homeNumber (pa : Nat) : Nat :=
  match homeOf pa with
  | .t1 st => st.val
  | .t2 p => p.val
  | .dsm d => d.val
  | _ => 0

/-- The reply of cpy.tierq for a translation (R314). -/
def tierReply (epoch : BitVec 16) (migr : Bool) (e : TlbEntry) : Word :=
  .ofNat 64 (epoch.toNat * 2 ^ 16 + (if migr then 2 ^ 8 else 0) + homeNumber (e.ppage * 65536) * 2 ^ 4 +
    (if e.map then 4 else 0) + e.space.toNat)

/-- cpy.tierq at its start (R314). -/
def startTierq (s : State) (x : Cmd) (addr : Nat) : Option State :=
  let csr := (s.coreAt x.core).csr
  let epoch := (s.tenant csr.asid).epoch
  if !s.acquired x then none
  else match lookup s (clusterOf x.core) csr.asid csr.ptbase addr with
  | (_, .stall) => none
  | (s1, .fault _ _) => some (s1.finishCmd x.seq (.ofNat 64 (epoch.toNat * 2 ^ 16 + 2 ^ 9)))
  | (s1, .ok e) =>
    some (s1.finishCmd x.seq (tierReply epoch
      (s1.migrations.any fun m => m.phase != .queued && m.asid == csr.asid && m.vpage == addr / 65536) e))

/-- cpy.tierq (R314). -/
def execCpyTierq (_h : Hdr) (addr : BitVec 48) (s : State) : Result := startCmd s fun x => startTierq s x addr.toNat

end Sys2Proof.Machine
end

