-- ==== Sys2Proof/Machine/Flags.lean ====
section
/-! DEFINITION. The floating-point flags of instructions: the rounding mode they use, how results carry flags, and how
the flags of lanes join (spec/02 R30-R36, spec/07 R146). -/

namespace Sys2Proof.Machine

/-- The FROUND mode of a core (R30). -/
def Core.rmode (k : Core) : RMode := .of k.csr.fround

/-- The FROUND mode of the current core. -/
def State.rmode (s : State) : RMode := s.core.rmode

/-- f[d] receives a result with its flags (R98, R143, R146). -/
def finishFRes (s : State) (d : BitVec 5) (r : FRes) : Result := finishF s d (.ofNat 64 r.1) r.2

/-- g[d] receives a truth value with its flags (R143). -/
def finishCompare (s : State) (d : BitVec 5) (r : Bool × Flags) : Result := finishGF s d (ofBool r.1) r.2

/-- g[d] receives an integer with its flags, sign-extended from `w` bits (R145). -/
def finishToInt (s : State) (d : BitVec 5) (r : Int × Flags) : Result := finishGF s d (.ofInt 64 r.1) r.2

/-- Flags of two results together. -/
def joinFlags (a b : Flags) : Flags := a ||| b

/-- Flags of all lanes together (R35). -/
def unionFlags : List Flags → Flags
  | [] => 0
  | x :: xs => joinFlags x (unionFlags xs)

end Sys2Proof.Machine
end

