-- ==== Sys2Proof/Machine/Float.lean ====
section
/-! DEFINITION. Scalar floating point (spec/07 R143-R145). -/

namespace Sys2Proof.Machine

/-- fadd (R143). -/
def execFadd (d a b : BitVec 5) (p : Bool) (s : State) : Result := finishFRes s d ((fmtOf p).add s.rmode (s.fcode a p) (s.fcode b p))

/-- fsub (R143). -/
def execFsub (d a b : BitVec 5) (p : Bool) (s : State) : Result := finishFRes s d ((fmtOf p).sub s.rmode (s.fcode a p) (s.fcode b p))

/-- fmul (R143). -/
def execFmul (d a b : BitVec 5) (p : Bool) (s : State) : Result := finishFRes s d ((fmtOf p).mul s.rmode (s.fcode a p) (s.fcode b p))

/-- fdiv (R143). -/
def execFdiv (d a b : BitVec 5) (p : Bool) (s : State) : Result := finishFRes s d ((fmtOf p).div s.rmode (s.fcode a p) (s.fcode b p))

/-- fmin (R143). -/
def execFmin (d a b : BitVec 5) (p : Bool) (s : State) : Result := finishFRes s d ((fmtOf p).minMax false (s.fcode a p) (s.fcode b p))

/-- fmax (R143). -/
def execFmax (d a b : BitVec 5) (p : Bool) (s : State) : Result := finishFRes s d ((fmtOf p).minMax true (s.fcode a p) (s.fcode b p))

/-- fsqrt (R143). -/
def execFsqrt (d a : BitVec 5) (p : Bool) (s : State) : Result := finishFRes s d ((fmtOf p).sqrt s.rmode (s.fcode a p))

/-- fsgnj (R143). -/
def execFsgnj (d a b : BitVec 5) (p : Bool) (s : State) : Result :=
  finishFRes s d ((fmtOf p).signInject (s.fcode a p) ((fmtOf p).signOf (s.fcode b p)))

/-- fsgnjn (R143). -/
def execFsgnjn (d a b : BitVec 5) (p : Bool) (s : State) : Result :=
  finishFRes s d ((fmtOf p).signInject (s.fcode a p) (!(fmtOf p).signOf (s.fcode b p)))

/-- fsgnjx (R143). -/
def execFsgnjx (d a b : BitVec 5) (p : Bool) (s : State) : Result :=
  finishFRes s d ((fmtOf p).signInject (s.fcode a p) ((fmtOf p).signOf (s.fcode a p) ^^ (fmtOf p).signOf (s.fcode b p)))

/-- feq (R143). -/
def execFeq (d a b : BitVec 5) (p : Bool) (s : State) : Result := finishCompare s d ((fmtOf p).feq (s.fcode a p) (s.fcode b p))

/-- flt (R143). -/
def execFlt (d a b : BitVec 5) (p : Bool) (s : State) : Result := finishCompare s d ((fmtOf p).flt (s.fcode a p) (s.fcode b p))

/-- fle (R143). -/
def execFle (d a b : BitVec 5) (p : Bool) (s : State) : Result := finishCompare s d ((fmtOf p).fle (s.fcode a p) (s.fcode b p))

/-- fclass (R143). -/
def execFclass (d a : BitVec 5) (p : Bool) (s : State) : Result := finishG s d (.ofNat 64 ((fmtOf p).classify (s.fcode a p)))

/-- fcvt.s.d (R145). -/
def execFcvtSD (d a : BitVec 5) (s : State) : Result := finishFRes s d (fconvert fp64 fp32 s.rmode (s.fnarrow a 64))

/-- fcvt.d.s (R145). -/
def execFcvtDS (d a : BitVec 5) (s : State) : Result := finishFRes s d (fconvert fp32 fp64 s.rmode (s.fnarrow a 32))

/-- fcvt.w.s (R145). -/
def execFcvtWS (d a : BitVec 5) (s : State) : Result := finishToInt s d (fp32.toInt s.rmode 32 (s.fnarrow a 32))

/-- fcvt.l.s (R145). -/
def execFcvtLS (d a : BitVec 5) (s : State) : Result := finishToInt s d (fp32.toInt s.rmode 64 (s.fnarrow a 32))

/-- fcvt.w.d (R145). -/
def execFcvtWD (d a : BitVec 5) (s : State) : Result := finishToInt s d (fp64.toInt s.rmode 32 (s.fnarrow a 64))

/-- fcvt.l.d (R145). -/
def execFcvtLD (d a : BitVec 5) (s : State) : Result := finishToInt s d (fp64.toInt s.rmode 64 (s.fnarrow a 64))

/-- fcvt.s.w (R145). -/
def execFcvtSW (d a : BitVec 5) (s : State) : Result := finishFRes s d (fp32.ofInt s.rmode (s.gint32 a))

/-- fcvt.s.l (R145). -/
def execFcvtSL (d a : BitVec 5) (s : State) : Result := finishFRes s d (fp32.ofInt s.rmode (s.g a).toInt)

/-- fcvt.d.w (R145). -/
def execFcvtDW (d a : BitVec 5) (s : State) : Result := finishFRes s d (fp64.ofInt s.rmode (s.gint32 a))

/-- fcvt.d.l (R145). -/
def execFcvtDL (d a : BitVec 5) (s : State) : Result := finishFRes s d (fp64.ofInt s.rmode (s.g a).toInt)

/-- fmv.x (R145). -/
def execFmvX (d a : BitVec 5) (s : State) : Result := finishG s d (s.f a)

/-- fmv.f (R145). -/
def execFmvF (d a : BitVec 5) (s : State) : Result := finishF s d (s.g a) 0

/-- fcvt.bf.s (R145). -/
def execFcvtBfS (d a : BitVec 5) (s : State) : Result := finishFRes s d (fconvert fp32 bf16 s.rmode (s.fnarrow a 32))

/-- fcvt.s.bf (R145). -/
def execFcvtSBf (d a : BitVec 5) (s : State) : Result := finishFRes s d (fconvert bf16 fp32 s.rmode (s.fnarrow a 16))

/-- fcvt.e4.s (R145). -/
def execFcvtE4S (d a : BitVec 5) (s : State) : Result := finishFRes s d (fconvert fp32 e4m3 s.rmode (s.fnarrow a 32))

/-- fcvt.s.e4 (R145). -/
def execFcvtSE4 (d a : BitVec 5) (s : State) : Result := finishFRes s d (fconvert e4m3 fp32 s.rmode (s.fnarrow a 8))

/-- fcvt.e5.s (R145). -/
def execFcvtE5S (d a : BitVec 5) (s : State) : Result := finishFRes s d (fconvert fp32 e5m2 s.rmode (s.fnarrow a 32))

/-- fcvt.s.e5 (R145). -/
def execFcvtSE5 (d a : BitVec 5) (s : State) : Result := finishFRes s d (fconvert e5m2 fp32 s.rmode (s.fnarrow a 8))

/-- fmadd (R144). -/
def execFmadd (d a b c : BitVec 5) (p : Bool) (s : State) : Result :=
  finishFRes s d ((fmtOf p).fma s.rmode false false (s.fcode a p) (s.fcode b p) (s.fcode c p))

/-- fmsub (R144). -/
def execFmsub (d a b c : BitVec 5) (p : Bool) (s : State) : Result :=
  finishFRes s d ((fmtOf p).fma s.rmode false true (s.fcode a p) (s.fcode b p) (s.fcode c p))

/-- fnmadd (R144). -/
def execFnmadd (d a b c : BitVec 5) (p : Bool) (s : State) : Result :=
  finishFRes s d ((fmtOf p).fma s.rmode true true (s.fcode a p) (s.fcode b p) (s.fcode c p))

/-- fnmsub (R144). -/
def execFnmsub (d a b c : BitVec 5) (p : Bool) (s : State) : Result :=
  finishFRes s d ((fmtOf p).fma s.rmode true false (s.fcode a p) (s.fcode b p) (s.fcode c p))

end Sys2Proof.Machine
end

