-- ==== Sys2Proof/Machine/Sha3.lean ====
section
/-! DEFINITION. SHA3-256, the hash that R332 and R389 name. PRESUMED: the function of FIPS 202, which the spec names and does
not define (notes/assumptions/10). -/

namespace Sys2Proof.Machine

/-- The state of the hash: five sheets, each of five lanes; lane `y` of sheet `x` takes doubleword x + 5y of a block. -/
abbrev Sheets := List (List Word)

/-- A lane, its coordinates modulo 5. -/
def Sheets.lane (a : Sheets) (x y : Nat) : Word := (a.getD (x % 5) []).getD (y % 5) 0

/-- The sheets with one lane replaced. -/
def Sheets.put (a : Sheets) (x y : Nat) (w : Word) : Sheets := a.modify (x % 5) fun sheet => sheet.set (y % 5) w

/-- The sum of the lanes of a sheet, each column's parity a bit of it. -/
def Sheets.sum (a : Sheets) (x : Nat) : Word := (a.getD (x % 5) []).foldl (· ^^^ ·) 0

/-- Every sheet is changed by the sums of its two neighbours, that of the next one rotated by 1. -/
def Sheets.mixed (a : Sheets) : Sheets :=
  a.mapIdx fun x sheet =>
    let both := a.sum (x + 4) ^^^ (a.sum (x + 1)).rotateLeft 1
    sheet.map (both ^^^ ·)

/-- The lanes but that at (0, 0) move along their one orbit, from (x, y) to (y, 2x + 3y), and are rotated on the way by the
triangular numbers; `n` of them are still to move, the next, number `t`, from (x, y). -/
def Sheets.moved (a : Sheets) : (n t x y : Nat) → Sheets → Sheets
  | 0, _, _, _, out => out
  | n + 1, t, x, y, out =>
    let to_ := (2 * x + 3 * y) % 5
    a.moved n (t + 1) y to_ (out.put y to_ ((a.lane x y).rotateLeft (t * (t + 1) / 2 % 64)))

/-- Every lane is changed by the two lanes after it in its row, the first of them complemented. -/
def Sheets.joined (a : Sheets) : Sheets :=
  a.mapIdx fun x sheet => sheet.mapIdx fun y w => w ^^^ (a.lane (x + 2) y &&& ~~~a.lane (x + 1) y)

/-- One step of the register whose low bits make the round constants: times x, modulo x^8 + x^6 + x^5 + x^4 + 1. -/
def constantStep (r : Nat) : Nat := if r < 128 then 2 * r else (2 * r) ^^^ 0x171

/-- The constant of the round that begins with the register at `r`: `n` bits still to come, the next at place 2^j - 1;
with the register after it. -/
def roundConstant : (n j r : Nat) → Word × Nat
  | 0, _, r => (0, r)
  | n + 1, j, r =>
    let rest := roundConstant n (j + 1) (constantStep r)
    (rest.1 ||| (BitVec.ofNat 64 (r % 2) <<< (2 ^ j - 1)), rest.2)

/-- The permutation: `n` rounds from register `r` on. -/
def Sheets.permuted : (n r : Nat) → Sheets → Sheets
  | 0, _, a => a
  | n + 1, r, a =>
    let c := roundConstant 7 0 r
    let b := a.mixed
    let d := (b.moved 24 1 1 0 b).joined
    Sheets.permuted n c.2 (d.put 0 0 (d.lane 0 0 ^^^ c.1))

/-- Bytes of a block of SHA3-256. -/
def sha3Block : Nat := 136

/-- A message padded to whole blocks: suffix 01, then the pad 10*1. -/
def sha3Padded (msg : List Byte) : List Byte :=
  let free := sha3Block - msg.length % sha3Block
  if free = 1 then msg ++ [0x86] else msg ++ 0x06 :: (List.replicate (free - 2) 0 ++ [0x80])

/-- A block is added to the sheets, which are then permuted. -/
def Sheets.absorbed (a : Sheets) (block : List Byte) : Sheets :=
  Sheets.permuted 24 1 (a.mapIdx fun x sheet => sheet.mapIdx fun y w =>
    w ^^^ .ofNat 64 (leNat ((block.drop (8 * (x + 5 * y))).take 8)))

/-- `n` blocks are absorbed. -/
def Sheets.absorbAll : (n : Nat) → Sheets → List Byte → Sheets
  | 0, a, _ => a
  | n + 1, a, bs => Sheets.absorbAll n (a.absorbed (bs.take sha3Block)) (bs.drop sha3Block)

/-- SHA3-256 of a message (R332, R389, notes/assumptions/10). -/
def sha3 (msg : List Byte) : List Byte :=
  let padded := sha3Padded msg
  let a := Sheets.absorbAll (padded.length / sha3Block) (List.replicate 5 (List.replicate 5 0)) padded
  (List.range 4).flatMap fun x => leBytes 8 (a.lane x 0).toNat

end Sys2Proof.Machine
end

