-- ==== Sys2Proof/Machine/Ships.lean ====
section
/-! DEFINITION. Shipped atomics and routines: issue, performance at the home, reply (spec/19 R320-R331). -/

namespace Sys2Proof.Machine

/-! ## Atomics -/

/-- Whether x precedes old in (weight, index) order (R324): weights of a format above an index of `w` bits. -/
def wiPrecedes (F : Fmt) (w x old : Nat) : Bool :=
  let a := F.unpack (x / 2 ^ w)
  let b := F.unpack (old / 2 ^ w)
  if a.isNan then false
  else if b.isNan then true
  else a.lt b || (a.eq b && decide (x % 2 ^ w < old % 2 ^ w))

/-- The new value of an atomic of function `fn`, 0 to 11, on `w` bits (R324). -/
def amoNew (fn w old x cmp : Nat) : Nat :=
  let so := if old < 2 ^ (w - 1) then (old : Int) else old - 2 ^ w
  let sx := if x < 2 ^ (w - 1) then (x : Int) else x - 2 ^ w
  match fn with
  | 0 => (old + x) % 2 ^ w
  | 1 => if so < sx then old else x
  | 2 => if so < sx then x else old
  | 3 => x
  | 4 => if old = cmp then x else old
  | 5 => old &&& x
  | 6 => old ||| x
  | 7 => old ^^^ x
  | 8 => if wiPrecedes (if w = 64 then fp32 else bf16) (w / 2) x old then x else old
  | 9 => Nat.min old x
  | 10 => Nat.max old x
  | _ => ((if w = 64 then fp64 else fp32).add .rne old x).1

/-! ## Routines -/

/-- What a running routine holds (R331): the line, the registers, whether a store ran. -/
structure RtState where
  line : List Word
  x : List Word
  stored : Bool
  deriving DecidableEq, Repr

/-- OP of a micro-step (R331). -/
def rtOp (w : Word) : Nat := w.toNat / 2 ^ 58

/-- A three-bit field of a micro-step (R331). -/
def rtField (w : Word) (lo : Nat) : Nat := w.toNat / 2 ^ lo % 8

/-- IM of a micro-step (R331). -/
def rtImm (w : Word) : Bool := w.getLsbD 48

/-- Register `i` of a routine. -/
def RtState.reg (r : RtState) (i : Nat) : Word := r.x.getD i 0

/-- The second operand of a micro-step (R331). -/
def RtState.second (r : RtState) (w : Word) : Word :=
  if rtImm w then sext (bits w 0 32) else r.reg (rtField w 49)

/-- The value an arithmetic micro-step computes (R331). -/
def rtValue (op : Nat) (a b : Word) : Word :=
  match op with
  | 0x01 => a + b
  | 0x02 => a - b
  | 0x03 => a &&& b
  | 0x04 => a ||| b
  | 0x05 => a ^^^ b
  | 0x06 => a <<< (b.toNat % 64)
  | 0x07 => a >>> (b.toNat % 64)
  | 0x08 => .ofNat 64 (amoNew 1 64 a.toNat b.toNat 0)
  | 0x09 => .ofNat 64 (amoNew 2 64 a.toNat b.toNat 0)
  | 0x0A => .ofNat 64 (amoNew 9 64 a.toNat b.toNat 0)
  | 0x0B => .ofNat 64 (amoNew 10 64 a.toNat b.toNat 0)
  | 0x0C => .ofNat 64 (fp64.add .rne a.toNat b.toNat).1
  | _ => .ofNat 64 (fp32.add .rne (a.toNat % 2 ^ 32) (b.toNat % 2 ^ 32)).1

/-- Whether a branch micro-step is taken (R331). -/
def rtTaken (op : Nat) (a b : Word) : Bool :=
  match op with
  | 0x18 => a == b
  | 0x19 => a != b
  | 0x1A => a.ult b
  | _ => !a.ult b

/-- Runs micro-steps from `pc` on; at END the line state and the reply (R331). -/
def runSteps (steps : List Word) : (fuel pc : Nat) → RtState → RtState × Word
  | 0, _, r => (r, 0)
  | n + 1, pc, r =>
    let w := steps.getD pc 0
    let op := rtOp w
    let a := r.reg (rtField w 52)
    let b := r.second w
    let put := fun v => { r with x := r.x.set (rtField w 55) v }
    if op = 0x00 then (r, a)
    else if op = 0x10 then runSteps steps n (pc + 1) (put (r.line.getD (b.toNat % 8) 0))
    else if op = 0x11 then runSteps steps n (pc + 1) { r with line := r.line.set (b.toNat % 8) a, stored := true }
    else if op = 0x12 then runSteps steps n (pc + 1) (put (sext (bits w 0 32)))
    else if 0x18 ≤ op then
      runSteps steps n (if rtTaken op a (r.reg (rtField w 49)) then pc + 1 + w.toNat % 64 else pc + 1) r
    else runSteps steps n (pc + 1) (put (rtValue op a b))

/-- Whether micro-step `i` of a routine is invalid (R331). -/
def stepInvalid (i : Nat) (w : Word) : Bool :=
  let op := rtOp w
  let known := decide (op ≤ 0x0D) || op == 0x10 || op == 0x11 || op == 0x12 || (decide (0x18 ≤ op) && decide (op ≤ 0x1B))
  let branch := decide (0x18 ≤ op) && decide (op ≤ 0x1B)
  !known || fld w.toNat 32 16 != 0 || ((op == 0 || op == 0x11 || branch) && rtField w 55 != 0) ||
  (branch && rtImm w) || (branch && decide (63 < i + 1 + w.toNat % 64)) || (i == 63 && op != 0)

/-- The routine table's entry (R321). -/
def State.routine (s : State) (e : BitVec 8) : Option Routine := s.routines.find? (·.entry == e)

/-- Whether a routine entry is valid (R321). -/
def State.routineValid (s : State) (e : BitVec 8) : Bool := (s.routine e).any (·.valid)

/-! ## Issue -/

/-- The checks of a shipped operation before translation, in their order (R325). -/
def shipCheck (s : State) (ea : Word) (n : Nat) (rt : Option (BitVec 8)) : Option (BitVec 8 × Word) :=
  let v := ea.toNat
  if v < Config.tcmBase then some (causeNullRegion, ea)
  else if v < Config.tcmBase + Config.tcmBytes ∨ (Config.spmBase ≤ v ∧ v < Config.spmBase + Config.spmBytes) then
    some (causeShipTarget, ea)
  else if v < Config.translatedBase ∨ Config.translatedEnd ≤ v then some (causePageNotPresent, ea)
  else if v % n ≠ 0 then some (causeMisaligned, ea)
  else match rt with
  | none => none
  | some e => if e.toNat < 128 || !s.routineValid e then some (causeRoutine, zext e) else none

/-- The address of a shipped operation (R325). -/
def shipResolve (s : State) (ea : Word) (n : Nat) (rt : Option (BitVec 8)) : State × XRes Xlat :=
  match shipCheck s ea n rt with
  | some (c, x) => (s, .fault c x)
  | none => s.translated ea.toNat (if rt.isSome then .routine else .amo)

/-- The shipped operation with reply of a core at a translated address (R327). -/
def State.shipRequest (s : State) (op : BitVec 5) (d : BitVec 5) (ea x cmp : Word) (t : Xlat) : ShipOp :=
  { core := s.cur, reply := some d, op := op, pa := t.pa, va := ea, x := x, cmp := cmp, asid := s.core.csr.asid,
    epoch := t.epoch, under := s.sealFor t.buf, stamp := s.tick, result := none }

/-- A shipped operation with reply leaves, and the core waits; while it cannot leave nothing happens (R327, R334). -/
def shipOut (s : State) (op : BitVec 5) (d : BitVec 5) (ea x cmp : Word) (t : Xlat) : Result :=
  .next (((s.setCore { s.core with wait := .reply }).depart s.cur t.pa (.ship (s.shipRequest op d ea x cmp t))).getD s)

/-- A shipped operation without reply enters the store buffer (R327). -/
def shipQuiet (s : State) (op : BitVec 5) (z : BitVec 2) (ea x cmp : Word) (t : Xlat) : Result :=
  .next (s.setCore (s.core.pushStore
    { released := false, sent := false, kind := .phys, size := z, addr := t.pa, data := x, amo := some op, cmp := cmp, va := ea,
      asid := s.core.csr.asid, epoch := t.epoch, buf := t.buf })).retire

/-- An amo or ship instruction: with reply it follows a FENCE.DIE, without it needs a free entry (R58, R325, R327). -/
def shipOp (s : State) (op : BitVec 5) (z : BitVec 2) (rt : Option (BitVec 8)) (quiet : Bool) (d : BitVec 5)
    (ea x cmp : Word) : Result :=
  if (if quiet then !s.core.storeRoom else !s.core.dieFenced) then .next s
  else match shipResolve s ea (sizeBytes z) rt with
  | (s', .fault c w) => trap s' c w
  | (s', .stall) => .next s'
  | (s', .ok t) => if quiet then shipQuiet s' op z ea x cmp t else shipOut s' op d ea x cmp t

/-- An atomic of function `fn`, in its 64-bit or 32-bit form (R323, R324). -/
def amoOp (s : State) (fn : Nat) (d a b : BitVec 5) (cmp : Word) (quiet narrow : Bool) : Result :=
  shipOp s (.ofNat 5 (if narrow then fn + 16 else fn)) (if narrow then 2 else 3) none quiet d (s.g a) (s.g b) cmp

/-- amo.add (R324). -/
def execAmoAdd (d a b : BitVec 5) (n w : Bool) (s : State) : Result := amoOp s 0 d a b 0 n w

/-- amo.min (R324). -/
def execAmoMin (d a b : BitVec 5) (n w : Bool) (s : State) : Result := amoOp s 1 d a b 0 n w

/-- amo.max (R324). -/
def execAmoMax (d a b : BitVec 5) (n w : Bool) (s : State) : Result := amoOp s 2 d a b 0 n w

/-- amo.swap (R324). -/
def execAmoSwap (d a b : BitVec 5) (n w : Bool) (s : State) : Result := amoOp s 3 d a b 0 n w

/-- amo.cas (R324). -/
def execAmoCas (d a b c : BitVec 5) (n w : Bool) (s : State) : Result := amoOp s 4 d a b (s.g c) n w

/-- amo.and (R324). -/
def execAmoAnd (d a b : BitVec 5) (n w : Bool) (s : State) : Result := amoOp s 5 d a b 0 n w

/-- amo.or (R324). -/
def execAmoOr (d a b : BitVec 5) (n w : Bool) (s : State) : Result := amoOp s 6 d a b 0 n w

/-- amo.xor (R324). -/
def execAmoXor (d a b : BitVec 5) (n w : Bool) (s : State) : Result := amoOp s 7 d a b 0 n w

/-- amo.wimin (R324). -/
def execAmoWimin (d a b : BitVec 5) (n w : Bool) (s : State) : Result := amoOp s 8 d a b 0 n w

/-- amo.minu (R324). -/
def execAmoMinu (d a b : BitVec 5) (n w : Bool) (s : State) : Result := amoOp s 9 d a b 0 n w

/-- amo.maxu (R324). -/
def execAmoMaxu (d a b : BitVec 5) (n w : Bool) (s : State) : Result := amoOp s 10 d a b 0 n w

/-- amo.fadd (R324). -/
def execAmoFadd (d a b : BitVec 5) (n w : Bool) (s : State) : Result := amoOp s 11 d a b 0 n w

/-- ship (R326). -/
def execShip (d a b : BitVec 5) (n : Bool) (s : State) : Result :=
  shipOp s 31 3 (some (bits (s.g b) 56 8)) n d (s.g a) (s.g b) 0

/-! ## At the home -/

/-- Whether an operation at the home is the first unperformed one of its line (R320). -/
def firstOnLine (o : ShipOp) (before : List ShipOp) : Bool :=
  !before.any fun x => x.result.isNone && lineOf x.pa == lineOf o.pa

/-- The doublewords of the line of an address. -/
def State.lineWords (s : State) (pa : Nat) : List Word :=
  (List.range 8).map fun i => Memory.read64 s.mem (lineOf pa * 64 + 8 * i)

/-- The bytes of doublewords. -/
def wordBytes (l : List Word) : List Byte := l.flatMap fun w => leBytes 8 w.toNat

/-- An atomic on its line: the state and the old value (R324). -/
def performAmo (s : State) (o : ShipOp) : State × Word :=
  let w := if o.op.toNat < 16 then 64 else 32
  let old := s.readPhys o.pa (w / 8)
  let v := amoNew (o.op.toNat % 16) w old (o.x.toNat % 2 ^ w) (o.cmp.toNat % 2 ^ w)
  (s.storeSealed o.pa (leBytes (w / 8) v) o.under, .ofNat 64 old)

/-- A routine on its line: the state and the reply (R326, R331). -/
def performRoutine (s : State) (o : ShipOp) : State × Word :=
  let steps := ((s.routine (bits o.x 56 8)).map (·.steps)).getD []
  let start : RtState := { line := s.lineWords o.pa, stored := false,
                           x := [o.x &&& 0x00FFFFFFFFFFFFFF, .ofNat 64 (o.pa % 64), 0, 0, 0, 0, 0, 0] }
  let (r, reply) := runSteps steps 64 0 start
  (if r.stored then s.storeSealed (lineOf o.pa * 64) (wordBytes r.line) o.under else s, reply)

/-- What an operation at its home does: nothing to a line in error, else its effect; with its answer (R320, R328). -/
def performShip (s : State) (o : ShipOp) : State × ShipResult :=
  let s := s.countBuddy o.pa
  match s.lineFault o.pa o.under with
  | some cause => (s, .fault cause)
  | none =>
    let r := if o.op = 31 then performRoutine s o else performAmo s o
    (r.1, .value r.2)

/-- Operation `i` is performed; one without reply is then gone (R320). -/
def evShippedOpPerform (i : Nat) (s : State) : Option State :=
  match s.ships[i]? with
  | none => none
  | some o =>
    if o.result.isSome || !firstOnLine o (s.ships.take i) || !s.awake o.pa || s.filling o.pa then none
    else
      let r := performShip s o
      some { r.1 with ships :=
        if o.reply.isSome then r.1.ships.set i { o with result := some r.2 } else r.1.ships.eraseIdx i }

/-- SHIPPED_OP_PERFORM (R320). -/
def execShippedOpPerform (i : Nat) (s : State) : Result := fire s (evShippedOpPerform i s)

/-- Removes the shipped operation of a core that has been answered. -/
def State.dropShip (s : State) (c : CoreId) : State :=
  { s with ships := dropFirst (fun o => o.core == c && o.reply.isSome) s.ships }

/-- The reply of a shipped operation reaches its core: the value, or a precise trap (R327, R328). -/
def shipReply (s : State) (c : CoreId) : Option State :=
  (s.ships.find? (fun o => o.core == c && o.reply.isSome && o.result.isSome)).bind fun o =>
    match o.reply, o.result with
    | some d, some (.value v) => some ((s.dropShip c).setCoreAt c (((s.coreAt c).writeG d v).retire))
    | _, some (.fault cause) => some ((s.dropShip c).trapAt c cause o.va false)
    | _, _ => none

end Sys2Proof.Machine
end

