-- ==== Sys2Proof/Machine/Maps.lean ====
section
/-! DEFINITION. Hash maps in the key-addressed space, and the loading of routines (spec/20, spec/19 R332). -/

namespace Sys2Proof.Machine

/-! ## Places -/

/-- Slots per line of a map (R342). -/
def MapDesc.slots (m : MapDesc) : Nat := if m.kw then (if m.vw then 3 else 4) else (if m.vw then 4 else 7)

/-- A value of the map's width (R348). -/
def MapDesc.value (m : MapDesc) (v : Word) : Word := if m.vw then v else zext (bits v 0 32)

/-- A key of the map's width (R341, R346). -/
def MapDesc.key (m : MapDesc) (k : Word) : Word := if m.kw then k else zext (bits k 0 32)

/-- The hash h of a key (R341). -/
def MapDesc.hash (m : MapDesc) (k : Word) : Word :=
  let h := (m.key k ^^^ m.seed) * 0x9E3779B97F4A7C15
  h ^^^ (h >>> 32)

/-- The segment of a key. -/
def segOf (h : Word) : Slot := ⟨h.toNat % 8, by omega⟩

/-- The bucket of a hash in a segment, where a split in progress counts as done (R341, R350). -/
def Segment.bucket (g : Segment) (h : Word) : Nat :=
  let b := h.toNat / 8 % 2 ^ g.level
  if b < g.split || (b == g.split && g.splitting.isSome) then h.toNat / 8 % 2 ^ (g.level + 1) else b

/-- Buckets of a segment (R341, R351). -/
def Segment.buckets (g : Segment) : Nat := 2 ^ g.level + g.split + (if g.splitting.isSome then 1 else 0)

/-- The chain of a bucket outside a split. -/
def Segment.chain (g : Segment) (b : Nat) : List (Word × Word) := lookupD g.chains b []

/-- Replaces the chain of a bucket. -/
def Segment.setChain (g : Segment) (b : Nat) (l : List (Word × Word)) : Segment :=
  let others := g.chains.filter (fun x => x.1 != b)
  { g with chains := if l.isEmpty then others else (b, l) :: others }

/-- Whether a bucket takes part in the split in progress. -/
def Segment.inSplit (g : Segment) (b : Nat) : Option (Split × Bool) :=
  g.splitting.bind fun sp =>
    if b = g.split then some (sp, false) else if b = g.split + 2 ^ g.level then some (sp, true) else none

/-- What a walk meets in a bucket: during a split, the kept chain and the rest, or the moved chain (R351). -/
def Segment.walked (g : Segment) (b : Nat) : List (Word × Word) :=
  match g.inSplit b with
  | none => g.chain b
  | some (sp, moved) => if moved then sp.moved else sp.kept ++ sp.rest.flatten

/-- The two parts of a bucket's sequence: its own chain, and the rest of a split (R344). -/
def Segment.parts (g : Segment) (b : Nat) : List (Word × Word) × List (Word × Word) :=
  match g.inSplit b with
  | none => (g.chain b, [])
  | some (sp, moved) => (if moved then sp.moved else sp.kept, sp.rest.flatten)

/-- Lines of `n` entries in lines of `w` slots. -/
def lineCount (w n : Nat) : Nat := (n + w - 1) / w

/-- Lines of a chain: at least its bucket line (R342). -/
def chainLines (w n : Nat) : Nat := Nat.max 1 (lineCount w n)

/-- Entries cut into lines of `w` slots; `fuel` bounds the lines. -/
def cutLines (w : Nat) : (fuel : Nat) → List (Word × Word) → List (List (Word × Word))
  | 0, _ => []
  | f + 1, l => if l.isEmpty then [] else l.take w :: cutLines w f (l.drop w)

/-- Puts the parts of a bucket's sequence back (R344). -/
def Segment.setParts (g : Segment) (w b : Nat) (own rest : List (Word × Word)) : Segment :=
  match g.inSplit b with
  | none => g.setChain b own
  | some (sp, moved) =>
    let sp' := { sp with rest := cutLines w rest.length rest }
    { g with splitting := some (if moved then { sp' with moved := own } else { sp' with kept := own }) }

/-- The position of a key. -/
def findKey (k : Word) (l : List (Word × Word)) : Option (Nat × Word) :=
  (firstAt (fun e => e.1 == k) 0 l).map fun x => (x.1, x.2.2)

/-- The entry at a position replaced. -/
def setValue (l : List (Word × Word)) (i : Nat) (v : Word) : List (Word × Word) :=
  match l[i]? with
  | some e => l.set i (e.1, v)
  | none => l

/-- An entry removed: the last one fills the hole (R342). -/
def removeAt (l : List (Word × Word)) (i : Nat) : List (Word × Word) :=
  match l.getLast? with
  | none => l
  | some e => (l.set i e).dropLast

/-! ## Operations -/

/-- The combine function of a code: 0 add to 7 first (R348). -/
def combine (code : Nat) (w : Nat) (old x : Word) : Word :=
  let a := BitVec.ofNat w old.toNat
  let b := BitVec.ofNat w x.toNat
  let less := a.slt b
  match code with
  | 0 => zext (a + b)
  | 1 => zext (if less then a else b)
  | 2 => zext (if less then b else a)
  | 3 => old ||| x
  | 4 => old &&& x
  | 5 => old ^^^ x
  | 6 => x
  | _ => old

/-- Bits of a map's values. -/
def MapDesc.valueBits (m : MapDesc) : Nat := if m.vw then 64 else 32

/-- The status word (R349). -/
def mapStatus (code lines : Nat) : Word := .ofNat 64 (Nat.min lines 255 * 256 + code)

/-- The combine code that an operation uses: the map's for mins, its own for mups (R348). -/
def MapDesc.opCode (m : MapDesc) (fn : Nat) : Nat := if fn = 1 then m.comb.toNat else fn - 2

/-- After an insert, one more split is pending where the segment is too full (R343). -/
def Segment.grown (g : Segment) (m : MapDesc) : Segment :=
  let n := 2 ^ g.level + g.split
  if n * m.slots * 6 < g.count * 8 && decide (n + g.pending < 2 ^ m.lmax) then { g with pending := g.pending + 1 } else g

/-- Inserts an absent key at the end of its own chain; none when a line is needed and the pool is empty (R342, R344). -/
def Segment.insert (g : Segment) (m : MapDesc) (b : Nat) (k v : Word) : Option Segment :=
  let p := g.parts b
  let needs := p.1.length != 0 && p.1.length % m.slots == 0
  if needs && g.pool = 0 then none
  else
    let g' := g.setParts m.slots b (p.1 ++ [(k, v)]) p.2
    some ({ g' with count := g'.count + 1, pool := if needs then g'.pool - 1 else g'.pool }.grown m)

/-- Removes the entry at a position of one part of a bucket's sequence; an emptied overflow line returns to the pool
(R342, R344). -/
def Segment.remove (g : Segment) (m : MapDesc) (b i : Nat) (inRest : Bool) : Segment :=
  let p := g.parts b
  let n := (if inRest then p.2.length else p.1.length) - 1
  let frees := n % m.slots == 0 && (inRest || n != 0)
  let g' := if inRest then g.setParts m.slots b p.1 (removeAt p.2 i) else g.setParts m.slots b (removeAt p.1 i) p.2
  { g' with count := g'.count - 1, pool := if frees then g'.pool + 1 else g'.pool }

/-- Where a key lies in a bucket's sequence: its part, its position there, its value, and the line (R342, R349). -/
structure Hit where
  inRest : Bool
  pos : Nat
  value : Word
  line : Nat

/-- Searches the sequence of a bucket (R344). -/
def Segment.find (g : Segment) (m : MapDesc) (b : Nat) (k : Word) : Option Hit :=
  let p := g.parts b
  match findKey k p.1 with
  | some (i, v) => some { inRest := false, pos := i, value := v, line := i / m.slots }
  | none =>
    (findKey k p.2).map fun x =>
      { inRest := true, pos := x.1, value := x.2, line := chainLines m.slots p.1.length + x.1 / m.slots }

/-- Lines of a bucket's sequence (R349). -/
def Segment.lines (g : Segment) (m : MapDesc) (b : Nat) : Nat :=
  let p := g.parts b
  chainLines m.slots p.1.length + lineCount m.slots p.2.length

/-- The last line of the part in which a hit lies. -/
def Segment.lastLine (g : Segment) (m : MapDesc) (b : Nat) (h : Hit) : Nat :=
  let p := g.parts b
  if h.inRest then chainLines m.slots p.1.length + lineCount m.slots p.2.length - 1 else chainLines m.slots p.1.length - 1

/-- Lines that a hit reads; a removal also counts the line that fills the hole (R349, notes/assumptions/21). -/
def hitLines (g : Segment) (m : MapDesc) (b : Nat) (h : Hit) (removes : Bool) : Nat :=
  h.line + 1 + (if removes && decide (h.line < g.lastLine m b h) then 1 else 0)

/-- A hit's new value in its part. -/
def Segment.put (g : Segment) (m : MapDesc) (b : Nat) (h : Hit) (v : Word) : Segment :=
  let p := g.parts b
  if h.inRest then g.setParts m.slots b p.1 (setValue p.2 h.pos v) else g.setParts m.slots b (setValue p.1 h.pos v) p.2

/-- mprb, mins, mups and mrem on a segment: the segment after it, the old value and the status (R348, R349). -/
def Segment.operate (g : Segment) (m : MapDesc) (fn : Nat) (k x : Word) : Segment × Word × Word :=
  let key := m.key k
  let v := m.value x
  let b := g.bucket (m.hash k)
  match g.find m b key with
  | some h =>
    let st := mapStatus 0 (hitLines g m b h (fn == 10))
    if fn = 0 then (g, h.value, st)
    else if fn = 10 then (g.remove m b h.pos h.inRest, h.value, st)
    else (g.put m b h (combine (m.opCode fn) m.valueBits h.value v), h.value, st)
  | none =>
    let n := g.lines m b
    if fn = 0 || fn = 10 then (g, m.dflt, mapStatus 1 n)
    else match g.insert m b key v with
    | none => (g, m.dflt, mapStatus 3 n)
    | some g' => (g', m.dflt, mapStatus 1 n)

/-! ## MITER -/

/-- A cursor out (R351). -/
def cursorOf (found : Bool) (seg bkt pos : Nat) : Word :=
  .ofNat 64 ((if found then 2 ^ 63 else 0) + seg * 2 ^ 48 + bkt * 2 ^ 16 + pos)

/-- What a walk of one segment gives: an entry with the place after it, the next bucket where the 256 are spent, or
the end of the segment with the buckets scanned. -/
inductive Walk where
  | entry (k v : Word) (bkt pos : Nat)
  | spent (bkt : Nat)
  | passed (scanned : Nat)

/-- Walks buckets from a position on; `left` buckets of the 256 remain (R351). -/
def Segment.walk (g : Segment) : (left bkt pos : Nat) → Walk
  | 0, bkt, _ => if g.buckets ≤ bkt then .passed 256 else .spent bkt
  | left + 1, bkt, pos =>
    if g.buckets ≤ bkt then .passed (256 - (left + 1))
    else match (g.walked bkt)[pos]? with
      | some e => .entry e.1 e.2 bkt (pos + 1)
      | none => g.walk left (bkt + 1) 0

/-- The answer of an end cursor (R351). -/
def miterEnd : MapResult := .pair 0 0 (some (cursorOf false 8 0 0))

/-- MITER at the agent of its cursor's segment: an answer, or the operation with its cursor at the next segment (R351).
A cursor past segment 8 counts as the end (notes/assumptions/35). -/
def miterStep (m : MapDesc) (o : MapOp) : MapOp :=
  let seg := fld o.cursor.toNat 48 4
  if h : seg < 8 then
    match (m.segs[seg]).walk (256 - o.scanned) (fld o.cursor.toNat 16 32) (fld o.cursor.toNat 0 16) with
    | .entry k v bkt pos => { o with result := some (.pair k v (some (cursorOf true seg bkt pos))) }
    | .spent bkt => { o with result := some (.pair 0 0 (some (cursorOf false seg bkt 0))) }
    | .passed n =>
      if seg = 7 then { o with result := some miterEnd }
      else if 256 ≤ n then { o with result := some (.pair 0 0 (some (cursorOf false (seg + 1) 0 0))) }
      else { o with cursor := cursorOf false (seg + 1) 0 0, scanned := n }
  else { o with result := some miterEnd }

/-! ## Agents -/

/-- The map of an operation: the one that its handle named when the header agent took it (R340). -/
def State.mapOf (s : State) (o : MapOp) : Option MapDesc :=
  s.maps.find? fun m => m.asid == o.asid && m.handle == o.handle && m.base == o.base

/-- Replaces a map. -/
def State.setMap (s : State) (m : MapDesc) : State :=
  { s with maps := replaceFirst (fun x => x.asid == m.asid && x.handle == m.handle) (fun _ => m) s.maps }

/-- The segment whose agent an operation is at; none at the header agent. -/
def MapOp.segment (o : MapOp) (m : MapDesc) : Option Slot :=
  if o.fn = 12 then
    let seg := fld o.cursor.toNat 48 4
    if h : seg < 8 then some ⟨seg, h⟩ else none
  else some (segOf (m.hash o.key))

/-- An agent: its stack, and the address bits 17:16 that it serves (R320, R336). -/
def agentOf (pa : Nat) : Option StackId × Nat :=
  (match homeOf pa with
    | .t1 st => some st
    | _ => none, pa / 65536 % 4)

/-- The physical address of a segment's first page. -/
def MapDesc.segPlace (m : MapDesc) (g : Slot) : Nat := m.frames.getD (g.val * m.zpg) 0 * 65536

/-- The place whose agent an operation is at. -/
def MapOp.place (o : MapOp) (m : MapDesc) : Nat :=
  match o.segment m with
  | some g => m.segPlace g
  | none => m.header

/-- Whether an unanswered operation of a list is at an agent. -/
def State.opAt (s : State) (l : List MapOp) (a : Option StackId × Nat) : Bool :=
  l.any fun o => o.result.isNone && (s.mapOf o).any fun m => agentOf (o.place m) == a

/-! ## The lines of a segment -/

/-- How many lines of a segment something holds for. -/
inductive Extent where
  | none
  | some
  | all
  deriving DecidableEq, Repr

/-- The extent of parts. -/
def Extent.of (l : List Bool) : Extent := if !l.any id then .none else if l.all id then .all else .some

/-- Whether what an agent reads meets a line of an extent. Which lines an operation reads is not architected, so where
only some are of the kind the answer is a free value (R342, notes/assumptions/71). -/
def Extent.met (e : Extent) (tick kind : Nat) : Bool :=
  match e with
  | .none => false
  | .some => Config.mapMeets tick kind
  | .all => true

/-- The first lines of a segment's eight channels (R336, R395). -/
def MapDesc.channelLines (m : MapDesc) (g : Slot) : List Nat := (List.range 8).map fun i => m.segPlace g + 1024 * i

/-- Whether a line lies in a segment. -/
def MapDesc.holdsLine (m : MapDesc) (g : Slot) (l : Nat) : Bool :=
  ((m.frames.drop (g.val * m.zpg)).take m.zpg).contains (l / 1024)

/-- Lines of a segment beyond correction: all where its frames are withdrawn, which lie in one agent, else marked ones
(R336, R390). -/
def State.segBad (s : State) (m : MapDesc) (g : Slot) : Extent :=
  if s.frameWithdrawn (m.segPlace g) then .all else if s.poison.any (m.holdsLine g) then .some else .none

/-- Lines of a segment under other seals than an operation expects (R386, R387). -/
def MapDesc.stale (m : MapDesc) (under : List Seal) (g : Slot) : Extent :=
  .of ((m.seals.filter (·.1 == g)).map fun e => !under.contains e.2)

/-- The fault that an operation or split step meets in a segment: a line in error, then one whose MAC fails (R387, R390,
notes/assumptions/71). -/
def State.segFault (s : State) (m : MapDesc) (under : List Seal) (g : Slot) : Option (BitVec 8) :=
  if (s.segBad m g).met s.tick 0 then some causeDataError
  else if (m.stale under g).met s.tick 1 then some causeMacFail
  else none

/-- The accesses to a segment that go through a buddy controller are counted: a free value (R390,
notes/assumptions/71). -/
def State.countSegment (s : State) (m : MapDesc) (g : Slot) : State :=
  if (m.channelLines g).any s.byBuddy then { s with affmiss := s.affmiss + Config.mapBuddies s.tick } else s

/-- The writes of a new map's descriptor and segment states that go through a buddy controller are counted: a free value
(R339, R390, notes/assumptions/71). -/
def State.countMap (s : State) (m : MapDesc) : State :=
  if (List.finRange 8).any fun (g : Slot) => (m.channelLines g).any s.byBuddy then
    { s with affmiss := s.affmiss + Config.mapBuddies s.tick }
  else s

/-- An operation on a segment's lines: it faults on them, or goes on as `go` says (R387, R390). -/
def onSegment (s : State) (m : MapDesc) (o : MapOp) (g : Slot) (go : State × MapOp) : State × MapOp :=
  match s.segFault m o.under g with
  | some c => (s.countSegment m g, { o with result := some (.fault c) })
  | none => (go.1.countSegment m g, go.2)

/-- What an agent does with an operation: the maps after it, and the operation (R348, R350, R351). -/
def performMap (s : State) (m : MapDesc) (o : MapOp) : State × MapOp :=
  if o.fn = 12 then
    match o.segment m with
    | none => (s, miterStep m o)
    | some g => onSegment s m o g (s, miterStep m o)
  else
    let h := m.hash o.key
    let g := m.segs[segOf h]
    if o.fn = 11 then (s, { o with result := some (.pair (.ofNat 64 (g.bucket h * 8 + (segOf h).val)) h none) })
    else
      let r := g.operate m o.fn.toNat o.key o.operand
      onSegment s m o (segOf h) (s.setMap { m with segs := m.segs.set (segOf h).val r.1 (segOf h).isLt },
        { o with result := some (.pair r.2.1 r.2.2 none) })

/-- Operation `i` is performed whole, the first of its agent; a MITER that passes on joins the end of the next agent's
queue (R351, R353). -/
def evMapOpPerform (i : Nat) (s : State) : Option State :=
  match s.mapOps[i]? with
  | none => none
  | some o =>
    match s.mapOf o with
    | none => none
    | some m =>
      if o.result.isSome || !s.awake (o.place m) || s.opAt (s.mapOps.take i) (agentOf (o.place m)) then none
      else
        let r := performMap s m o
        some { r.1 with mapOps :=
          if r.2.result.isSome then r.1.mapOps.set i r.2 else r.1.mapOps.eraseIdx i ++ [r.2] }

/-- MAP_OP_PERFORM (R353). -/
def execMapOpPerform (i : Nat) (s : State) : Result := fire s (evMapOpPerform i s)

/-! ## Splits -/

/-- Overflow lines that a split holds: the kept chain and the rest less the bucket line, and the moved chain less its
own (R344). -/
def Split.overflow (sp : Split) (w : Nat) : Nat :=
  chainLines w sp.kept.length + sp.rest.length - 1 + (chainLines w sp.moved.length - 1)

/-- The split in progress, or the one that starts; before its first step the whole chain is the rest (R344). -/
def Segment.beginSplit (g : Segment) (m : MapDesc) : Split × Nat :=
  match g.splitting with
  | some sp => (sp, sp.overflow m.slots)
  | none =>
    let c := g.chain g.split
    ({ kept := [], moved := [], rest := if c.isEmpty then [[]] else cutLines m.slots c.length c },
     chainLines m.slots c.length - 1)

/-- One old line moves over (R344). -/
def Split.step (sp : Split) (m : MapDesc) (level : Nat) : Split :=
  let up := fun (e : Word × Word) => (m.hash e.1).toNat / 8 / 2 ^ level % 2 == 1
  match sp.rest with
  | [] => sp
  | l :: ls => { kept := sp.kept ++ l.filter (fun e => !up e), moved := sp.moved ++ l.filter up, rest := ls }

/-- A segment whose split is done (R343). -/
def Segment.endSplit (g : Segment) (sp : Split) : Segment :=
  let g' := (g.setChain g.split sp.kept).setChain (g.split + 2 ^ g.level) sp.moved
  let up := g.split + 1 = 2 ^ g.level
  { g' with splitting := none, pending := g.pending - 1,
            split := if up then 0 else g.split + 1, level := if up then g.level + 1 else g.level }

/-- A split step of a segment; it waits for an overflow line while the pool is empty (R344). -/
def Segment.splitStep (g : Segment) (m : MapDesc) : Option Segment :=
  if g.pending = 0 && g.splitting.isNone then none
  else
    let (sp, before) := g.beginSplit m
    let sp' := sp.step m g.level
    let after := sp'.overflow m.slots
    if g.pool + before < after then none
    else
      let g' := { g.setChain g.split [] with pool := g.pool + before - after }
      some (if sp'.rest.isEmpty then g'.endSplit sp' else { g' with splitting := some sp' })

/-- Whether a map or shipped operation waits at an agent, in the queue of its stack too (R334, R345). -/
def State.agentBusy (s : State) (a : Option StackId × Nat) : Bool :=
  s.opAt s.mapOps a || s.ships.any (fun o => o.result.isNone && agentOf o.pa == a) ||
  s.transit.any fun t => match t.queue, t.item with
    | .stack _, .map o => o.result.isNone && (agentOf o.pa == a || s.opAt [o] a)
    | .stack _, .ship o => agentOf o.pa == a
    | _, _ => false

/-- An agent with nothing waiting takes a split step; one that meets a line in error, or whose MAC fails, waits (R345,
R387, R390, notes/assumptions/71). -/
def evSplitStep (asid : BitVec 12) (handle : BitVec 10) (seg : BitVec 3) (s : State) : Option State :=
  match s.maps.find? (fun m => m.asid == asid && m.handle == handle && m.live) with
  | none => none
  | some m =>
    let g : Slot := seg.toFin
    let a := agentOf (m.segPlace g)
    if s.agentBusy a || !s.awake (m.segPlace g) || (s.segFault m (s.mapSeals m) g).isSome then none
    else ((m.segs[g]).splitStep m).map fun g' => (s.setMap { m with segs := m.segs.set g.val g' g.isLt }).countSegment m g

/-- SPLIT_STEP (R345). -/
def execSplitStep (asid : BitVec 12) (handle : BitVec 10) (seg : BitVec 3) (s : State) : Result :=
  fire s (evSplitStep asid handle seg s)

/-! ## agt.mapnew, agt.mapdel -/

/-- The fields of an agt.mapnew. -/
structure NewMap where
  base : BitVec 48
  zpg : Nat
  dflt : Word
  seed : Word
  l0 : Nat
  lmax : Nat
  kw : Bool
  vw : Bool
  comb : BitVec 3

/-- Whether a page may be page `i` of a region, given the first frame of its segment (R336). -/
def regionPage (l : Leaf) (seg : Nat) (first : Nat) : Bool :=
  l.level == 3 && l.map && l.space == 0 && l.read && l.write && homeOf l.page == .t1 ⟨seg % 8, by omega⟩ &&
  l.page / 65536 % 4 == first % 4

/-- Walks the pages of a region from page `i` on, with the frames and buffers before it (R339). -/
def walkRegion (s : State) (asid : BitVec 12) (ptbase : Word) (n : NewMap) :
    (fuel i : Nat) → List (Nat × BitVec 12) → State × XRes (List (Nat × BitVec 12))
  | 0, _, fs => (s, .ok fs)
  | f + 1, i, fs =>
    let va := n.base.toNat + i * 65536
    if Config.translatedEnd ≤ va then (s, .fault causePageNotPresent (.ofNat 64 va))
    else match walk s asid ptbase va with
    | (s1, .stall) => (s1, .stall)
    | (s1, .fault c x) => (s1, .fault c x)
    | (s1, .ok l) =>
      let frame := l.page / 65536
      let first := if i % n.zpg = 0 then frame else ((fs[i / n.zpg * n.zpg]?).map (·.1)).getD 0
      if regionPage l (i / n.zpg) first then walkRegion s1 asid ptbase n f (i + 1) (fs ++ [(frame, l.buf)])
      else (s1, .fault causePagePermission (.ofNat 64 va))

/-- Live maps of the package (R337). -/
def State.liveMaps (s : State) : Nat := (s.maps.filter (·.live)).length

/-- The lowest free handle of a tenant (R339, R340). -/
def State.freeHandle (s : State) (asid : BitVec 12) : Option Nat :=
  (List.range 1024).find? fun h => !s.maps.any (fun m => m.asid == asid && m.handle.toNat == h)

/-- A segment of a new map (R339). -/
def newSegment (n : NewMap) : Segment :=
  { level := n.l0, split := 0, count := 0, pending := 0, pool := 1024 * n.zpg - 2 ^ n.lmax - 1, chains := [],
    splitting := none }

/-- The seals of a region's pages, each once with its segment (R336, R387). -/
def regionSeals (s : State) (zpg : Nat) (l : List (Nat × BitVec 12)) : List (Slot × Seal) :=
  (((List.range l.length).zip l).map fun (i, f) => ((⟨i / zpg % 8, by omega⟩ : Slot), s.sealFor f.2)).eraseDups

/-- A new map over frames, its descriptor not yet written (R339). -/
def newMap (n : NewMap) (asid : BitVec 12) (h seq : Nat) (frames : List Nat) (seals : List (Slot × Seal)) : MapDesc :=
  { asid := asid, handle := .ofNat 10 h, base := n.base, zpg := n.zpg, dflt := n.dflt, seed := n.seed, lmax := n.lmax,
    kw := n.kw, vw := n.vw, comb := n.comb, live := true, written := false, maker := seq,
    header := frames.headD 0 * 65536, frames := frames, seals := seals, segs := .replicate 8 (newSegment n) }

/-- A walked region becomes a map, or the reply says why not (R339). -/
def createMap (s : State) (x : Cmd) (n : NewMap) (asid : BitVec 12) (pages : List (Nat × BitVec 12)) : State :=
  let frames := pages.map (·.1)
  if s.maps.any fun m => m.live && m.frames.any frames.contains then s.finishCmd x.seq (-2)
  else match s.freeHandle asid with
  | none => s.finishCmd x.seq (-1)
  | some h =>
    if 16384 ≤ s.liveMaps then s.finishCmd x.seq (-1)
    else { s with maps := s.maps ++ [newMap n asid h x.seq frames (regionSeals s n.zpg pages)] }.finishCmd x.seq (.ofNat 64 h)

/-- agt.mapnew at its start (R339). -/
def startMapnew (s : State) (x : Cmd) (n : NewMap) : Option State :=
  let csr := (s.coreAt x.core).csr
  if !s.acquired x then none
  else match walkRegion s csr.asid csr.ptbase n (8 * n.zpg) 0 [] with
  | (_, .stall) => none
  | (s1, .fault c a) => some (s1.faultCmd x.seq c a)
  | (s1, .ok pages) => some (createMap s1 x n csr.asid pages)

/-- agt.mapnew (R338, R339). -/
def execAgtMapnew (_h : Hdr) (base : BitVec 48) (zpg : BitVec 16) (default seed : BitVec 64) (l0 lmax : BitVec 5)
    (kw vw : Bool) (comb : BitVec 3) (s : State) : Result :=
  startCmd s fun x => startMapnew s x
    { base := base, zpg := zpg.toNat, dflt := default, seed := seed, l0 := l0.toNat, lmax := lmax.toNat, kw := kw,
      vw := vw, comb := comb }

/-- The descriptor and the segment states of a new map are written at its header agent, and its handle is in force
(R339, R390). -/
def State.writeMap (s : State) (asid : BitVec 12) (h : BitVec 10) : State :=
  match s.maps.find? (fun m => m.asid == asid && m.handle == h) with
  | some m => if s.awake m.header && !m.written then (s.setMap { m with written := true }).countMap m else s
  | none => s

/-- agt.mapdel at its start: the header agent, awake and with nothing queued before it, takes the map out of service, or
there is none in force (R334, R340). -/
def startMapdel (s : State) (x : Cmd) (h : BitVec 10) : Option State :=
  let asid := (s.coreAt x.core).csr.asid
  if !s.acquired x then none
  else match s.maps.find? (fun m => m.asid == asid && m.handle == h && m.live && m.written) with
  | none => some (s.finishCmd x.seq 1)
  | some m => if (s.stackQueue m.header).isNone then some ((s.setMap { m with live := false }).runCmd x.seq) else none

/-- agt.mapdel (R340). -/
def execAgtMapdel (_h : Hdr) (handle : BitVec 10) (s : State) : Result := startCmd s fun x => startMapdel s x handle

/-- The bytes of a frame become undefined, and a tenant can read them (R6, R340, notes/assumptions/24). -/
def State.undefFrame (s : State) (frame : Nat) : State :=
  let bs := (List.range 65536).map fun i => Config.undefByte s.tick (frame * 65536 + i)
  { s with mem := Memory.splice s.mem (frame * 65536) bs,
           seals := s.seals.filter fun (x : Nat × Option Seal) => x.1 / 1024 != frame,
           poison := s.poison.filter (fun l => l / 1024 != frame) }

/-- Whether an operation on a handle waits at an agent (R340). -/
def State.mapQueued (s : State) (asid : BitVec 12) (h : BitVec 10) : Bool :=
  s.mapOps.any fun o => o.result.isNone && o.asid == asid && o.handle == h

/-- With no operation left on it, a deleted map's handle is freed (R340). -/
def evMapdelComplete (seq : Nat) (s : State) : Option State :=
  (s.cmd seq).bind fun x =>
    match decodeCommand .agt x.word with
    | .ok (.agtMapdel _ h) =>
      let asid := (s.coreAt x.core).csr.asid
      if x.phase ≠ .running then none
      else (s.maps.find? fun m => m.asid == asid && m.handle == h).bind fun m =>
        if s.mapQueued asid h then none
        else
          let s1 := { s with maps := s.maps.filter fun y => !(y.asid == asid && y.handle == h) }
          some ((m.frames.foldl (fun st f => st.undefFrame f) s1).finishCmd seq 0)
    | _ => none

/-- MAPDEL_COMPLETE (R340). -/
def execMapdelComplete (seq : Nat) (s : State) : Result := fire s (evMapdelComplete seq s)

/-! ## Map instructions -/

/-- The checks of a map instruction before its walk (R347 steps 1 and 2). -/
def mapCheck (base : Nat) : Option (BitVec 8) :=
  if base < Config.tcmBase then some causeNullRegion
  else if base < Config.tcmBase + Config.tcmBytes ∨ (Config.spmBase ≤ base ∧ base < Config.spmBase + Config.spmBytes) then
    some causeShipTarget
  else if base < Config.translatedBase then some causePageNotPresent
  else if base % 65536 ≠ 0 then some causeMisaligned
  else none

/-- The operation of a map instruction for the header agent of a translated region (R346, R353). -/
def State.mapRequest (s : State) (fn : BitVec 6) (d a b c : BitVec 5) (t : Xlat) : MapOp :=
  let asid := s.core.csr.asid
  let base := bits (s.g a) 0 48
  let handle := bits (s.g a) 48 10
  { core := s.cur, pa := t.pa, fn := fn, d := d, c := c, base := base, handle := handle, asid := asid, epoch := t.epoch,
    buf := t.buf, under := ((s.liveMap asid handle base).map s.mapSeals).getD [], stamp := s.tick,
    key := s.g b, operand := s.g c, cursor := s.g b, scanned := 0, result := none }

/-- A map instruction follows a FENCE.DIE, is checked, and leaves for the header agent; the core waits, and while it
cannot leave nothing happens (R334, R347, R353). -/
def mapOp (s : State) (fn : BitVec 6) (d a b c : BitVec 5) (write : Bool) : Result :=
  let ref := s.g a
  let base := bits ref 0 48
  if !s.core.dieFenced then .next s
  else match mapCheck base.toNat with
  | some cause => trap s cause (zext base)
  | none =>
    match s.translated base.toNat (if write then .mapWrite else .mapRead) with
    | (s', .fault cause x) => trap s' cause x
    | (s', .stall) => .next s'
    | (s', .ok t) =>
      .next (((s'.setCore { s'.core with wait := .reply }).depart s.cur t.pa (.map (s.mapRequest fn d a b c t))).getD s')

/-- mprb (R348). -/
def execMprb (d a b : BitVec 5) (s : State) : Result := mapOp s 0 d a b 0 false

/-- mins (R348). -/
def execMins (d a b c : BitVec 5) (s : State) : Result := mapOp s 1 d a b c true

/-- mups.add (R348). -/
def execMupsAdd (d a b c : BitVec 5) (s : State) : Result := mapOp s 2 d a b c true

/-- mups.min (R348). -/
def execMupsMin (d a b c : BitVec 5) (s : State) : Result := mapOp s 3 d a b c true

/-- mups.max (R348). -/
def execMupsMax (d a b c : BitVec 5) (s : State) : Result := mapOp s 4 d a b c true

/-- mups.or (R348). -/
def execMupsOr (d a b c : BitVec 5) (s : State) : Result := mapOp s 5 d a b c true

/-- mups.and (R348). -/
def execMupsAnd (d a b c : BitVec 5) (s : State) : Result := mapOp s 6 d a b c true

/-- mups.xor (R348). -/
def execMupsXor (d a b c : BitVec 5) (s : State) : Result := mapOp s 7 d a b c true

/-- mups.replace (R348). -/
def execMupsReplace (d a b c : BitVec 5) (s : State) : Result := mapOp s 8 d a b c true

/-- mups.first (R348). -/
def execMupsFirst (d a b c : BitVec 5) (s : State) : Result := mapOp s 9 d a b c true

/-- mrem (R348). -/
def execMrem (d a b : BitVec 5) (s : State) : Result := mapOp s 10 d a b 0 true

/-- mhash (R350). -/
def execMhash (d a b : BitVec 5) (s : State) : Result := mapOp s 11 d a b 0 false

/-- miter (R351). -/
def execMiter (d a b c : BitVec 5) (s : State) : Result := mapOp s 12 d a b c false

/-- Removes a core's answered map operation. -/
def State.dropMapOp (s : State) (c : CoreId) : State :=
  { s with mapOps := dropFirst (fun o => o.core == c && o.result.isSome) s.mapOps }

/-- The reply of a map operation reaches its core: the pair, and a cursor for MITER, or MAP_HANDLE, or a fault of the lines
read, with the region's base (R347-R351, R387, R390, notes/assumptions/71). -/
def mapReply (s : State) (c : CoreId) : Option State :=
  (s.mapOps.find? (fun o => o.core == c && o.result.isSome)).bind fun o =>
    match o.result with
    | some (.pair x y cur) =>
      let k := ((s.coreAt c).writeG o.d x).writeG (o.d + 1) y
      some ((s.dropMapOp c).setCoreAt c (match cur with
        | none => k
        | some v => k.writeG o.c v).retire)
    | some .badHandle => some ((s.dropMapOp c).trapAt c causeMapHandle (zext o.handle) false)
    | some (.fault cause) => some ((s.dropMapOp c).trapAt c cause (zext o.base) false)
    | none => none

/-- The reply of a shipped or map operation reaches its core (R327, R353). -/
def evShippedReply (c : CoreId) (s : State) : Option State := (shipReply s c).or (mapReply s c)

/-- SHIPPED_REPLY (R327). -/
def execShippedReply (c : CoreId) (s : State) : Result := fire s (evShippedReply c s)

/-! ## agt.rtload -/

/-- Bytes of a routine (R331). -/
def routineBytes : Nat := 512

/-- The first invalid micro-step of an image, as routine and step (R331, R332). -/
def firstInvalid (l : List Byte) (count : Nat) : Option (Nat × Nat) :=
  ((List.range (count * 64)).find? fun i => stepInvalid (i % 64) (.ofNat 64 (leNat ((l.drop (8 * i)).take 8)))).map
    fun i => (i / 64, i % 64)

/-- The hash that a routine image's signature is made over (R332). DESIGN CHOICE: FIRST and COUNT enter it as a byte each
(notes/assumptions/10). -/
def imageHash (first count : Nat) (steps : List Byte) : List Byte :=
  sha3 (.ofNat 8 first :: .ofNat 8 count :: steps)

/-- Whether a routine entry is among those of a command. -/
def inEntries (first count : Nat) (e : BitVec 8) : Bool := decide (first ≤ e.toNat) && decide (e.toNat < first + count)

/-- A read image is checked; then the entries' valid bits clear (R332). -/
def checkImage (s : State) (x : Cmd) (first count : Nat) (image : List Byte) : State :=
  let steps := image.take (count * routineBytes)
  if !Config.signatureHolds (imageHash first count steps) (image.drop (count * routineBytes)) then
    s.faultCmd x.seq causeRoutine (.ofNat 64 (2 * 256 + first))
  else match firstInvalid steps count with
  | some (r, i) => s.faultCmd x.seq causeRoutine (.ofNat 64 (i * 65536 + 3 * 256 + (first + r)))
  | none =>
    { s with routines := s.routines.map (fun (r : Routine) => if inEntries first count r.entry then { r with valid := false } else r)
      }.setCmd x.seq fun y => { y with phase := .running, got := [(0, 0, steps)] }

/-- agt.rtload at its start (R332). -/
def startRtload (s : State) (x : Cmd) (src first count : Nat) : Option State :=
  let n := count * routineBytes + 2420
  if !s.acquired x then none
  else if (s.coreAt x.core).csr.kstate.priv = .user then
    some (s.faultCmd x.seq causeRoutine (.ofNat 64 (1 * 256 + first)))
  else if src < Config.translatedBase then some (s.faultCmd x.seq causePageNotPresent (.ofNat 64 src))
  else (copyReads s x true false (n / 32 + 1) src n).next x.seq fun s1 image => some (checkImage s1 x first count image)

/-- agt.rtload (R332). -/
def execAgtRtload (_h : Hdr) (src : BitVec 48) (first count : BitVec 8) (s : State) : Result :=
  startCmd s fun x => startRtload s x src.toNat first.toNat count.toNat

/-- Whether a shipped operation on some entries is queued anywhere (R332). -/
def State.routineQueued (s : State) (first count : Nat) : Bool :=
  let uses := fun (op : BitVec 5) (x : Word) => op == 31 && inEntries first count (bits x 56 8)
  s.ships.any (fun o => o.result.isNone && uses o.op o.x) ||
  s.transit.any (fun t => match t.item with
    | .ship o => uses o.op o.x
    | _ => false) ||
  s.cores.any (fun k => k.stores.any fun e => e.amo.any (fun op => uses op e.data))

/-- The routines of an image, from entry `e` on (R331). -/
def routinesOf : (fuel e : Nat) → List Byte → List Routine
  | 0, _, _ => []
  | f + 1, e, l =>
    { entry := .ofNat 8 e, valid := true,
      steps := (List.range 64).map fun i => .ofNat 64 (leNat ((l.drop (8 * i)).take 8)) } ::
    routinesOf f (e + 1) (l.drop routineBytes)

/-- The routine table is written, and its entries valid, once nothing uses them (R332). -/
def evRtloadTableWrite (seq : Nat) (s : State) : Option State :=
  (s.cmd seq).bind fun x =>
    match decodeCommand .agt x.word with
    | .ok (.agtRtload _ _ first count) =>
      if x.phase ≠ .running || s.routineQueued first.toNat count.toNat then none
      else
        let image := ((x.got.head?).map (·.2.2)).getD []
        some ({ s with routines := s.routines.filter (fun (r : Routine) => !inEntries first.toNat count.toNat r.entry) ++
                                     routinesOf count.toNat first.toNat image }.finishCmd seq 0)
    | _ => none

/-- RTLOAD_TABLE_WRITE (R332). -/
def execRtloadTableWrite (seq : Nat) (s : State) : Result := fire s (evRtloadTableWrite seq s)

end Sys2Proof.Machine
end

