-- ==== Sys2Proof/Machine/Launch.lean ====
section
/-! DEFINITION. Launch packets, GRID, the placement of teams and the start of their threads (spec/22 R362-R372). -/

namespace Sys2Proof.Machine

/-! ## Packets -/

/-- Bytes of a launch packet (R363). -/
def packetBytes : Nat := 64

/-- Doubleword `i` of bytes. -/
def dwOf (bs : List Byte) (i : Nat) : Nat := leNat ((bs.drop (8 * i)).take 8)

/-- The fields of a launch packet (R363). -/
def packetOf (bs : List Byte) : LaunchPacket :=
  let d := dwOf bs
  { image := .ofNat 64 (d 0), tlen := fld (d 1) 0 18, entry := fld (d 1) 18 18, spmimg := .ofNat 64 (d 2),
    slen := fld (d 3) 0 22, teams := fld (d 3) 32 16 + 1, cores := fld (d 3) 48 3 + 1, prio := .ofNat 2 (fld (d 3) 51 2),
    fullch := fld (d 3) 53 1 = 1, excl := fld (d 3) 54 1 = 1, evict := fld (d 3) 55 1 = 1, claim := .ofVector (d 4),
    claimed := d 4 ≠ 0, args := .ofNat 64 (d 5), compl := .ofNat 64 (d 6),
    parent := if fld (d 7) 32 1 = 1 then some (.ofNat 32 (d 7)) else none }

/-- Whether a reserved bit of a packet is set (R363, R173). -/
def packetReserved (bs : List Byte) : Bool :=
  let d := dwOf bs
  fld (d 0) 0 6 != 0 || fld (d 0) 48 16 != 0 || fld (d 1) 36 28 != 0 || fld (d 2) 0 5 != 0 || fld (d 2) 48 16 != 0 ||
  fld (d 3) 22 10 != 0 || fld (d 3) 56 8 != 0 || vectorReserved (d 4) || fld (d 5) 0 3 != 0 || fld (d 5) 48 16 != 0 ||
  fld (d 6) 0 3 != 0 || fld (d 6) 48 16 != 0 || fld (d 7) 33 31 != 0

/-- Whether a field of a packet is outside its range (R363, R364). -/
def LaunchPacket.outOfRange (p : LaunchPacket) : Bool :=
  decide (p.tlen < 4) || decide (196608 < p.tlen) || p.tlen % 4 != 0 || p.entry % 4 != 0 || decide (p.tlen ≤ p.entry) ||
  decide (2097152 < p.slen)

/-- Pages that a packet's .spm image needs (R175, R364). -/
def LaunchPacket.spmPages (p : LaunchPacket) : Nat := (p.slen + 16383) / 16384

/-- Whether a stack has a retired or narrowed channel (R391 CHRET). -/
def Stack.chret (t : Stack) : Bool := !t.retired.isEmpty || !t.narrowed.isEmpty || !t.withdrawn.isEmpty

/-- The checks of R364 on a packet for a queue, but for status 6; `most` is the highest priority allowed, and `host`
holds for a packet of a host queue. -/
def State.packetStatus (s : State) (q : Fin 64) (bs : List Byte) (host : Bool) (most : BitVec 2) : Nat :=
  let p := packetOf bs
  if 16 ≤ (s.queues[q]).length then 1
  else if packetReserved bs || p.outOfRange || (host && p.parent.isSome) then 2
  else if p.claim.overTotal.isSome then 3
  else if p.fullch && s.hbm.any (·.chret) then 4
  else if most < p.prio then 5
  else if p.claim.page < p.spmPages then 7
  else 0

/-- The first id from `i` on that no live grid holds (R362). -/
def freshId (live : List (BitVec 32)) : (fuel : Nat) → BitVec 32 → BitVec 32
  | 0, i => i
  | n + 1, i => if live.contains i then freshId live n (i + 1) else i

/-- A packet enters a queue as a new grid (R362). -/
def State.acceptPacket (s : State) (q : Fin 64) (p : LaunchPacket) (asid : BitVec 12) : State × BitVec 32 :=
  let id := freshId (s.grids.map (·.id)) (s.grids.length + 1) s.nextGrid
  ({ s with
      nextGrid := id + 1,
      queues := s.queues.set q.val ((s.queues[q]) ++ [id]) q.isLt,
      grids := s.grids ++ [{ id := id, pkt := p, asid := asid, queue := q.val, acceptedAt := s.now, placed := 0,
                             ended := 0, bad := 0, status := 0, aux := 0, abandoned := false }] }, id)

/-- A grid by its id. -/
def State.grid (s : State) (id : BitVec 32) : Option Grid := s.grids.find? (·.id == id)

/-- Changes a grid. -/
def State.setGrid (s : State) (id : BitVec 32) (f : Grid → Grid) : State :=
  { s with grids := replaceFirst (·.id == id) f s.grids }

/-- A packet as GRID sends it: PARENT and LINKED set (R365). -/
def childPacket (bs : List Byte) (parent : BitVec 32) : List Byte :=
  bs.take 56 ++ leBytes 8 (dwOf bs 7 / 2 ^ 33 * 2 ^ 33 + 2 ^ 32 + parent.toNat)

/-- The submission of a child packet: the state and g[d] (R364, R365). -/
def submitChild (s : State) (q : Word) (bs : List Byte) : State × Word :=
  let refuse := fun (st : Nat) => (s, (.ofNat 64 (2 ^ 63 + st) : Word))
  if 31 < q.toNat then refuse 6
  else
    let i : Fin 64 := ⟨32 + q.toNat % 32, by omega⟩
    let most := ((s.grid s.core.csr.gridid).map (·.pkt.prio)).getD 3
    let st := s.packetStatus i bs false most
    if st ≠ 0 then refuse st
    else
      let r := s.acceptPacket i (packetOf bs) s.core.csr.asid
      (r.1, zext r.2)

/-- grid: a trap, and the end of its team, wait for its reply, and so for its fence (R112, R365). -/
def execGrid (d a b : BitVec 5) (s : State) : Result :=
  let w := s.g a
  if w.toNat % 64 ≠ 0 then trap s causeMisaligned w
  else if w.toNat < Config.tcmBase ∨ Config.tcmBase + Config.tcmBytes < w.toNat + packetBytes then trap s causeFetchRegion w
  else if !s.packageFenced s.cur then .next (s.setCore { s.core with wait := .grid })
  else
    let bs := Memory.readBytes s.core.tcm (w.toNat - Config.tcmBase) packetBytes
    let r := submitChild s (s.g b) (childPacket bs s.core.csr.gridid)
    finishG r.1 d r.2

/-! ## Load of a cluster -/

/-- The free cores of a cluster. -/
def State.freeCores (s : State) (k : ClusterId) : List Slot :=
  (List.finRange 8).filter fun n => (s.coreAt (coreOf k n)).slot.isNone

/-- The free cores of a cluster that no other grid has reserved (R368, R398). -/
def State.usableCores (s : State) (k : ClusterId) (g : BitVec 32) : List Slot :=
  (s.freeCores k).filter fun n => !s.reservations.any fun r => r.cluster == k && r.grid != g && r.cores.contains n

/-- The teams of a cluster that are resident: all but those evicted (R368, R373). -/
def State.residentTeams (s : State) (k : ClusterId) : List (Slot × Team) :=
  (List.finRange 8).filterMap fun t => (s.team k t).bind fun x => if x.status = .evicted then none else some (t, x)

/-- CLOAD of a logical cluster of a die (R370). -/
def State.cload (s : State) (d : DieId) (n : Nat) : Word :=
  match if n < 32 then s.holderOf (32 * d.val + n) else none with
  | none => .ofNat 64 (2 ^ 33)
  | some k =>
    let av := s.available k
    let teams := s.residentTeams k
    .ofNat 64 ((if teams.any (·.2.excl) then 2 ^ 32 else 0) + teams.length * 2 ^ 28 + av.acc * 2 ^ 19 +
      av.board * 2 ^ 16 + av.page * 2 ^ 8 + av.lane * 2 ^ 4 + (s.freeCores k).length)

/-! ## Placement -/

/-- Save slots of a die that a team holds. -/
def State.slotUsed (s : State) (d : DieId) (n : Nat) : Bool :=
  (List.finRange 136).any fun k => dieOfCluster k == d && (s.cl k).teams.any fun t => t.any (·.saveSlot == n)

/-- The lowest free save slot of a die (R371). -/
def State.freeSlot (s : State) (d : DieId) : Option Nat :=
  (List.range (s.dies[d]).lscount.toNat).find? fun n => !s.slotUsed d n

/-- The bank of a new team: that of its lowest core's number, else the lowest free (R206). -/
def State.freeBank (s : State) (k : ClusterId) (lowest : Slot) : Option Slot :=
  if (s.team k lowest).isNone then some lowest else (List.finRange 8).find? fun t => (s.team k t).isNone

/-- Whether a cluster takes a team of a grid, with the cores `more` counted as free and the teams `gone` as not
resident (R368, R373). -/
def State.admits (s : State) (g : Grid) (k : ClusterId) (more : List Slot) (gone : List Slot) : Bool :=
  let resident := (s.residentTeams k).filter fun x => !gone.contains x.1
  let other := resident.filter fun x => x.2.asid != g.asid
  (s.cl k).status == .active && (s.cl k).logical.isSome &&
  decide (g.pkt.cores ≤ (s.usableCores k g.id).length + more.length) &&
  (List.finRange 8).any (fun t => (s.team k t).isNone) &&
  decide (resident.length < 8) && (s.freeSlot (dieOfCluster k)).isSome &&
  !(g.pkt.excl && !other.isEmpty) && !other.any (·.2.excl)

/-- What R369 compares, in its order. -/
def State.loadOf (s : State) (k : ClusterId) : List Nat :=
  let av := s.available k
  [(s.freeCores k).length, av.page, av.acc, av.lane, av.board]

/-- Whether a load comes before another. -/
def loadAbove : List Nat → List Nat → Bool
  | x :: xs, y :: ys => if x = y then loadAbove xs ys else decide (y < x)
  | _, _ => false

/-- The clusters of the package by logical id, ascending. -/
def State.byLogical (s : State) : List ClusterId := (List.range 128).filterMap s.holderOf

/-- The cluster that a grid's next team goes to (R369). -/
def State.bestCluster (s : State) (g : Grid) : Option ClusterId :=
  (s.byLogical.filter fun k => s.admits g k [] []).foldl
    (fun best k => match best with
      | none => some k
      | some b => if loadAbove (s.loadOf k) (s.loadOf b) then some k else some b) none

/-- Byte address of a team's save slot (R370, R371). -/
def State.saveBase (s : State) (k : ClusterId) (x : Team) : Nat :=
  (s.dies[dieOfCluster k]).lsbase.toNat + Config.slotBytes * x.saveSlot

/-- Address of a core's frame in its team's save slot (R371). -/
def State.frameOf (s : State) (k : ClusterId) (x : Team) (tcore : Nat) : Nat := s.saveBase k x + 0x302000 + 1024 * tcore

/-- The registers that place a core in a team (R371 step 1). -/
def Csr.placed (c : Csr) (x : Team) (tcore frame : Nat) : Csr :=
  { c with teamid := x.teamid, tcore := .ofNat 3 tcore, tsize := .ofNat 4 x.cores.length, gridid := x.grid,
           asid := x.asid, ptbase := x.ptbase, frame := .ofNat 64 frame, placedAt := x.placedAt }

/-- Gives a team slot the cores of its list from TCORE `i` on: `f` makes each core's new state. -/
def State.takeCores (s : State) (k : ClusterId) (f : Nat → Core → Core) : Nat → List Slot → State
  | _, [] => s
  | i, n :: ns =>
    let c := coreOf k n
    (s.setCoreAt c (f i (s.coreAt c))).takeCores k f (i + 1) ns

/-- A core of a newly placed team (R98, R102, R371). -/
def State.freshCore (s : State) (k : ClusterId) (t : Slot) (x : Team) (tcore : Nat) : Core :=
  { Core.reset with
    slot := some t, run := .starting, credit := 1, lost := none,
    csr := Csr.reset.placed x tcore (s.frameOf k x tcore) }

/-- A request word (R180). -/
def requestWord (cls count base : Nat) : Word := .ofNat 64 (cls + count * 2 ^ 8 + base * 2 ^ 24)

/-- Whether a request that the launch unit makes for a team is granted at once: blocked ones go first (R175, R178). -/
def State.launchGrants (s : State) (k : ClusterId) (t : Slot) (req : Counts) : Bool :=
  !s.redecideDue k && s.bankerDecide k t req == 0

/-- A request that the launch unit makes for a team: granted, or put into the blocked list (R175, R178, R191). -/
def State.launchRequest (s : State) (k : ClusterId) (t : Slot) (x : Team) (w : Word) : State :=
  let r := Request.of w
  if s.launchGrants k t r.counts then s.grantUnits k t r
  else
    let c := s.cl k
    s.setCl k { c with blocked := c.blocked ++ [{ core := x.cores.headD 0, team := t, req := r.counts, kind := .launch w }] }

/-- A reservation of a grid ends where the grid places a team there, or has none left to place (R398). -/
def State.endReservations (s : State) (g : Grid) (k : ClusterId) : State :=
  { s with reservations := s.reservations.filter fun r =>
      r.grid != g.id || (r.cluster != k && decide (g.placed < g.pkt.teams)) }

/-- The next team of a grid, as it is placed on some cores with a save slot and its tenant's table (R371, R385). -/
def newTeam (g : Grid) (cores : List Slot) (slot now : Nat) (pt : Word) : Team :=
  { grid := g.id, teamid := .ofNat 16 g.placed, asid := g.asid, ptbase := pt, prio := g.pkt.prio, evict := g.pkt.evict,
    excl := g.pkt.excl, cores := cores, pages := [], blocks := [], claim := if g.pkt.claimed then some g.pkt.claim else none,
    lanes := [], ended := 0, boards := [], saved := [], bars := [], status := .starting, saveSlot := slot, placedAt := now,
    preemptedAt := 0, fatal := none }

/-- A grid's next team is placed on a cluster (R367, R369, R371 steps 1 and 2). -/
def State.placeOn (s : State) (g : Grid) (k : ClusterId) : Option State :=
  let cores := (s.usableCores k g.id).take g.pkt.cores
  (s.freeBank k (cores.headD 0)).bind fun t => (s.freeSlot (dieOfCluster k)).map fun slot =>
    let x := newTeam g cores slot s.now (s.tenant g.asid).pt
    let s1 := (s.setTeam k t (some x)).takeCores k (fun i _ => s.freshCore k t x i) 0 cores
    let s2 := if g.pkt.spmPages = 0 then s1 else s1.launchRequest k t x (requestWord 1 g.pkt.spmPages 0)
    let g' := { g with placed := g.placed + 1 }
    { s2.setGrid g.id (fun _ => g') with
      queues := s2.queues.map fun (l : List (BitVec 32)) => l.filter (· != g.id) }.endReservations g' k

/-! ## The start of a team's threads -/

/-- Reads `n` bytes of translated space for the launch unit; `fuel` bounds the lines (R371). -/
def readImage (s : State) (k : ClusterId) (asid : BitVec 12) (pt : Word) : (fuel va n : Nat) → Eng (List Byte)
  | 0, _, _ => .ok s []
  | f + 1, va, n =>
    if n = 0 then .ok s []
    else if va < Config.translatedBase then .fault s causePageNotPresent (.ofNat 64 va)
    else
      let m := Nat.min n (64 - va % 64)
      match translate s k asid pt va .read with
      | (_, .stall) => .stall
      | (s1, .fault c w) => .fault s1 c w
      | (s1, .ok t) =>
        if s1.homeBusy t.pa 1 then .stall
        else match s1.lineFault t.pa (s1.sealFor t.buf) with
        | some c => .fault (s1.countBuddy t.pa) c (.ofNat 64 va)
        | none => match readImage (s1.countBuddy t.pa) k asid pt f (va + m) (n - m) with
          | .ok s2 l => .ok s2 (Memory.readBytes s1.mem t.pa m ++ l)
          | r => r

/-- The handler of R317 as bytes. -/
def handlerBytes : List Byte := (List.range 256).map Config.handlerByte

/-- TCM with an image at its start and the handler in its place (R371 step 3, R317). -/
def tcmWith (image : List Byte) : Mem := Memory.splice (Memory.cells 0 image) Config.handlerOffset handlerBytes

/-- The bytes of a team's page from 0 on: an .spm image over the pages that team pages 0 upward lie in (R175). DEDUCED: it
clears the errors of the granules that it covers whole, as every write of a whole granule does (notes/assumptions/26). -/
def fillPages (x : Cluster) (team : Team) : (fuel i : Nat) → List Byte → Cluster
  | 0, _, _ => x
  | f + 1, i, bs =>
    if bs.isEmpty then x
    else match team.pages.find? (·.1 == i) with
    | none => x
    | some (_, p) =>
      fillPages (x.writeSpan .spm (p * 16384) (bs.take 16384)) team f (i + 1) (bs.drop 16384)

/-- Ends a team fatally with TEAM_ABORT (R112). -/
def State.abortTeam (s : State) (k : ClusterId) (t : Slot) (aux : Word) : State := s.failTeam k t causeTeamAbort aux

/-- Whether a team's units are granted, zeroed and in place: what the launch unit writes into waits for it (R172,
R186). -/
def State.unitsReady (s : State) (k : ClusterId) (t : Slot) (x : Team) : Bool :=
  let c := s.cl k
  !c.blocked.any (fun b => b.team == t && match b.kind with | .launch _ | .relane _ => true | _ => false) &&
  !c.zeroing.any (fun u => match u with
    | .page p => x.pages.any (·.2 == p)
    | .block b => x.blocks.any (·.2 == b)) &&
  !x.pages.any (fun e => c.reloc.any (·.1 / 16 == e.2 / 16))

/-- Every thread of a team starts (R371 step 4). -/
def State.startThreads (s : State) (k : ClusterId) (t : Slot) (x : Team) (tcm : Mem) (entry : Nat) : State :=
  (s.modTeam k t fun y => { y with status := .running }).takeCores k
    (fun _ c => { c with tcm := tcm, itcm := tcm, pc := .ofNat 64 (Config.tcmBase + entry), run := .running }) 0 x.cores

/-- Steps 2 to 4 of R371 for a placed team: the images, then the threads; a fault on an image ends the team. -/
def startTeam (s : State) (k : ClusterId) (t : Slot) (x : Team) : Option State :=
  if !s.unitsReady k t x then none
  else (s.grid x.grid).bind fun g =>
    match readImage s k x.asid x.ptbase (g.pkt.slen / 64 + 2) g.pkt.spmimg.toNat g.pkt.slen with
    | .stall => none
    | .fault s1 c _ => some (s1.abortTeam k t (zext c))
    | .ok s1 spm =>
      match readImage s1 k x.asid x.ptbase (g.pkt.tlen / 64 + 2) g.pkt.image.toNat g.pkt.tlen with
      | .stall => none
      | .fault s2 c _ => some (s2.abortTeam k t (zext c))
      | .ok s2 tcm =>
        some ((s2.setCl k (fillPages (s2.cl k) x 129 0 spm)).startThreads k t x (tcmWith tcm) g.pkt.entry)

/-! ## The end of a team and of a grid -/

/-- Whether a finished collective waits to decrement behind one that will not: a saved one, or any on a lost cluster
(R19, R198, R205). -/
def State.waitsBehind (s : State) (k : ClusterId) (x : Cmd) : Bool :=
  x.engine == .col && x.phase == .finished &&
  ((s.cl k).status == .lost || (x.reply.isNone && s.savedBefore x))

/-- Whether a command holds up neither a pre-emption nor a teardown: not started, or stopped with all that it granted
written, or a matched collective on a lost cluster, which sends no more (R19, R112, R205, R277, R295, R315). -/
def State.cmdStopped (s : State) (k : ClusterId) (x : Cmd) : Bool :=
  s.waitsBehind k x ||
  x.engine != .agt && (x.phase != .finished || (s.savesGranted x && !s.goesOn x)) &&
  (x.unstarted ||
    (!(s.cl k).drain.any (·.seq == x.seq) && !s.granules.any (·.seq == x.seq) && !s.copyOut x.seq true &&
      !s.migrations.any (·.seq == x.seq) &&
      match x.engine with
      | .arr => x.rowsGranted || (x.place == .queue && x.byte == 0)
      | .cpy => true
      | .col => !x.matched || (s.cl k).status == .lost
      | .agt => false))

/-- The commands of a team. -/
def State.cmdsOf (s : State) (k : ClusterId) (t : Slot) : List Cmd :=
  s.cmds.filter fun c => clusterOf c.core == k && (s.coreAt c.core).slot == some t

/-- Whether a copy of a team has granules whose writes are not performed at their homes (R112, R315). -/
def State.copying (s : State) (k : ClusterId) (t : Slot) : Bool :=
  let ours := fun (g : Granule) => clusterOf g.core == k && (s.coreAt g.core).slot == some t
  s.granules.any ours || s.transit.any fun t => t.item.copied.any ours

/-- Whether a core has no access of its own under way. -/
def Core.quiet (k : Core) : Bool := k.stores.isEmpty && k.vq.isEmpty

/-- Whether a core waits for a reply that may never come: of a collective that is not matched, or of any on a lost
cluster (R19, R205). -/
def State.stuckReply (s : State) (c : CoreId) : Bool :=
  match (s.coreAt c).wait with
  | .enqReply q _ => (s.cmd q).any fun x => x.engine == .col && !x.unstarted &&
      ((s.cl (clusterOf c)).status == .lost || (x.phase == .running && !x.matched))
  | _ => false

/-- Whether a core still awaits a reply; a bar.sync not counted, a vfence or a collective that aborts its turn does not hold
a teardown up (R112 step 1, R205, notes/assumptions/34). -/
def State.awaitsReply (s : State) (c : CoreId) : Bool :=
  match (s.coreAt c).wait with
  | .load _ | .reply | .retiring | .grid => true
  | .enqReply _ _ => !s.stuckReply c
  | _ => false

/-- Whether a core of a lost cluster issues no more: ended, parked, not yet running, or behind a reply that never comes
(R108). -/
def State.cannotIssue (s : State) (c : CoreId) : Bool :=
  (s.coreAt c).run != .running || (s.coreAt c).parked || s.stuckReply c

/-- Whether a team is over: every thread has ended and its commands are done, or its teardown is, or its cluster is lost
and no core of it issues (R108, R112, R152, R196). -/
def State.teamOver (s : State) (k : ClusterId) (t : Slot) (x : Team) : Bool :=
  let quiet := !s.copying k t && (s.coresOf k t x).all fun e => (s.coreAt e.2).quiet
  let torn := quiet && (s.cmdsOf k t).all (s.cmdStopped k) && (s.coresOf k t x).all fun e => !s.awaitsReply e.2
  if (s.cl k).status = .lost then
    (x.status == .fatal || (s.coresOf k t x).all fun e => s.cannotIssue e.2) && torn
  else if x.status = .fatal then torn
  else (x.status == .running || x.status == .preempting) && s.allEnded k t x && quiet && (s.cmdsOf k t).isEmpty

/-- What a grid's record takes from a team that has ended (R372). -/
def Grid.noteEnd (g : Grid) (f : Option (BitVec 8 × Word)) : Grid :=
  match f with
  | none => { g with ended := g.ended + 1 }
  | some (c, a) => { g with ended := g.ended + 1, bad := g.bad + 1,
                            status := if g.bad = 0 then c else g.status, aux := if g.bad = 0 then a else g.aux }

/-- A core that no team holds any more. -/
def Core.freed (k : Core) : Core :=
  { k with slot := none, run := .idle, wait := .ready, preempt := none, lost := none, parkDue := none, parkAside := false,
           heldEvent := [], inbox := [], stores := [], vq := [], minLots := 0, maxLots := 0, barWait := none, sync := none,
           reneg := false, relSeq := none,
           csr := { k.csr with vlen := 0 } }

/-- A core's undelivered messages of parks reach their inbox, or stay held at their source while it is full (R147,
R383). -/
def State.keepEvent (s : State) (c : CoreId) : State :=
  (s.coreAt c).heldEvent.foldl (fun z w => z.deliver (s.serviceOf c)
    { word := w, kind := 1, asid := (s.coreAt c).csr.asid, src := .ofNat 10 (s.globalId c), arrived := true }) s

/-- A core leaves its team. -/
def State.freeCore (s : State) (c : CoreId) : State :=
  let s' := s.keepEvent c
  s'.setCoreAt c (s'.coreAt c).freed

/-- Cores leave their team. -/
def State.freeAll (s : State) (l : List (Nat × CoreId)) : State := l.foldl (fun z e => z.freeCore e.2) s

/-- The groups of a team leave its port; those of a team that ends fatally abort their turns (R192, R196). -/
def State.dropGroups (s : State) (k : ClusterId) (fatal : Bool) : List CollEntry → State
  | [] => s
  | e :: es =>
    ((if fatal then s.abortTurn k e ((s.cl k).status == .lost) else s).freeColl k e).dropGroups k fatal es

/-- A team ends: its groups, commands, units and cores are released, and its grid learns of it (R112, R152, R184, R189,
R206). -/
def endTeam (s : State) (k : ClusterId) (t : Slot) (x : Team) : State :=
  let groups := (s.cl k).coll.filter (·.team == t)
  let s1 := s.dropGroups k x.fatal.isSome groups
  let mine := fun (n : Slot) => (s1.coreAt (coreOf k n)).slot == some t
  let s2 := { s1 with cmds := s1.cmds.filter fun c => !(clusterOf c.core == k && mine (corenoOf c.core)) }
  let c := (s2.cl k).releaseAll t x
  let s3 := s2.setCl k { c with blocked := c.blocked.filter (·.team != t), sfu := c.sfu.filter (!mine ·.core),
                                topk := c.topk.filter (!mine ·.core) }
  (((s3.freeAll (s3.coresOf k t x)).setTeam k t none).setGrid x.grid (·.noteEnd x.fatal)).keepLeft (s.leaving k x)

/-- A team that is over ends (R152). -/
def evTeamEnd (k : ClusterId) (t : Slot) (s : State) : Option State :=
  (s.team k t).bind fun x => if s.teamOver k t x then some (endTeam s k t x) else none

/-- TEAM_END (R152). -/
def execTeamEnd (k : ClusterId) (t : Slot) (s : State) : Result := fire s (evTeamEnd k t s)

/-- Whether every team of a grid, and every child, has ended (R17, R372). -/
def State.gridOver (s : State) (g : Grid) : Bool :=
  g.ended == g.placed && (g.abandoned || g.placed == g.pkt.teams) && !s.grids.any (fun c => c.pkt.parent == some g.id)

/-- The completion record (R372). -/
def Grid.record (g : Grid) : Word × Word :=
  let left := if g.abandoned then g.pkt.teams - g.placed else 0
  let st := if left = 0 then g.status else 3
  (.ofNat 64 (2 ^ 63 + (g.bad + left) % 2 ^ 16 * 2 ^ 32 + st.toNat), if left = 0 then g.aux else .ofNat 64 left)

/-- Where a doubleword of a record goes; a fault drops it (R372). -/
def recordPlace (s : State) (asid : BitVec 12) (va : Nat) : State × XRes (Nat × BitVec 12) :=
  if va < Config.translatedBase then (s, .fault causePageNotPresent (.ofNat 64 va))
  else match walk s asid (s.tenant asid).pt va with
  | (_, .stall) => (s, .stall)
  | (s1, .fault c w) => (s1, .fault c w)
  | (s1, .ok l) =>
    let pa := l.page + va % leafBytes l.level
    match accessFault .write l.space l.map l.write l.read with
    | some c => (s1, .fault c (.ofNat 64 va))
    | none => if s.homeBusy pa 1 then (s, .stall) else (s1, .ok (pa, l.buf))

/-- The record of a grid is written; None while a place stalls it. -/
def writeRecord (s : State) (g : Grid) : Option State :=
  if g.pkt.compl = 0 then some s
  else
    let p := recordPlace s g.asid g.pkt.compl.toNat
    let q := recordPlace p.1 g.asid (g.pkt.compl.toNat + 8)
    match p.2, q.2 with
    | .stall, _ | _, .stall => none
    | .ok (a, u), .ok (b, v) =>
      some ((q.1.writePart a (leBytes 8 g.record.1.toNat) (q.1.sealFor u)).writePart b (leBytes 8 g.record.2.toNat)
        (q.1.sealFor v))
    | _, _ => some q.1

/-- The tenant of a request on its way. -/
def TransitItem.asid : TransitItem → Option (BitVec 12)
  | .store e _ => some e.asid
  | .copy g _ => some g.asid
  | .ship o => some o.asid
  | .map o => some o.asid
  | .loadMark => none

/-- A grid that is over is counted complete once its record is written, behind the writes of its tenant (R372). -/
def evGridComplete (id : BitVec 32) (s : State) : Option State :=
  (s.grid id).bind fun g =>
    if s.gridOver g && !s.transit.any (fun t => t.item.asid == some g.asid) then
      (writeRecord s g).map fun s' => { s' with grids := s'.grids.filter (·.id != id) }
    else none

/-- GRID_COMPLETE (R372). -/
def execGridComplete (gid : BitVec 32) (s : State) : Result := fire s (evGridComplete gid s)

end Sys2Proof.Machine
end

