-- ==== Sys2Proof/Machine/Preempt.lean ====
section
/-! DEFINITION. Pre-emption: the runtime's handler, the save area, the freeing of cores, and the resumption of a team
(spec/05 R117-R118, spec/08 R189-R191, spec/14 R277-R280, spec/17 R315-R316, spec/22 R374-R375). -/

namespace Sys2Proof.Machine

/-! ## The frame -/

/-- Doublewords as bytes. -/
def dwBytes (l : List Word) : List Byte := l.flatMap fun w => leBytes 8 w.toNat

/-- The frame of a core that stands in the trap of a PREEMPT, with `words` taken from its inbox (R116, R117). DESIGN CHOICE:
PPRIV and PIE of its KSTATE slot are those of the trap, INTRAP is 0 (notes/assumptions/37). -/
def frameBytes (k : Core) (words : List Word) : List Byte :=
  let c := k.csr
  dwBytes ((List.range 32).map fun i => k.readG (.ofNat 5 i)) ++ dwBytes k.regs.f.toList ++ dwBytes k.regs.p.toList ++
  dwBytes ((List.range 8).map fun i => k.readM (.ofNat 3 i)) ++ k.regs.c.toList ++
  dwBytes [c.trappc,
           { c.kstate with priv := c.kstate.ppriv, ie := c.kstate.pie, intrap := false }.pack,
           zext c.fflags, zext c.fenable, zext c.fround, zext c.spflag, zext c.spaddr, zext c.pmprog, zext c.vlen,
           zext c.efault, zext c.engfc, c.engfa, zext c.bto, zext c.wrrw, zext c.parkinf, .ofNat 64 words.length] ++
  dwBytes (words ++ List.replicate (8 - words.length) 0) ++ List.replicate 112 0

/-- A doubleword of physical memory. -/
def State.dw (s : State) (pa : Nat) : Word := .ofNat 64 (s.readPhys pa 8)

/-- Whether a frame fails the check of a restore (R118). -/
def State.frameBad (s : State) (a : Nat) : Bool :=
  let ks := s.dw (a + 0x2D8)
  ks.getLsbD 1 || ks.getLsbD 9 || decide (8 < (s.dw (a + 0x348)).toNat)

/-- The registers that a frame holds; a pointer's reserved bits stay zero (R99, R117, R118). -/
def Regs.framed (s : State) (a : Nat) : Regs :=
  { g := .ofFn fun (i : Fin 32) => s.dw (a + 8 * i.val),
    f := .ofFn fun (i : Fin 32) => s.dw (a + 0x100 + 8 * i.val),
    p := .ofFn fun (i : Fin 16) => ptrOf (ptrStep (s.dw (a + 0x200 + 8 * i.val))) (ptrLow (s.dw (a + 0x200 + 8 * i.val))),
    m := .ofFn fun (i : Fin 8) => s.dw (a + 0x280 + 8 * i.val),
    c := .ofFn fun (i : Fin 16) => .ofNat 8 (s.readPhys (a + 0x2C0 + i.val) 1) }

/-- KSTATE of a word (R103); INTRAP 0, as a restore leaves it (R118). -/
def KState.restored (w : Word) : KState :=
  { park := w.getLsbD 11, ie := w.getLsbD 10, ppriv := privOf (w.getLsbD 8), pie := w.getLsbD 7, intrap := false,
    priv := privOf (w.getLsbD 0) }

/-- The control registers that a frame holds (R117, R118). -/
def Csr.framed (x : Csr) (s : State) (a : Nat) : Csr :=
  let w := fun (i : Nat) => s.dw (a + 0x2E0 + 8 * i)
  { x with
    kstate := .restored (s.dw (a + 0x2D8)),
    fflags := bits (w 0) 0 5, fenable := bits (w 1) 0 5, fround := bits (w 2) 0 3, spflag := bits (w 3) 0 2,
    spaddr := bits (w 4) 0 22, mprog := bits (w 5) 0 6, vlen := bits (w 6) 0 7, efault := bits (w 7) 0 16,
    engfc := bits (w 8) 0 16, engfa := w 9, bto := bits (w 10) 0 32, wrrw := wrrwStored (w 11),
    parkinf := bits (s.dw (a + 0x340)) 0 16 }

/-- A core restored from its frame (R118). -/
def Core.restored (k : Core) (s : State) (a : Nat) : Core :=
  { k with
    regs := .framed s a, csr := k.csr.framed s a, pc := s.dw (a + 0x2D0), wake := true, run := .running, parkAside := false,
    inbox := (List.range (s.dw (a + 0x348)).toNat).map fun i => ⟨true, s.dw (a + 0x350 + 8 * i)⟩ }

/-! ## The pre-emption handler -/

/-- Whether a core is about to run the runtime's pre-emption handler (R317, R374, notes/assumptions/9). -/
def Core.atHandler (k : Core) : Bool :=
  k.run == .running && k.handsOff && k.csr.trapv == 0x80000 && k.pc == 0x80400 &&
  Memory.readBytes k.itcm Config.handlerOffset 256 == handlerBytes

/-- The runtime's handler as one action: it writes the frame, empties the inbox into it and retires END; None while
a store or a word is on its way (R374, notes/assumptions/9). -/
def runHandler (s : State) (c : CoreId) : Option State :=
  let k := s.coreAt c
  let a := k.csr.frame.toNat
  if !k.stores.isEmpty || !k.vq.isEmpty || k.inbox.any (!·.arrived) || s.homeBusy a 1024 then none
  else
    let s1 := s.writeRaw a (frameBytes k (k.inbox.map (·.word)))
    let k' := { k with csr := { k.csr with trapsave := k.readG 1 } }
    some (s1.setCoreAt c { (k'.writeG 1 k.csr.frame).retire with inbox := [], run := .handed })

/-! ## The save area of the engines -/

/-- The progress word of a command (R278, R315). -/
def Cmd.progress (x : Cmd) : Nat :=
  match x.engine, x.copyJob with
  | .arr, _ => x.boards.toNat * 2 ^ 16 + x.row
  | .cpy, some _ => x.byte * 2 ^ 12 + x.row
  | .cpy, none => x.row
  | _, _ => 0

/-- A saved entry: 64 bytes; an absent one is all zero (R279). -/
def entryBytes : Option Cmd → List Byte
  | none => List.replicate 64 0
  | some x =>
    x.word.bytes ++ leBytes 4 (if x.phase = .running || x.phase = .stopped then x.progress else 0) ++
    [x.counter.setWidth 8, if x.phase = .running || x.phase = .stopped then 2 else 1] ++ List.replicate 26 0

/-- `n` entries as bytes. -/
def entriesBytes (l : List Cmd) (n : Nat) : List Byte := (List.range n).flatMap fun i => entryBytes l[i]?

/-- Commands of a core in its hold area, oldest first (R284). -/
def State.heldOf (s : State) (c : CoreId) : List Cmd :=
  s.cmds.filter fun x => x.core == c && x.engine == .arr && x.place == .hold

/-- The engines' entries of a core are written to its team's save slot (R205, R279, R315, R371). -/
def State.saveEntries (s : State) (c : CoreId) (base tcore : Nat) : State :=
  (((s.writeLines (base + 0x301000 + 128 * tcore) (entriesBytes (s.queueOf c .arr) 2)).writeLines
    (base + 0x301400 + 128 * tcore) (entriesBytes (s.queueOf c .cpy) 2)).writeLines
    (base + 0x301800 + 128 * tcore) (entriesBytes (s.queueOf c .col) 2)).writeLines
    (base + 0x304000 + 512 * tcore) (entriesBytes (s.heldOf c) 8)

/-- What the engines changed in a core's registers after its frame was written enters the frame
(notes/assumptions/36). -/
def State.refreshFrame (s : State) (k : Core) : State :=
  let a := k.csr.frame.toNat
  (((s.writeRaw (a + 0x2C0) k.regs.c.toList).writeRaw (a + 0x2E0) (leBytes 8 k.csr.fflags.toNat)).writeRaw
    (a + 0x2F8) (dwBytes [zext k.csr.spflag, zext k.csr.spaddr])).writeRaw
    (a + 0x318) (dwBytes [zext k.csr.efault, zext k.csr.engfc, k.csr.engfa])

/-- A park that came due after a core's frame was written: the thread parks at its restart address when it resumes, and
its message is held (R146, R147, R383). -/
def State.parkFramed (s : State) (c : CoreId) : State :=
  let k := s.coreAt c
  let a := k.csr.frame.toNat
  match k.parkDue with
  | none => s
  | some (fl, o) =>
    let word : Word := BitVec.ofNat 64 (k.csr.trappc.toNat % 2 ^ 32 * 2 ^ 32 + fl.toNat * 2 ^ 10 + s.globalId c)
    let ks := { k.csr.kstate with priv := k.csr.kstate.ppriv, ie := k.csr.kstate.pie, intrap := false, park := true }
    ((s.writeRaw (a + 0x2D8) (leBytes 8 ks.pack.toNat)).writeRaw (a + 0x340) (leBytes 8 (o * 32 + fl.toNat))).setCoreAt c
      { k with heldEvent := k.heldEvent ++ [word], parkDue := none }

/-- A core's TCM is saved in its team's slot (R371, R374). -/
def State.saveTcm (s : State) (k : Core) (base tcore : Nat) : State :=
  s.writeLines (base + 0x310000 + 0x30000 * tcore) (Memory.readBytes k.tcm 0 Config.tcmBytes)

/-! ## The claim record -/

/-- A bitmap of `n` bytes of some indices. -/
def bitmap (n : Nat) (l : List Nat) : List Byte := leBytes n (l.foldl (fun a i => a ||| 2 ^ i) 0)

/-- The boards of a team: slot, group. -/
def Cluster.boardsOf (x : Cluster) (t : Slot) : List (Nat × Nat) :=
  (List.range 8).filterMap fun b => (x.boardOf t b).map (b, ·)

/-- The three bytes of a TCORE in a claim record: MIN, MAXL and VLEN in lots (R190). -/
def laneBytes (y : Team) (i : Nat) : List Byte :=
  match y.lanes.find? (·.tcore == i) with
  | some r => [.ofNat 8 r.min, .ofNat 8 r.max, .ofNat 8 r.lots]
  | none => [0, 0, 0]

/-- The claim record of a team (R190). -/
def claimRecord (x : Cluster) (t : Slot) (y : Team) : List Byte :=
  let boards := x.boardsOf t
  let compute := boards.filter fun e => (x.group e.2).mode == .board
  leBytes 8 ((y.claim.map (·.vector)).getD 0) ++
  bitmap 16 ((y.pages.map (·.1)).filter fun i => !x.underBoard t i) ++ bitmap 32 (y.blocks.map (·.1)) ++
  bitmap 1 (boards.map (·.1)) ++ bitmap 1 (compute.map (·.1)) ++ List.replicate 6 0 ++
  (List.range 8).flatMap (laneBytes y) ++ List.replicate 4008 0

/-- The first fault of a spill: a granule beyond correction of one of a team's units of `n` bytes (R63, R190). -/
def spillFault (bad : List Nat) (n : Nat) (l : List (Nat × Nat)) : Option (BitVec 8) :=
  if l.any fun e => bad.any fun g => decide (e.2 * n ≤ 32 * g) && decide (32 * g < (e.2 + 1) * n) then some causeDataError
  else none

/-- Units of a team's map copied to the save slot, `n` bytes each, line by line (R190). -/
def State.spill (s : State) (m : Mem) (base n : Nat) : List (Nat × Nat) → State
  | [] => s
  | e :: es => (s.writeLines (base + n * e.1) (Memory.readBytes m (e.2 * n) n)).spill m base n es

/-- The contents of every unit of a team are written, and the units released; a unit beyond correction ends the team
(R189, R190, notes/assumptions/52). -/
def evictTeam (s : State) (k : ClusterId) (t : Slot) (y : Team) : State :=
  let x := s.cl k
  let base := s.saveBase k y
  match spillFault x.badSpm 16384 y.pages, spillFault x.badAcc 4096 y.blocks with
  | some c, _ | _, some c => s.abortTeam k t (zext c)
  | none, none =>
    let s1 := (s.spill x.spm (base + 0x1000) 16384 y.pages).spill x.acc (base + 0x201000) 4096 y.blocks
    let kept := (x.boardsOf t).map fun e => (e.1, (x.group e.2).width, (x.group e.2).wscale)
    (s1.setCl k ((s1.cl k).releaseAll t y)).modTeam k t fun z => { z with status := .evicted, boards := kept }

/-- The last core of a pre-empted team has been freed: the claim record, and the spill under eviction (R189, R190). -/
def endPreemption (s : State) (k : ClusterId) (t : Slot) (y : Team) : State :=
  let s1 := s.writeLines (s.saveBase k y) (claimRecord (s.cl k) t y)
  if y.evict then evictTeam s1 k t y else s1.modTeam k t fun z => { z with status := .preempted }

/-! ## The freeing of cores -/

/-- The commands of a core leave the engines, and stay with the team: they cover what they covered, and keep their order
(R205, R318). -/
def State.dropCmds (s : State) (k : ClusterId) (t : Slot) (c : CoreId) : State :=
  let s' := { s with cmds := s.cmds.filter (·.core != c) }
  s'.modTeam k t fun y => { y with saved := y.saved ++ s.cmds.filter (·.core == c) }

/-- The arr.mmt commands of a core that have granted all their rows stop, each in its place among the entries (R277,
R279). -/
def State.stopGranted (s : State) (c : CoreId) : State :=
  { s with cmds := s.cmds.map fun x =>
      if x.core == c && x.rowsGranted then { x with phase := .stopped, place := .queue } else x }

/-- A core of a victim is saved and freed (R189, R374). -/
def freeVictim (s : State) (k : ClusterId) (t : Slot) (y : Team) (c : CoreId) : State :=
  let s := s.stopGranted c
  let x := s.coreAt c
  let i := x.csr.tcore.toNat
  let base := s.saveBase k y
  let s0 := s.saveTcm x base i
  let s1 := if x.run = .handed then (s0.refreshFrame x).parkFramed c else s0
  let s2 := ((s1.saveEntries c base i).dropCmds k t c).modTeam k t fun z =>
    { z with lanes := z.lanes ++ [⟨i, x.minLots, x.maxLots, x.lots, x.csr.instret⟩],
             ended := if x.run = .ended then z.ended ||| coreBit i else z.ended }
  s2.freeCore c

/-- Whether a group of a team is under conversion or clearing, which its claim record cannot say (R190). -/
def Cluster.boardMoves (x : Cluster) (t : Slot) : Bool :=
  x.groups.any fun g => g.holder.any (·.1 == t) && (g.mode == .converting || g.mode == .clearing)

/-- Whether a core of a victim may be freed: handed over or ended before, with its team's engines stopped and its boards
in a state that a claim record holds (R190, R205, R277, R315, R374). -/
def State.victimReady (s : State) (k : ClusterId) (t : Slot) (y : Team) (c : CoreId) : Bool :=
  let x := s.coreAt c
  y.status == .preempting && (s.cl k).status != .lost && !s.allEnded k t y && (x.run == .handed || x.run == .ended) &&
  s.enginesStop k t y && x.quiet && !s.copying k t && s.unitsReady k t y &&
  (s.cmdsOf k t).all (fun z => s.cmdStopped k z && !(z.engine == .col && s.replyBehind z)) &&
  !(s.cl k).boardMoves t && !s.homeBusy (s.saveBase k y) Config.slotBytes

/-- A core of a victim is freed, and with the last one the pre-emption ends (R374). -/
def evCoreFreed (c : CoreId) (s : State) : Option State :=
  let k := clusterOf c
  (s.coreAt c).slot.bind fun t => (s.team k t).bind fun y =>
    if !s.victimReady k t y c then none
    else
      let s1 := freeVictim s k t y c
      some (match s1.team k t with
        | some z => if (s1.coresOf k t z).isEmpty then endPreemption s1 k t z else s1
        | none => s1)

/-- CORE_FREED (R374). -/
def execCoreFreed (c : CoreId) (s : State) : Result := fire s (evCoreFreed c s)

/-! ## Resumption -/

/-- A core of a team that resumes; what no frame holds keeps its value (notes/assumptions/37). -/
def State.resumedCore (s : State) (k : ClusterId) (t : Slot) (x : Team) (tcore : Nat) (c : Core) : Core :=
  let r := x.lanes.find? (·.tcore == tcore)
  let lots := if x.status = .evicted then 0 else (r.map (·.lots)).getD 0
  { c with
    slot := some t, run := .starting, tcm := [], itcm := [], credit := c.csr.wrrw.toNat,
    minLots := (r.map (·.min)).getD 0, maxLots := (r.map (·.max)).getD 0,
    csr := { (c.csr.placed x tcore (s.frameOf k x tcore)) with
      vlen := .ofNat 7 (8 * lots), instret := (r.map (·.instret)).getD 0 } }

/-- A pre-empted team takes its cores again (R375). -/
def State.resumeTeam (s : State) (k : ClusterId) (t : Slot) (x : Team) : State :=
  (s.takeCores k (s.resumedCore k t x) 0 x.cores).modTeam k t fun y =>
    { y with status := if x.status = .evicted then .reacquiring else .resuming, lanes := [] }

/-- The set bits of a bitmap of `n` bytes in memory. -/
def State.bitsAt (s : State) (pa n : Nat) : List Nat :=
  let w := s.readPhys pa n
  (List.range (8 * n)).filter fun i => w / 2 ^ i % 2 = 1

/-- The request words that take back what a claim record names and the team does not hold: PAGE, BOARD, ACC (R191). -/
def State.reacquires (s : State) (base : Nat) (x : Team) : List Word :=
  ((s.bitsAt (base + 8) 16).filter (fun i => !mapped x.pages i)).map (requestWord 1 1) ++
  ((s.bitsAt (base + 0x38) 1).filter (fun b => !mapped x.pages (16 * b))).map (fun b => requestWord 2 1 (16 * b)) ++
  ((s.bitsAt (base + 0x18) 32).filter (fun i => !mapped x.blocks i)).map (requestWord 3 1)

/-- Takes units back one by one; it stops at the first that blocks. -/
def State.takeBack (s : State) (k : ClusterId) (t : Slot) (x : Team) : List Word → State × Bool
  | [] => (s, true)
  | w :: ws =>
    if s.launchGrants k t (Request.of w).counts then (s.grantUnits k t (.of w)).takeBack k t x ws
    else (s.launchRequest k t x w, false)

/-- Lanes of a core in a claim record: MIN, MAXL, lots (R190). -/
def State.recordLanes (s : State) (base i : Nat) : Nat × Nat × Nat :=
  let b := fun n => s.readPhys (base + 0x40 + 3 * i + n) 1
  (b 0, b 1, b 2)

/-- Takes a team's lanes back core by core, with their MIN and MAXL; it stops at the first that blocks (R191 step 2). -/
def State.takeLanes (s : State) (k : ClusterId) (t : Slot) (base : Nat) : List (Nat × CoreId) → State × Bool
  | [] => (s, true)
  | (i, c) :: l =>
    let (lo, hi, n) := s.recordLanes base i
    let s1 := s.setCoreAt c { s.coreAt c with minLots := lo, maxLots := hi }
    let need : Counts := ⟨n - (s1.coreAt c).lots, 0, 0, 0⟩
    if s1.launchGrants k t need then (s1.setCoreAt c ((s1.coreAt c).setLots n)).takeLanes k t base l
    else
      let x := s1.cl k
      (s1.setCl k { x with blocked := x.blocked ++ [{ core := corenoOf c, team := t, req := need, kind := .relane n }] }, false)

/-- The lines of some units of `n` bytes in a save slot. -/
def unitLines (base n : Nat) (l : List (Nat × Nat)) : List Nat :=
  l.flatMap fun e => (List.range (n / 64)).map fun i => base + n * e.1 + 64 * i

/-- The lines of a team's spilled units, in the order of their restore (R190). -/
def Team.spilled (x : Team) (base : Nat) : List Nat :=
  unitLines (base + 0x1000) 16384 x.pages ++ unitLines (base + 0x201000) 4096 x.blocks

/-- A list up to its first element that a test picks, that one included. -/
def upTo {α : Type} (p : α → Bool) : List α → List α
  | [] => []
  | a :: l => if p a then [a] else a :: upTo p l

/-- The reads of the TCM images of some cores are counted (R375, R390, notes/assumptions/81). -/
def State.countTcms (s : State) (base : Nat) (cores : List (Nat × CoreId)) : State :=
  cores.foldl (fun (z : State) e => z.countRaw (base + 0x310000 + 0x30000 * e.1) Config.tcmBytes) s

/-- The reads of a restore of a team's units are counted, up to a line that faults: the claim record and the units (R191,
R390, notes/assumptions/81). -/
def State.countSpilled (s : State) (base : Nat) (x : Team) : State :=
  (s.countRaw base 4096).countBuddies (upTo (fun a => (s.rawFault a).isSome) (x.spilled base))

/-- The first fault of a restore of a team's units: a line beyond correction, or one that a tenant has written since (R63,
R190, notes/assumptions/52). -/
def State.restoreFault (s : State) (base : Nat) (x : Team) : Option (BitVec 8) := (x.spilled base).findSome? s.rawFault

/-- Contents of units of a space read back from a save slot, `n` bytes each, over the copy path: whole granules, which
lose their errors (R190, R191 step 3, notes/assumptions/26). -/
def Cluster.unspill (x : Cluster) (m : Mem) (sp : Space) (base n : Nat) : List (Nat × Nat) → Cluster
  | [] => x
  | e :: es => (x.writeSpan sp (e.2 * n) (Memory.readBytes m (base + n * e.1) n)).unspill m sp base n es

/-- The boards of a compute bitmap convert again (R191 step 4). -/
def Cluster.reconvert (x : Cluster) (t : Slot) (kept : List (Nat × Nat × Nat)) : List Nat → Cluster
  | [] => x
  | b :: bs =>
    (match x.boardOf t b, kept.find? (fun (e : Nat × Nat × Nat) => e.1 == b) with
      | some g, some (_, w, sc) =>
        x.setGroup g { x.group g with mode := .converting, width := w, wscale := sc, cmd := none }
      | _, _ => x).reconvert t kept bs

/-- An evicted team takes its units and lanes back, then their contents; then its boards convert (R191). -/
def reacquire (s : State) (k : ClusterId) (t : Slot) (x : Team) : Option State :=
  let base := s.saveBase k x
  if !s.unitsReady k t x || s.homeBusy base Config.slotBytes then none
  else match s.reacquires base x with
  | w :: ws => some (s.takeBack k t x (w :: ws)).1
  | [] =>
    let r := s.takeLanes k t base (s.coresOf k t x)
    if !r.2 then some r.1
    else
      let s1 := r.1
      let c := s1.cl k
      let s2 := s1.countSpilled base x
      match s1.restoreFault base x with
      | some f => some ((s2.countTcms base (s.coresOf k t x)).abortTeam k t (zext f))
      | none =>
      let c1 := (c.unspill s1.mem .spm (base + 0x1000) 16384 x.pages).unspill s1.mem .acc (base + 0x201000) 4096 x.blocks
      some ((s2.setCl k (c1.reconvert t x.boards (s1.bitsAt (base + 0x39) 1))).modTeam k t
        fun y => { y with status := .resuming, boards := [] })

/-- The width of the boards that a progress word names, as the team of a core holds them now (R263, R280). -/
def State.boardWidth (s : State) (c : CoreId) (boards : BitVec 8) : Nat :=
  let x := s.cl (clusterOf c)
  x.widthOf (((s.coreAt c).slot.map fun t => (maskBits boards).filterMap (x.boardOf t)).getD [])

/-- The width of a stopped arr.mmt: as its command `z` had it, whatever became of its boards since (R166, R318). -/
def State.savedWidth (s : State) (c : CoreId) (z : Option Cmd) (boards : BitVec 8) : Nat :=
  match z.map (·.width) with
  | some (w + 1) => w + 1
  | _ => s.boardWidth c boards

/-- A saved entry as a command in its place again, under the number of the command `z` saved there, or a new one; a stopped
arr.mmt covers on what it covered (R280, R284, R316, R318). -/
def State.savedCmd (s : State) (c : CoreId) (e : Engine) (hold : Bool) (a : Nat) (z : Option Cmd) : Option Cmd :=
  let st := s.readPhys (a + 0x25) 1
  let p := s.readPhys (a + 0x20) 4
  let boards := BitVec.ofNat 8 (p / 2 ^ 16)
  let x := newCmd ((z.map (·.seq)).getD s.nextSeq) c e (.ofNat 4 (s.readPhys (a + 0x24) 1)) none (readCmd s.mem a)
  if st = 1 then some { x with place := if hold then .hold else .queue, phase := if hold then .held else .queued }
  else if st = 2 then
    let y := { x with phase := .stopped }
    some (match e, y.copyJob with
      | .arr, _ => { y with row := p % 2 ^ 9, boards := boards, width := s.savedWidth c z boards }
      | .cpy, some _ => { y with row := p % 2 ^ 12, byte := p / 2 ^ 12 }
      | _, _ => { y with row := p % 2 ^ 16 })
  else none

/-- Entries of a save slot queued again, each as the command that was saved there (R318). -/
def State.requeue (s : State) (c : CoreId) (e : Engine) (hold : Bool) : List Nat → List Cmd → State
  | [], _ => s
  | a :: as, zs =>
    (match s.savedCmd c e hold a zs.head? with
      | some x => { s with cmds := s.cmds ++ [x], nextSeq := if zs.isEmpty then s.nextSeq + 1 else s.nextSeq }
      | none => s).requeue c e hold as zs.tail

/-- The reads of a core's saved entries are counted, empty ones too (R279, R390, notes/assumptions/81). -/
def State.countEntries (s : State) (base tcore : Nat) : State :=
  (((s.countRaw (base + 0x301000 + 128 * tcore) 128).countRaw (base + 0x301400 + 128 * tcore) 128).countRaw
    (base + 0x301800 + 128 * tcore) 128).countRaw (base + 0x304000 + 512 * tcore) 512

/-- Every saved entry of a core is queued again in its place (R279, R280, R316, R318). -/
def State.requeueCore (s : State) (base : Nat) (x : Team) (e : Nat × CoreId) : State :=
  let at_ := fun (o step n : Nat) => (List.range n).map fun i => base + o + step * e.1 + 64 * i
  let zs := fun (en : Engine) (p : CmdPlace) =>
    x.saved.filter fun y => y.core == e.2 && y.engine == en && y.place == p
  ((((s.countEntries base e.1).requeue e.2 .arr true (at_ 0x304000 512 8) (zs .arr .hold)).requeue e.2 .arr false
    (at_ 0x301000 128 2) (zs .arr .queue)).requeue e.2 .cpy false (at_ 0x301400 128 2) (zs .cpy .queue))

/-- Inserts a command by its number. -/
def insertCmd (x : Cmd) : List Cmd → List Cmd
  | [] => [x]
  | y :: ys => if x.seq < y.seq then x :: y :: ys else y :: insertCmd x ys

/-- Commands in the order of their issue. -/
def State.orderCmds (s : State) : State := { s with cmds := s.cmds.foldr insertCmd [] }

/-- The address of a core's frame in a save slot (R371). -/
def frameAt (base tcore : Nat) : Nat := base + 0x302000 + 1024 * tcore

/-- TCM and frame of a core restored; a core whose thread had ended takes its place again with its TCM alone (R118,
R316, R317, R375, notes/assumptions/36). -/
def State.restoreCore (s : State) (base : Nat) (x : Team) (e : Nat × CoreId) : State :=
  let k := s.coreAt e.2
  let tcm := Memory.splice (Memory.cells 0 (Memory.readBytes s.mem (base + 0x310000 + 0x30000 * e.1) Config.tcmBytes))
    Config.handlerOffset handlerBytes
  if x.ended.getLsbD e.1 then
    s.setCoreAt e.2 { k with run := .ended, tcm := tcm, itcm := tcm, csr := { k.csr with vlen := 0 } }
  else
    s.setCoreAt e.2 ({ k with tcm := tcm, itcm := tcm }.restored s (frameAt base e.1))

/-- Whether a team's boards still convert. -/
def Cluster.convertingFor (x : Cluster) (t : Slot) : Bool :=
  x.groups.any fun g => g.mode == .converting && g.holder.any (·.1 == t)

/-- Whether a core's frame fails the check of a restore; the frame of an ended thread is not read (R118). -/
def State.badFrame (s : State) (base : Nat) (x : Team) (e : Nat × CoreId) : Bool :=
  !x.ended.getLsbD e.1 && s.frameBad (frameAt base e.1)

/-- The reads of a team's frames are counted, up to one that fails (R118, R390, notes/assumptions/81). -/
def State.countFrames (s : State) (base : Nat) (x : Team) (cores : List (Nat × CoreId)) : State :=
  ((upTo (s.badFrame base x) cores).filter fun e => !x.ended.getLsbD e.1).foldl
    (fun (z : State) e => z.countRaw (frameAt base e.1) 1024) s

/-- A team whose units are back resumes: the frames are checked, then engine entries and cores restored (R118, R318,
R375). DESIGN CHOICE: the frame of a core whose thread had ended, which no handler wrote, is not checked
(notes/assumptions/37). -/
def finishResume (s : State) (k : ClusterId) (t : Slot) (x : Team) : Option State :=
  let base := s.saveBase k x
  let cores := s.coresOf k t x
  if (s.cl k).convertingFor t || s.homeBusy base Config.slotBytes then none
  else
    let s0 := (s.countTcms base cores).countFrames base x cores
    if cores.any (s.badFrame base x) then
      some ((cores.foldl (fun (z : State) e => z.countEntries base e.1) s0).abortTeam k t (zext causePrivilege))
    else
    let cols := x.saved.filter (·.engine == .col)
    let s1 := (cores.foldl (fun (z : State) e => z.requeueCore base x e) { s0 with cmds := s.cmds ++ cols }).orderCmds
    some ((cores.foldl (fun (z : State) e => z.restoreCore base x e) s1).modTeam k t
      fun y => { y with status := .running, saved := [], ended := 0 })

/-- The start, or the next part of the resumption, of a team's threads; on a lost cluster none starts or resumes (R19,
R108, R191, R371, R375). -/
def evThreadStart (k : ClusterId) (t : Slot) (s : State) : Option State :=
  if (s.cl k).status = .lost then none
  else (s.team k t).bind fun x =>
    match x.status with
    | .starting => startTeam s k t x
    | .reacquiring => reacquire s k t x
    | .resuming => finishResume s k t x
    | _ => none

/-- THREAD_START (R397). -/
def execThreadStart (k : ClusterId) (t : Slot) (s : State) : Result := fire s (evThreadStart k t s)

end Sys2Proof.Machine
end

