-- ==== Sys2Proof/Machine/Schedule.lean ====
section
/-! DEFINITION. The decisions of the launch units: resumption, placement by priority, and pre-emption (spec/22
R366-R369, R373, R375, R398). -/

namespace Sys2Proof.Machine

/-! ## Order of service -/

/-- Effective priority of a grid (R366). -/
def Grid.effective (g : Grid) (now : Nat) : Nat := Nat.min 3 (g.pkt.prio.toNat + (now - g.acceptedAt) / Config.agingTurn)

/-- Whether a grid is served: it heads its queue, or has left it with teams unplaced (R367, R372). -/
def State.served (s : State) (g : Grid) : Bool :=
  !g.abandoned && decide (g.placed < g.pkt.teams) &&
  (decide (0 < g.placed) || s.queues.any fun l => l.head? == some g.id)

/-- The first served grid of the highest effective priority, but for those tried that cannot place a team; grids stand in
acceptance order (R367). -/
def State.nextGridToServe (s : State) (tried : List (BitVec 32)) : Option Grid :=
  (s.grids.filter fun g => s.served g && (!tried.contains g.id || ((s.bestCluster g).bind (s.placeOn g)).isSome)).foldl
    (fun best g => match best with
      | none => some g
      | some b => if b.effective s.now < g.effective s.now then some g else some b) none

/-- A grid places teams until one cannot be placed; `fuel` bounds them (R367). -/
def State.placeTeams (s : State) (id : BitVec 32) : (fuel : Nat) → State
  | 0 => s
  | n + 1 =>
    match s.grid id with
    | none => s
    | some g =>
      if g.pkt.teams ≤ g.placed then s
      else match (s.bestCluster g).bind (s.placeOn g) with
      | none => s
      | some s' => s'.placeTeams id n

/-! ## Pre-emption -/

/-- A team and where it is. -/
structure Victim where
  cluster : ClusterId
  slot : Slot
  team : Team

/-- Whether a victim is marked before another: priority ascending, then placement time, the latest first (R373). -/
def Victim.before (a b : Victim) : Bool :=
  decide (a.team.prio < b.team.prio) || (a.team.prio == b.team.prio && decide (b.team.placedAt < a.team.placedAt))

/-- Inserts a victim into a sorted list, behind its equals. -/
def insertVictim (v : Victim) : List Victim → List Victim
  | [] => [v]
  | w :: ws => if v.before w then v :: w :: ws else w :: insertVictim v ws

/-- Whether a running team has been marked before: its threads had all ended then, and its cores stay reserved until they
are free (R113, R398). -/
def State.marked (s : State) (k : ClusterId) (x : Team) : Bool :=
  s.reservations.any fun r => r.cluster == k && r.cores.any x.cores.contains

/-- The candidate victims for a packet priority, in order (R373). -/
def State.victims (s : State) (p : BitVec 2) : List Victim :=
  ((List.finRange 136).flatMap fun k => (s.residentTeams k).filterMap fun e =>
    if e.2.status = .running && decide (e.2.prio < p) && !s.marked k e.2 then some ⟨k, e.1, e.2⟩ else none).foldl
    (fun l v => insertVictim v l) []

/-- Marks victims in order until the cluster of the last one becomes admissible for a grid; that cluster's marked teams
(R373). -/
def State.markVictims (s : State) (g : Grid) : List Victim → (marked : List Victim) → Option (List Victim)
  | [], _ => none
  | v :: vs, marked =>
    let here := v :: marked.filter (·.cluster == v.cluster)
    if s.admits g v.cluster (here.flatMap (·.team.cores)) ((here.filter (·.team.evict)).map (·.slot)) then some here
    else s.markVictims g vs (v :: marked)

/-- Each core of a victim whose thread has not ended is asked (R113, R374). -/
def State.askCores (s : State) (p : BitVec 2) (l : List (Nat × CoreId)) : State :=
  l.foldl (fun z e =>
    let c := z.coreAt e.2
    if c.run = .ended then z else z.setCoreAt e.2 { c with preempt := some p }) s

/-- A victim is pre-empted for a packet priority; one whose threads have all ended runs on to its end (R113, R152, R373,
R374). -/
def State.askVictim (s : State) (p : BitVec 2) (v : Victim) : State :=
  if s.allEnded v.cluster v.slot v.team then s
  else
    (s.askCores p (s.coresOf v.cluster v.slot v.team)).modTeam v.cluster v.slot fun x =>
      { x with status := .preempting, preemptedAt := s.now }

/-- Whether a pre-emption for a grid is under way: a cluster that it has reserved will admit its next team once its
victims' cores are free, those of teams whose threads have all ended among them (R113, R398). -/
def State.preemptingFor (s : State) (g : Grid) : Bool :=
  s.reservations.any fun r => r.grid == g.id &&
    let going := (s.residentTeams r.cluster).filter fun e => e.2.status == .preempting || s.allEnded r.cluster e.1 e.2
    !going.isEmpty &&
    s.admits g r.cluster (going.flatMap fun e => e.2.cores) ((going.filter (·.2.evict)).map (·.1))

/-- A grid that could not place its next team pre-empts, and reserves the cores (R373, R398). While a pre-emption that
will place the team is under way it asks for no other (notes/assumptions/22). -/
def State.preemptFor (s : State) (id : BitVec 32) : State :=
  match s.grid id with
  | none => s
  | some g =>
    if g.pkt.teams ≤ g.placed || s.preemptingFor g then s
    else match s.markVictims g (s.victims g.pkt.prio) [] with
    | none | some [] => s
    | some (v :: vs) =>
      let all := v :: vs
      let r : Reservation := { grid := id, cluster := v.cluster,
                               cores := s.usableCores v.cluster id ++ all.flatMap (·.team.cores) }
      all.foldl (fun z w => z.askVictim g.pkt.prio w) { s with reservations := s.reservations ++ [r] }

/-- Served grids take their turns; `fuel` bounds them: each grid's first, and those in which one tried before places a team
after all (R367). -/
def State.serve (s : State) (tried : List (BitVec 32)) : (fuel : Nat) → State
  | 0 => s
  | n + 1 =>
    match s.nextGridToServe tried with
    | none => s
    | some g => ((s.placeTeams g.id (g.pkt.teams - g.placed)).preemptFor g.id).serve (g.id :: tried) n

/-! ## Resumption -/

/-- Whether a served grid of higher effective priority could place a team on a team's cores (R375). -/
def State.outranked (s : State) (k : ClusterId) (x : Team) : Bool :=
  s.grids.any fun g => s.served g && decide (x.prio.toNat < g.effective s.now) && s.admits g k [] [] &&
    ((s.usableCores k g.id).take g.pkt.cores).any x.cores.contains

/-- Whether a pre-empted team can resume (R375). -/
def State.canResume (s : State) (k : ClusterId) (x : Team) : Bool :=
  (x.status == .preempted || x.status == .evicted) && (s.cl k).status == .active &&
  x.cores.all (fun n => (s.freeCores k).contains n) &&
  !s.reservations.any (fun r => r.cluster == k && r.cores.any x.cores.contains) && !s.outranked k x

/-- The team that resumes first: the oldest pre-emption (R367). -/
def State.nextResume (s : State) : Option Victim :=
  ((List.finRange 136).flatMap fun k => (List.finRange 8).filterMap fun t =>
    (s.team k t).bind fun x => if s.canResume k x then some (⟨k, t, x⟩ : Victim) else none).foldl
    (fun best v => match best with
      | none => some v
      | some b => if v.team.preemptedAt < b.team.preemptedAt then some v else some b) none

/-- Pre-empted teams resume, the oldest first; `fuel` bounds them (R367 step 1). -/
def State.resumeAll (s : State) : (fuel : Nat) → State
  | 0 => s
  | n + 1 =>
    match s.nextResume with
    | none => s
    | some v => (s.resumeTeam v.cluster v.slot v.team).resumeAll n

/-- One decision of the launch units (R367). -/
def evSchedulingDecision (s : State) : Option State :=
  let s1 := s.resumeAll 1088
  some (s1.serve [] (s1.grids.length + 1088))

/-- SCHEDULING_DECISION (R367). -/
def execSchedulingDecision (s : State) : Result := fire s (evSchedulingDecision s)

end Sys2Proof.Machine
end

