-- ==== Sys2Proof/Machine/Resilience.lean ====
section
/-! DEFINITION. Failures of clusters, banks and channels and their spares, sleeping stacks, and throttling (spec/01
R18-R19, spec/19 R333-R334, spec/23 R390-R392). -/

namespace Sys2Proof.Machine

/-! ## Clusters -/

/-- The logical ids of a die that no active cluster holds, ascending (R391). -/
def State.lostIds (s : State) (d : DieId) : List Nat :=
  ((List.range 32).map (32 * d.val + ·)).filter fun l => (s.holderOf l).isNone

/-- The physical clusters of a die with a status, ascending. -/
def State.clustersWith (s : State) (d : DieId) (st : ClusterStatus) : List ClusterId :=
  (List.finRange 136).filter fun k => dieOfCluster k == d && (s.cl k).status == st

/-- Spares of a die are tested, one for each lost id, once takeovers are allowed; `fuel` bounds them (R19, R390). DESIGN
CHOICE: the spare of the lowest physical number is tested first (notes/assumptions/77). -/
def State.testSpares (s : State) (d : DieId) : (fuel : Nat) → State
  | 0 => s
  | n + 1 =>
    match s.clustersWith d .spare with
    | [] => s
    | k :: _ =>
      if s.spctl && decide ((s.clustersWith d .testing).length < (s.lostIds d).length) then
        (s.setCl k { s.cl k with status := .testing, testSince := s.now }).testSpares d n
      else s

/-- The cores of a lost cluster's teams are to take CLUSTER_LOST (R108). -/
def State.loseCores (s : State) (k : ClusterId) (id : Word) : State :=
  (List.finRange 8).foldl (fun z n =>
    let c := coreOf k n
    if (z.coreAt c).slot.isSome then z.setCoreAt c { z.coreAt c with lost := some id } else z) s

/-- An active cluster fails: its teams are lost, and spares are tested (R19, R108, R390). -/
def State.loseCluster (s : State) (k : ClusterId) : State :=
  let id : Word := zext (s.logicalId k)
  let x := s.cl k
  let teams := x.teams.map fun o => o.map fun (t : Team) => { t with fatal := some (causeClusterLost, id) }
  ((({ s with reservations := s.reservations.filter (·.cluster != k) }).setCl k
    { x with status := .lost, teams := teams }).loseCores k id).testSpares (dieOfCluster k) 2

/-- A cluster fails: an active one loses its id, a spare is no longer one (R19, R390). -/
def evClusterFailure (k : ClusterId) (s : State) : Option State :=
  match (s.cl k).status with
  | .lost => none
  | .active => some (s.loseCluster k)
  | _ => some ((s.setCl k { s.cl k with status := .lost }).testSpares (dieOfCluster k) 2)

/-- CLUSTER_FAILURE (R19). -/
def execClusterFailure (k : ClusterId) (s : State) : Result := fire s (evClusterFailure k s)

/-- The cores of a cluster at their reset state. -/
def State.resetCores (s : State) (k : ClusterId) : State :=
  (List.finRange 8).foldl (fun z n => z.setCoreAt (coreOf k n) .reset) s

/-- A spare's test ends: passed, it takes a lost id of its die; failed, it is lost and the next is tested (R19, R390).
DESIGN CHOICE: of several lost ids it takes the lowest (notes/assumptions/77). -/
def evSpareTestDone (k : ClusterId) (passed : Bool) (s : State) : Option State :=
  let x := s.cl k
  let d := dieOfCluster k
  if x.status ≠ .testing || decide (s.now < x.testSince + Config.spareTestCycles) then none
  else if passed then
    match s.lostIds d with
    | [] => some (s.setCl k { x with status := .spare })
    | l :: _ => some ((s.setCl k { Cluster.reset k.val with status := .active, logical := some (.ofNat 7 l) }).resetCores k)
  else some ((s.setCl k { x with status := .lost }).testSpares d 2)

/-- SPARE_TEST_DONE (R390). -/
def execSpareTestDone (k : ClusterId) (passed : Bool) (s : State) : Result := fire s (evSpareTestDone k passed s)

/-! ## Banks -/

/-- The service core of a cluster's quadrant (R9). -/
def State.serviceOfCluster (s : State) (k : ClusterId) : ServiceId := s.serviceOf (coreOf k 0)

/-- The BANK_REBUILT message of a bank (R383, R390). -/
def State.reportBank (s : State) (k : ClusterId) (g bank : Slot) : State :=
  s.report (s.serviceOfCluster k) 3 (Config.bankWord ((s.logicalId k).toNat) g.val bank.val)

/-- A bank fails: it is copied onto its group's spare, or, where that is in use, the cluster is lost. With SPCTL = 0 the
failure is only reported, and waits (R390, notes/assumptions/38). -/
def evBankRebuildStart (k : ClusterId) (g bank : Slot) (s : State) : Option State :=
  let x := s.cl k
  let grp := x.group g.val
  if x.status ≠ .active || grp.rebuilding.contains bank then none
  else if grp.spare.isSome || (s.spctl && !grp.rebuilding.isEmpty) then some (s.loseCluster k)
  else
    let s1 := s.setCl k (x.setGroup g.val { grp with rebuilding := grp.rebuilding ++ [bank] })
    some (if s.spctl then s1 else s1.reportBank k g bank)

/-- BANK_REBUILD_START (R390). -/
def execBankRebuildStart (k : ClusterId) (grp bank : Slot) (s : State) : Result := fire s (evBankRebuildStart k grp bank s)

/-- The spare bank takes over (R390). -/
def evBankRebuilt (k : ClusterId) (g : Slot) (s : State) : Option State :=
  let x := s.cl k
  let grp := x.group g.val
  match grp.rebuilding with
  | [] => none
  | b :: _ =>
    if !s.spctl || x.status ≠ .active then none
    else some ((s.setCl k (x.setGroup g.val { grp with rebuilding := [], spare := some b })).reportBank k g b)

/-- BANK_REBUILT (R390). -/
def execBankRebuilt (k : ClusterId) (grp : Slot) (s : State) : Result := fire s (evBankRebuilt k grp s)

/-- Whether two banks of one group of a cluster wait for its spare. -/
def Cluster.spareShort (x : Cluster) : Bool := x.status == .active && x.groups.any fun g => decide (2 ≤ g.rebuilding.length)

/-- The takeovers that wait start: spares are tested, and a cluster in which the spare of a group would have to stand
for two banks is lost (R390). -/
def State.startTakeovers (s : State) : State :=
  let lost := (List.finRange 136).filter fun k => (s.cl k).spareShort
  (List.finRange 4).foldl (fun (z : State) d => z.testSpares d 2) (lost.foldl (fun (z : State) k => z.loseCluster k) s)

/-! ## Channels -/

/-- A stack replaced. -/
def State.setStack (s : State) (st : StackId) (x : Stack) : State := { s with hbm := s.hbm.set st.val x st.isLt }

/-- The service core that a stack reports to (R334, R390). -/
def serviceOfStack (st : StackId) : ServiceId := ⟨st.val / 2 * 4, by omega⟩

/-- The CHANNEL_RETIRED message of a channel (R383, R390). -/
def State.reportChannel (s : State) (st : StackId) (ch : BitVec 5) (withdrawn : Bool) : State :=
  s.report (serviceOfStack st) 4
    (Config.channelWord st.val ch.toNat &&& ~~~(0x100 : Word) ||| if withdrawn then 0x100 else 0)

/-- No further team of a FULLCH grid is placed (R372). -/
def State.abandonFull (s : State) : State :=
  let gone := fun (g : Grid) => g.pkt.fullch && decide (g.placed < g.pkt.teams)
  let ids := (s.grids.filter gone).map (·.id)
  { s with
    grids := s.grids.map fun g => if gone g then { g with abandoned := true } else g,
    queues := s.queues.map fun (l : List (BitVec 32)) => l.filter (!ids.contains ·),
    reservations := s.reservations.filter fun r => !ids.contains r.grid }

/-- A channel fails, or the spare that stands for it: with a spare left its lines are copied; without one it is
narrowed, and then withdrawn (R390). With SPCTL = 0 a failure that a spare would take is only reported, and waits. -/
def evChannelFailure (st : StackId) (ch : BitVec 5) (s : State) : Option State :=
  let x := s.hbm[st]
  if x.failing.contains ch || x.withdrawn.contains ch then none
  else if x.failing.length < x.spares then
    let s1 := s.setStack st { x with failing := x.failing ++ [ch] }
    some (if s.spctl then s1 else s1.reportChannel st ch false)
  else if x.narrowed.contains ch then
    some ((s.setStack st { x with withdrawn := ch :: x.withdrawn }).reportChannel st ch true)
  else some ((s.setStack st { x with narrowed := ch :: x.narrowed }).reportChannel st ch false).abandonFull

/-- CHANNEL_FAILURE (R390). -/
def execChannelFailure (st : StackId) (ch : BitVec 5) (s : State) : Result := fire s (evChannelFailure st ch s)

/-- The copy of a retired channel's lines ends: the lines that can be read go over, the others keep their error
(R390). -/
def evChannelRetired (st : StackId) (s : State) : Option State :=
  let x := s.hbm[st]
  match x.failing with
  | [] => none
  | ch :: rest =>
    if !s.spctl then none
    else
      let y := { x with failing := rest, retired := ch :: x.retired.filter (· != ch), spares := x.spares - 1 }
      some ((s.setStack st y).reportChannel st ch false).abandonFull

/-- CHANNEL_RETIRED (R390). -/
def execChannelRetired (st : StackId) (s : State) : Result := fire s (evChannelRetired st s)

/-- RESST (R391); 0 until bring-up has run (notes/assumptions/31). -/
def State.resst (s : State) : Word :=
  if s.power = .bringUp then 0
  else
    let chret := ((List.finRange 8).map fun st => if (s.hbm[st]).chret then 2 ^ st.val else 0).foldl (· + ·) 0
    let spch := ((List.finRange 8).map fun st => (s.hbm[st]).spares * 4 ^ st.val).foldl (· + ·) 0
    let spcl := ((List.finRange 4).map fun d =>
      ((s.clustersWith d .spare).length + (s.clustersWith d .testing).length) * 4 ^ d.val).foldl (· + ·) 0
    let lost := ((List.finRange 4).map fun d => (s.lostIds d).length).foldl (· + ·) 0
    .ofNat 64 (chret * 2 ^ 32 + spch * 2 ^ 16 + spcl * 2 ^ 8 + lost)

/-! ## Stacks and power -/

/-- A stack enters self-refresh (R334). -/
def evStackSelfRefresh (st : StackId) (s : State) : Option State :=
  let x := s.hbm[st]
  if x.asleepSince.isSome then none else some (s.setStack st { x with asleepSince := some s.now, reported := false })

/-- STACK_SELF_REFRESH (R334). -/
def execStackSelfRefresh (st : StackId) (s : State) : Result := fire s (evStackSelfRefresh st s)

/-- After 1 ms asleep a stack is reported, once (R334). -/
def evMemoryStall (st : StackId) (s : State) : Option State :=
  let x := s.hbm[st]
  match x.asleepSince with
  | none => none
  | some t =>
    if x.reported || decide (s.now < t + Config.stallReportCycles) then none
    else some ((s.setStack st { x with reported := true }).report (serviceOfStack st) 2 (.ofNat 64 st.val))

/-- MEMORY_STALL (R334). -/
def execMemoryStall (st : StackId) (s : State) : Result := fire s (evMemoryStall st s)

/-- A stack wakes; after 1 ms asleep it is reported, where it has not been, and reported again with bit 8 set (R334). -/
def evStackWake (st : StackId) (s : State) : Option State :=
  let x := s.hbm[st]
  x.asleepSince.map fun t =>
    let s1 := s.setStack st { x with asleepSince := none, reported := false }
    let long := x.reported || decide (t + Config.stallReportCycles ≤ s.now)
    let s2 := if long && !x.reported then s1.report (serviceOfStack st) 2 (.ofNat 64 st.val) else s1
    if long then s2.report (serviceOfStack st) 2 (.ofNat 64 (256 + st.val)) else s2

/-- STACK_WAKE (R334). -/
def execStackWake (st : StackId) (s : State) : Result := fire s (evStackWake st s)

/-- PAGE_PRECHARGE: the page policy changes timing only (R333, notes/assumptions/16). -/
def execPagePrecharge (_st : StackId) (s : State) : Result := .next s

/-- POWER_THROTTLE: the array sequencers may withhold row grants (R392). -/
def execPowerThrottle (s : State) : Result := .next { s with throttled := true }

/-- THROTTLE_END (R392). -/
def execThrottleEnd (s : State) : Result := .next { s with throttled := false }

end Sys2Proof.Machine
end

