-- ==== Sys2Proof/Machine/Host.lean ====
section
/-! DEFINITION. The register space, host queues, semaphores, buffers, and host windows (spec/23 R377-R386). -/

namespace Sys2Proof.Machine

/-! ## Registers -/

/-- A register of BAR0 by its offset (R377). -/
inductive Reg where
  | hqdoor (q : Fin 32)
  | hqres (q : Fin 32)
  | hqasid (q : Fin 32)
  | hsem (n : Fin 64)
  /-- Register `r` of a die's configuration block, but for CLOAD and CFGREJ. -/
  | die (d : DieId) (r : Nat)
  | cload (d : DieId) (n : Nat)
  | cfgrej (d : DieId)
  | fabid
  | bufctl
  | resst
  | affmiss
  | frzcmd
  | pwrcap
  | spctl
  | hdm (e : Fin 32)
  | asidpt (a : BitVec 12)
  | mbcmd
  | mbstat
  | mbbuf (o : Nat)
  | unassigned
  deriving DecidableEq, Repr

/-- A register of a die's configuration block (R309, R333, R370, R377). -/
def dieReg (d : DieId) (r : Nat) : Reg :=
  if r = 0x200 then .cfgrej d
  else if 0x100 ≤ r ∧ r < 0x200 then .cload d ((r - 0x100) / 8)
  else if r ≤ 0x30 ∨ r = 0x40 ∨ r = 0x48 ∨ r = 0x80 ∨ r = 0x88 then .die d r
  else .unassigned

/-- A register of the package configuration (R382). -/
def packageReg (r : Nat) : Reg :=
  match r with
  | 0x00 => .fabid
  | 0x08 => .bufctl
  | 0x10 => .resst
  | 0x18 => .affmiss
  | 0x20 => .frzcmd
  | 0x28 => .pwrcap
  | 0x30 => .spctl
  | _ => .unassigned

/-- A register of a host queue page (R378). -/
def queueReg (q : Fin 32) (r : Nat) : Reg :=
  if r = 0 then .hqdoor q else if r = 8 then .hqres q else if r = 16 then .hqasid q else .unassigned

/-- The register at an offset that is a multiple of 8 (R377). -/
def regAt (off : Nat) : Reg :=
  if h : off < 0x20000 then queueReg ⟨off / 4096, by omega⟩ (off % 4096)
  else if 0x100000 ≤ off ∧ off < 0x100200 then .hsem ⟨(off - 0x100000) / 8 % 64, by omega⟩
  else if 0x200000 ≤ off ∧ off < 0x240000 then dieReg ⟨(off - 0x200000) / 65536 % 4, by omega⟩ ((off - 0x200000) % 65536)
  else if 0x300000 ≤ off ∧ off < 0x301000 then packageReg (off - 0x300000)
  else if 0x301000 ≤ off ∧ off < 0x301100 then .hdm ⟨(off - 0x301000) / 8 % 32, by omega⟩
  else if 0x310000 ≤ off ∧ off < 0x318000 then .asidpt (.ofNat 12 ((off - 0x310000) / 8))
  else if off = 0x400000 then .mbcmd
  else if off = 0x400008 then .mbstat
  else if 0x401000 ≤ off ∧ off < 0x402000 then .mbbuf (off - 0x401000)
  else .unassigned

/-- OWNER of a requester (R379). -/
def ownerCode : Requester → Nat
  | .port p => p.val
  | .service v => 16 + v.val

/-- A semaphore register (R379). -/
def semWord : Option Requester → Word
  | none => 0
  | some r => .ofNat 64 (2 ^ 63 + ownerCode r)

/-- Register `r` of a die's block as it reads (R309, R333, R370). -/
def DieRegs.read (x : DieRegs) (r : Nat) : Word :=
  match r with
  | 0x00 => x.tmfbase
  | 0x08 => zext x.tmfhead
  | 0x10 => zext x.tmftail
  | 0x18 => x.tmdbase
  | 0x20 => zext x.tmdhead
  | 0x28 => zext x.tmdtail
  | 0x30 => x.tmstat
  | 0x40 => zext x.pgidle0
  | 0x48 => zext x.pgidle1
  | 0x80 => x.lsbase
  | 0x88 => zext x.lscount
  | _ => 0

/-- HQRES (R378). -/
def HostQueue.res (h : HostQueue) : Word :=
  (ofBool h.busy <<< 63) ||| (ofBool h.refused <<< 62) ||| (ofBool h.lost <<< 61) ||| zext h.result

/-- An HDM window's entry (R384). -/
def Hdm.word (h : Hdm) : Word := (ofBool h.en <<< 63) ||| (zext h.asid <<< 48) ||| (zext h.vbase <<< 16)

/-- What a register reads (R377-R388). -/
def State.readReg (s : State) : Reg → Word
  | .hqdoor _ | .frzcmd | .mbcmd | .unassigned => 0
  | .hqres q => (s.hostq[q]).res
  | .hqasid q => zext (s.hostq[q]).asid
  | .hsem n => semWord (s.hsem[n])
  | .die d r => (s.dies[d]).read r
  | .cload d n => s.cload d n
  | .cfgrej d => zext (s.dies[d]).cfgrej
  | .fabid => zext s.fabid
  | .bufctl => (zext s.bufctl.buf <<< 52) ||| (zext s.bufctl.asid <<< 32) ||| (ofBool s.bufctl.busy <<< 1)
  | .resst => s.resst
  | .affmiss => s.affmiss
  | .pwrcap => zext s.pwrcap
  | .spctl => ofBool s.spctl
  | .hdm e => (s.hdm[e]).word
  | .asidpt a => (s.tenant a).pt
  | .mbstat => (ofBool s.mailbox.busy.isSome <<< 63) ||| zext s.mailbox.status
  | .mbbuf o => Memory.read64 s.mailbox.buffer o

/-! ## Guards -/

/-- The semaphore that guards a register (R380). -/
def Reg.guard : Reg → Option (Fin 64)
  | .die _ r => if r = 0x80 ∨ r = 0x88 then some 0 else some 1
  | .hqasid _ | .hdm _ | .asidpt _ | .bufctl | .mbcmd => some 2
  | .fabid => some 3
  | .pwrcap | .spctl => some 4
  | _ => none

/-- The die whose CFGREJ counts a discarded write of a register (R381, notes/assumptions/40). -/
def Reg.countDie : Reg → DieId
  | .die d _ => d
  | _ => 0

/-- A discarded write is counted; the count stays at its greatest value (R381). -/
def State.countReject (s : State) (d : DieId) : State :=
  let r := s.dies[d]
  s.setDie d { r with cfgrej := if r.cfgrej = 0xFFFFFFFF then r.cfgrej else r.cfgrej + 1, rejAt := some s.now }

/-- A write that the guard of a register turns away: a port's completes with Completer Abort (R20), a service core's
counts at the core's die too, where that is another (R380, R381, notes/assumptions/40). -/
def State.rejectWrite (s : State) (who : Requester) (d : DieId) : State :=
  let s' := s.countReject d
  match who with
  | .port p => { s' with hostAbort := s'.hostAbort.set p.val true p.isLt }
  | .service v =>
    let own : DieId := ⟨v.val / 4, by omega⟩
    if own = d then s' else s'.countReject own

/-- Whether a requester holds a semaphore (R379). -/
def State.holds (s : State) (who : Requester) (n : Fin 64) : Bool := s.hsem[n] == some who

/-- Whether a requester may write a guarded register: it holds the semaphore, and a die's block is for service cores
only (R20, R309, R333, R370, notes/assumptions/40). -/
def State.mayConfigure (s : State) (who : Requester) (r : Reg) : Bool :=
  r.guard.all (s.holds who) &&
  match r, who with
  | .die _ _, .port _ => false
  | _, _ => true

/-- Registers that act when written, only on an 8-byte write (R377). -/
def Reg.acts : Reg → Bool
  | .hqdoor _ | .hsem _ | .bufctl | .cfgrej _ | .frzcmd | .mbcmd => true
  | _ => false

/-- Registers that ones clear (R309, R382). -/
def Reg.onesClear : Reg → Bool
  | .die _ r => r == 0x30
  | .affmiss => true
  | _ => false

/-! ## Semaphores -/

/-- How recently a requester was granted: 0 the latest; those never granted come after all, so they win (R379). -/
def State.grantAge (s : State) (r : Requester) : Nat := s.hsemOrder.idxOf r

/-- The winner among takes of one cycle: granted least recently, then the lowest OWNER code (R379). -/
def State.takeWinner (s : State) (takers : List Requester) : Option Requester :=
  takers.foldl (fun best r => match best with
    | none => some r
    | some b =>
      if s.grantAge b < s.grantAge r || (s.grantAge b == s.grantAge r && decide (ownerCode r < ownerCode b)) then some r
      else some b) none

/-- Takes of one cycle on a semaphore (R379). -/
def State.takeSem (s : State) (n : Fin 64) (takers : List Requester) : State :=
  match s.hsem[n], s.takeWinner takers with
  | none, some r =>
    { s with hsem := s.hsem.set n.val (some r) n.isLt, hsemOrder := r :: s.hsemOrder.filter (· != r) }
  | _, _ => s

/-- A release of a semaphore by its holder (R379). -/
def State.releaseSem (s : State) (n : Fin 64) (who : Requester) : State :=
  if s.holds who n then { s with hsem := s.hsem.set n.val none n.isLt } else s

/-- Every semaphore of a requester is released (R379). -/
def State.dropSems (s : State) (who : Requester) : State :=
  { s with hsem := s.hsem.map fun o => if o == some who then none else o }

/-! ## Writes -/

/-- A doorbell at a step: a packet's address, or, while BUSY, nothing but LOST (R378). -/
def HostQueue.ring (h : HostQueue) (v : Word) (step : Nat) : HostQueue :=
  if h.busy then { h with lost := true }
  else { h with door := v &&& 0x0000FFFFFFFFFFC0, rung := step, busy := true, lost := false }

/-- CFGREJ cleared: 1 where a write was counted in the same cycle (R381). -/
def DieRegs.clearRej (x : DieRegs) (now : Nat) : DieRegs := { x with cfgrej := if x.rejAt = some now then 1 else 0 }

/-- Register `r` of a die's block written; ones clear TMSTAT, and read-only registers keep their value (R309, R333,
R370). -/
def DieRegs.write (x : DieRegs) (r : Nat) (v : Word) : DieRegs :=
  match r with
  | 0x00 => { x with tmfbase := v &&& 0x0000FFFFFFFFE000 }
  | 0x08 => { x with tmfhead := bits v 0 10 }
  | 0x18 => { x with tmdbase := v &&& 0x0000FFFFFFFFC000 }
  | 0x28 => { x with tmdtail := bits v 0 10 }
  | 0x30 => { x with tmstat := x.tmstat &&& ~~~v }
  | 0x40 => { x with pgidle0 := bits v 0 16 }
  | 0x48 => { x with pgidle1 := bits v 0 16 }
  | 0x80 => { x with lsbase := v &&& 0x0000FFFFFF800000 }
  | 0x88 => { x with lscount := bits v 0 16 }
  | _ => x

/-- A written PWRCAP, kept within 400 to 1,800 (R382). -/
def capOf (v : Word) : BitVec 11 :=
  let n := (bits v 0 11).toNat
  if n < 400 then 400 else if 1800 < n then 1800 else bits v 0 11

/-- FABID is written unless a group of a fabric mask is declared, which counts as discarded (R382). -/
def State.writeFabid (s : State) (v : Word) : State :=
  if s.clusters.any fun x => x.coll.any (·.fab != 0) then s.countReject 0 else { s with fabid := bits v 0 5 }

/-- Whether a map operation is an access to a buffer. -/
def MapOp.uses (o : MapOp) (b : BitVec 12) : Bool := o.result.isNone && (o.buf == b || o.under.any (·.buf == b))

/-- Whether an access to a buffer that was accepted before a step has not been performed: a load, a store past its first
queue, a shipped or map operation (R52, R386). -/
def State.bufferBusy (s : State) (b : BitVec 12) (since : Nat) : Bool :=
  let old := fun (u : Seal) (stamp : Nat) => u.buf == b && decide (stamp < since)
  s.cores.any (fun k => match k.wait with
    | .load ld => old ld.under ld.stamp
    | _ => false) ||
  s.transit.any (fun t => match t.item with
    | .store _ u | .copy _ u => old u t.stamp
    | .ship o => old o.under o.stamp
    | .map o => o.uses b && decide (o.stamp < since)
    | .loadMark => false) ||
  s.ships.any (fun o => o.result.isNone && old o.under o.stamp) ||
  s.mapOps.any fun o => o.uses b && decide (o.stamp < since)

/-- BUFCTL is written: its fields, and with GO the assignment starts. One that would wrap the version is discarded, as
is a write while BUSY, and both are counted (R381, R386, notes/assumptions/41). -/
def State.writeBufctl (s : State) (v : Word) : State :=
  let b := bits v 52 12
  let full := s.bufctl.dead.contains b || (s.buffer b).version == 0xFFFFFFFF
  if s.bufctl.busy then s.countReject 0
  else if !v.getLsbD 0 then { s with bufctl := { s.bufctl with buf := b, asid := bits v 32 12 } }
  else if full then { s with bufctl := { s.bufctl with dead := b :: s.bufctl.dead } }.countReject 0
  else { s with bufctl := { s.bufctl with buf := b, asid := bits v 32 12, busy := true, since := s.tick } }

/-- SPCTL is written; a 1 starts the takeovers that wait (R382, R390). -/
def State.writeSpctl (s : State) (v : Word) : State :=
  if v.getLsbD 0 then { s with spctl := true }.startTakeovers else { s with spctl := false }

/-- A freeze is asked for; an earlier request stands (R393). -/
def State.askFreeze (s : State) : State := { s with freezeAsked := some (s.freezeAsked.getD s.now) }

/-- The mailbox buffer takes a doubleword (R388). -/
def State.writeMbbuf (s : State) (o : Nat) (v : Word) : State :=
  { s with mailbox := { s.mailbox with buffer := Memory.write64 s.mailbox.buffer o v } }

/-- Entries 128-255 of the routine table as hashed: valid bits, then every step; an entry never loaded counts as
zeros (R389). -/
def State.routineImage (s : State) : List Byte :=
  let es := (List.range 128).map fun i => s.routine (.ofNat 8 (128 + i))
  leBytes 16 (leBits (es.map fun r => r.any (·.valid))) ++
  es.flatMap fun r => match r with
    | some x => x.steps.flatMap fun w => leBytes 8 w.toNat
    | none => List.replicate 512 0
where
  leBits : List Bool → Nat
    | [] => 0
    | b :: bs => (if b then 1 else 0) + 2 * leBits bs

/-- A mailbox command starts: 1 attest, 2 key load, 3 key clear, and no other; one while BUSY is discarded and counted
(R381, R388). An attest takes the routine table as it stands (R389). -/
def State.startMailbox (s : State) (v : Word) : State :=
  if s.mailbox.busy.isSome then s.countReject 0
  else if v.toNat = 0 ∨ 3 < v.toNat then s
  else { s with mailbox := { s.mailbox with busy := some (bits v 0 2), image := sha3 s.routineImage } }

/-- What a write of a whole register does, its guard passed (R377-R388). -/
def State.applyReg (s : State) (who : Requester) (v : Word) : Reg → State
  | .hqdoor q => { s with hostq := s.hostq.set q.val ((s.hostq[q]).ring v s.tick) q.isLt }
  | .hqasid q => { s with hostq := s.hostq.set q.val { s.hostq[q] with asid := bits v 0 12 } q.isLt }
  | .hsem n => if v.getLsbD 0 then s.takeSem n [who] else s.releaseSem n who
  | .die d r => s.setDie d ((s.dies[d]).write r v)
  | .cfgrej d => if v.getLsbD 63 then s.setDie d ((s.dies[d]).clearRej s.now) else s
  | .fabid => s.writeFabid v
  | .bufctl => s.writeBufctl v
  | .affmiss => { s with affmiss := s.affmiss &&& ~~~v }
  | .frzcmd => if v.getLsbD 0 then s.askFreeze else s
  | .pwrcap => { s with pwrcap := capOf v }
  | .spctl => s.writeSpctl v
  | .hdm e => { s with hdm := s.hdm.set e.val ⟨v.getLsbD 63, bits v 48 12, bits v 16 32⟩ e.isLt }
  | .asidpt a => s.setTenant a { s.tenant a with pt := v &&& 0x0000FFFFFFFFF800 }
  | .mbbuf o => s.writeMbbuf o v
  | .mbcmd => s.startMailbox v
  | .hqres _ | .cload _ _ | .resst | .mbstat | .unassigned => s

/-- The value that a 4-byte write of half a register makes (R377). -/
def State.mergeHalf (s : State) (r : Reg) (upper : Bool) (v : Word) : Word :=
  let old := if r.onesClear then 0 else s.readReg r
  let half : Word := zext (bits v 0 32)
  if upper then (old &&& 0xFFFFFFFF) ||| (half <<< 32) else (old &&& 0xFFFFFFFF00000000) ||| half

/-- A write of a whole register: discarded and counted where its guard turns it away (R20, R380, R381). -/
def State.writeWhole (s : State) (who : Requester) (r : Reg) (v : Word) : State :=
  if s.mayConfigure who r then s.applyReg who v r else s.rejectWrite who r.countDie

/-- A write of half a register that acts only on whole ones is discarded; at BUFCTL and MBCMD it is counted (R377,
R381). -/
def State.writeHalf (s : State) (who : Requester) (r : Reg) (upper : Bool) (v : Word) : State :=
  if !r.acts then s.writeWhole who r (s.mergeHalf r upper v)
  else if r.guard.isNone then s
  else if s.mayConfigure who r then s.countReject 0
  else s.rejectWrite who 0

/-- Whether the register space answers a requester at an offset: its link is up and bring-up has ended; in recovery only
the mailbox answers (R392, R393). -/
def State.answers (s : State) (who : Requester) (off : Nat) : Bool :=
  (match who with
    | .port p => s.hostLinks[p]
    | .service _ => true) &&
  match s.power with
  | .bringUp => false
  | .running => true
  | .recovery => decide (0x400000 ≤ off)

/-- A port's write completes, so far without Completer Abort (R20). -/
def State.completing (s : State) : Requester → State
  | .port p => { s with hostAbort := s.hostAbort.set p.val false p.isLt }
  | .service _ => s

/-- A write of `size` bytes to the register space (R377). -/
def State.regWrite (s : State) (who : Requester) (off size : Nat) (v : Word) : State :=
  if !s.answers who off then s
  else if size = 8 ∧ off % 8 = 0 then (s.completing who).writeWhole who (regAt off) v
  else if size = 4 ∧ off % 4 = 0 then (s.completing who).writeHalf who (regAt (off / 8 * 8)) (off % 8 == 4) v
  else s.completing who

/-- What a requester reads in a register: a port reads zero in the tier manager's, which only service cores reach (R309,
notes/assumptions/40). -/
def State.readFor (s : State) (who : Requester) (r : Reg) : Word :=
  match r, who with
  | .die _ n, .port _ => if n ≤ 0x30 then 0 else s.readReg r
  | _, _ => s.readReg r

/-- A read of `size` bytes of the register space: a register or half of one, and zero of any other size or offset
(R377). -/
def State.regRead (s : State) (who : Requester) (off size : Nat) : State :=
  let w := s.readFor who (regAt (off / 8 * 8))
  let v : Word :=
    if size = 8 ∧ off % 8 = 0 then w
    else if size = 4 ∧ off % 4 = 0 then zext (bits w (if off % 8 = 4 then 32 else 0) 32) else 0
  { s with regReply := if s.answers who off then some v else none }

/-- CONFIG_REGISTER_WRITE (R377, R380). -/
def execConfigRegisterWrite (who : Requester) (off : BitVec 26) (size : BitVec 4) (v : Word) (s : State) : Result :=
  .next (s.regWrite who off.toNat size.toNat v)

/-- BUFCTL_GO (R386). -/
def execBufctlGo (who : Requester) (v : Word) (s : State) : Result := .next (s.regWrite who 0x300008 8 (v ||| 1))

/-- BUFFER_ASSIGN_DONE: once every access to the buffer that was accepted before the write is performed, its owner and
version change, and BUSY clears (R386, notes/assumptions/41). -/
def evBufferAssignDone (s : State) : Option State :=
  let b := s.bufctl.buf
  if !s.bufctl.busy || s.bufferBusy b s.bufctl.since then none
  else some { s with bufctl := { s.bufctl with busy := false },
                     buffers := update s.buffers b ⟨s.bufctl.asid, (s.buffer b).version + 1⟩ }

/-- BUFFER_ASSIGN_DONE (R386). -/
def execBufferAssignDone (s : State) : Result := fire s (evBufferAssignDone s)

/-- CFGREJ_CLEAR, by HP0; no semaphore guards it (R381). -/
def execCfgrejClear (die : DieId) (v : Word) (s : State) : Result :=
  .next (s.regWrite (.port 0) (0x200200 + 65536 * die.val) 8 v)

/-- FABID_WRITE (R382). -/
def execFabidWrite (who : Requester) (v : Word) (s : State) : Result := .next (s.regWrite who 0x300000 8 v)

/-- PWRCAP_WRITE (R382). -/
def execPwrcapWrite (who : Requester) (v : Word) (s : State) : Result := .next (s.regWrite who 0x300028 8 v)

/-- SPCTL_WRITE (R390). -/
def execSpctlWrite (who : Requester) (v : Word) (s : State) : Result := .next (s.regWrite who 0x300030 8 v)

/-- TMSTAT_CLEAR (R309). -/
def execTmstatClear (who : Requester) (die : DieId) (v : Word) (s : State) : Result :=
  .next (s.regWrite who (0x200030 + 65536 * die.val) 8 v)

/-- AFFMISS_CLEAR, by HP0; no semaphore guards it (R382). -/
def execAffmissClear (v : Word) (s : State) : Result := .next (s.regWrite (.port 0) 0x300018 8 v)

/-- FRZCMD_WRITE, by HP0; no semaphore guards it (R393). -/
def execFrzcmdWrite (v : Word) (s : State) : Result := .next (s.regWrite (.port 0) 0x300020 8 v)

/-! ## Host queues -/

/-- HOST_DOORBELL, by HP0 (R378). -/
def execHostDoorbell (q : BitVec 5) (addr : Word) (s : State) : Result :=
  .next (s.regWrite (.port 0) (4096 * q.toNat) 8 addr)

/-- The package address of a host physical address (R395, notes/assumptions/25). -/
def hostPa (a : Nat) : Nat := 2 ^ 47 + a % 2 ^ 47

/-- What the service core's check of a host packet gives: the state, and the status (R364, R378). -/
def submitHost (s : State) (q : BitVec 5) (bs : List Byte) (readOk : Bool) (asid : BitVec 12) : State × Nat × BitVec 32 :=
  let i : Fin 64 := ⟨q.toNat, by omega⟩
  let st := if readOk then s.packetStatus i bs true 3 else 2
  if st ≠ 0 then (s, st, 0)
  else
    let r := s.acceptPacket i (packetOf bs) asid
    (r.1, 0, r.2)

/-- The other queue of a queue's service core (R65). -/
def otherQueue (q : Fin 32) : Fin 32 := ⟨2 * (q.val / 2) + (q.val + 1) % 2, by omega⟩

/-- A queue's service core reads the packet of its doorbell, checks it, and answers; the two queues of a service core
are taken in the order of their doorbells (R65, R378). -/
def evHostPacketCheck (q : BitVec 5) (readOk : Bool) (s : State) : Option State :=
  let i : Fin 32 := ⟨q.toNat, q.isLt⟩
  let h := s.hostq[i]
  let pa := hostPa h.door.toNat
  if !h.busy || ((s.hostq[otherQueue i]).busy && decide ((s.hostq[otherQueue i]).rung < h.rung)) then none
  else
    let r := submitHost s q (Memory.readBytes s.mem pa packetBytes) (readOk && !s.lineBad pa) h.asid
    let h' := { h with busy := false, refused := r.2.1 != 0, result := if r.2.1 = 0 then r.2.2 else .ofNat 32 r.2.1 }
    some { r.1 with hostq := s.hostq.set i.val h' i.isLt }

/-- HOST_PACKET_CHECK (R378). -/
def execHostPacketCheck (q : BitVec 5) (readOk : Bool) (s : State) : Result := fire s (evHostPacketCheck q readOk s)

/-! ## The HSEM block -/

/-- HSEM_TAKE (R379). -/
def execHsemTake (n : BitVec 6) (takers : List Requester) (s : State) : Result :=
  .next (s.takeSem ⟨n.toNat, n.isLt⟩ (takers.filter fun r => s.answers r 0x100000))

/-- HSEM_RELEASE (R379). -/
def execHsemRelease (n : BitVec 6) (who : Requester) (s : State) : Result :=
  .next (if s.answers who 0x100000 then s.releaseSem ⟨n.toNat, n.isLt⟩ who else s)

/-- HOST_LINK_DOWN: the port's semaphores are released (R379). -/
def execHostLinkDown (port : Fin 2) (s : State) : Result :=
  .next { s.dropSems (.port port) with hostLinks := s.hostLinks.set port.val false port.isLt }

/-- SERVICE_CORE_RESET: its semaphores are released (R379). -/
def execServiceCoreReset (svc : ServiceId) (s : State) : Result := .next (s.dropSems (.service svc))

/-- PEER_LINK_DOWN (R393). -/
def execPeerLinkDown (link : BitVec 3) (s : State) : Result :=
  .next { s with peerLinks := s.peerLinks.set link.toNat false link.isLt }

/-! ## Host windows -/

/-- The window of a host access and the virtual address in it; none where it is closed or the port is down (R384). -/
def State.window (s : State) (port : Fin 2) (off : BitVec 40) : Option (Hdm × Nat) :=
  let h := s.hdm.get ⟨16 * port.val + off.toNat / 2 ^ 36, by have := off.isLt; omega⟩
  if h.en && s.hostLinks[port] && s.power == .running then
    some (h, h.vbase.toNat * 65536 + off.toNat % 2 ^ 36)
  else none

/-- Where a host access in a window goes (R384). -/
def windowPlace (s : State) (asid : BitVec 12) (va : Nat) (a : Access) : State × XRes (Nat × BitVec 12) :=
  if va < Config.translatedBase ∨ Config.translatedEnd ≤ va then (s, .fault causePageNotPresent (.ofNat 64 va))
  else match walk s asid (s.tenant asid).pt va with
  | (_, .stall) => (s, .stall)
  | (s1, .fault c w) => (s1, .fault c w)
  | (s1, .ok l) =>
    let pa := l.page + va % leafBytes l.level
    match accessFault a l.space l.map l.write l.read with
    | some c => (s1, .fault c (.ofNat 64 va))
    | none => if s.homeBusy pa 1 then (s, .stall) else (s1, .ok (pa, l.buf))

/-- Bytes of a host read, line by line; a fault poisons the answer, and the accesses made until then count; `fuel` bounds
the lines (R384, R390). -/
def hostReadFrom (s : State) (asid : BitVec 12) : (fuel va n : Nat) → State × XRes (List Byte)
  | 0, _, _ => (s, .ok [])
  | f + 1, va, n =>
    if n = 0 then (s, .ok [])
    else
      let m := Nat.min n (64 - va % 64)
      match windowPlace s asid va .read with
      | (s1, .stall) => (s1, .stall)
      | (s1, .fault c w) => (s1, .fault c w)
      | (s1, .ok (pa, buf)) =>
        let s2 := s1.countBuddy pa
        match s1.lineFault pa (s1.sealFor buf) with
        | some c => (s2, .fault c (.ofNat 64 va))
        | none => match hostReadFrom s2 asid f (va + m) (n - m) with
          | (s3, .ok l) => (s3, .ok (Memory.readBytes s.mem pa m ++ l))
          | r => r

/-- A host read through a window: bytes, or poison (R384). -/
def evHostWindowRead (port : Fin 2) (off : BitVec 40) (n : Nat) (s : State) : Option State :=
  match s.window port off with
  | none => some { s with hostReply := some none }
  | some (h, va) =>
    match hostReadFrom s h.asid (n / 64 + 2) va n with
    | (_, .stall) => none
    | (s1, .fault _ _) => some { s1 with hostReply := some none }
    | (s1, .ok l) => some { s1 with hostReply := some (some l) }

/-- HOST_WINDOW_READ (R384). -/
def execHostWindowRead (port : Fin 2) (off : BitVec 40) (n : Nat) (s : State) : Result :=
  fire s (evHostWindowRead port off n s)

/-- A host write, line by line; a line that faults is discarded; `fuel` bounds the lines (R384). -/
def hostWriteFrom (s : State) (asid : BitVec 12) : (fuel va : Nat) → List Byte → Option State
  | 0, _, _ => some s
  | f + 1, va, bs =>
    if bs.isEmpty then some s
    else
      let out := bs.take (64 - va % 64)
      (match windowPlace s asid va .write with
        | (_, .stall) => none
        | (s1, .fault _ _) => some s1
        | (s1, .ok (pa, buf)) =>
          some (if out.length = 64 then s1.writeLine pa out (s1.sealFor buf) else s1.writePart pa out (s1.sealFor buf))).bind
          fun s1 => hostWriteFrom s1 asid f (va + out.length) (bs.drop out.length)

/-- A host write through a window; through a closed one it is discarded (R384). -/
def evHostWindowWrite (port : Fin 2) (off : BitVec 40) (bytes : List Byte) (s : State) : Option State :=
  match s.window port off with
  | none => some s
  | some (h, va) => hostWriteFrom s h.asid (bytes.length / 64 + 2) va bytes

/-- HOST_WINDOW_WRITE (R384). -/
def execHostWindowWrite (port : Fin 2) (off : BitVec 40) (bytes : List Byte) (s : State) : Result :=
  fire s (evHostWindowWrite port off bytes s)

end Sys2Proof.Machine
end

