-- ==== Sys2Proof/Machine/Security.lean ====
section
/-! DEFINITION. The security mailbox: attestation and keys (spec/23 R388-R389). -/

namespace Sys2Proof.Machine

/-- The mailbox without its command under way. -/
def State.mailboxDone (s : State) : State := { s with mailbox := { s.mailbox with busy := none } }

/-- A mailbox command, whole: the end of the one under way, or, with none, its write by a requester and what it does;
the guard, and a write while BUSY, are those of MBCMD (R380, R381, R388). -/
def State.mailboxCommand (s : State) (who : Requester) (code : Nat) (act : State → State) : State :=
  let s1 := if s.mailbox.busy = some (.ofNat 2 code) then s else s.regWrite who 0x400000 8 (.ofNat 64 code)
  if s1.mailbox.busy = some (.ofNat 2 code) then (act s1).mailboxDone else s1

/-- The bytes of the mailbox buffer. -/
def Mailbox.bytes (m : Mailbox) (o n : Nat) : List Byte := Memory.readBytes m.buffer o n

/-- The semaphore-guarded registers in the order of R380 (R389, notes/assumptions/42). -/
def guardedRegs : List Reg :=
  (List.finRange 4).flatMap (fun d => [.die d 0x80, .die d 0x88]) ++
  (List.finRange 4).flatMap (fun d => [0x00, 0x08, 0x10, 0x18, 0x20, 0x28, 0x30, 0x40, 0x48].map (Reg.die d)) ++
  (List.finRange 32).map .hqasid ++ (List.finRange 32).map .hdm ++ (List.range 4096).map (fun a => .asidpt (.ofNat 12 a)) ++
  [.bufctl, .mbcmd, .fabid, .pwrcap, .spctl]

/-- Bytes 0x000 to 0x537 of a report (R389). -/
def State.reportBody (s : State) : List Byte :=
  leBytes 4 0x34415453 ++ [0xB0, 0x10, 0, 0] ++ leBytes 4 s.fabid.toNat ++ leBytes 4 (s.resst.toNat % 2 ^ 32) ++
  (List.range 32).map Config.firmwareHashByte ++ s.mailbox.image ++
  sha3 (guardedRegs.flatMap fun r => leBytes 8 (s.readReg r).toNat) ++ s.mailbox.bytes 0 32 ++
  leBytes 8 s.mailbox.reports.toNat ++ (List.range 1184).map Config.encapsulationKeyByte

/-- The report with its signature (R389). -/
def State.report389 (s : State) : List Byte :=
  s.reportBody ++ (List.range 2420).map (Config.identitySignByte s.reportBody)

/-- Attest: the report replaces the buffer's start, and the report counter counts it (R388, R389). -/
def State.attest (s : State) : State :=
  let s1 := { s with mailbox := { s.mailbox with reports := s.mailbox.reports + 1 } }
  { s1 with mailbox := { s1.mailbox with status := 0, buffer := Memory.splice s1.mailbox.buffer 0 s1.report389 } }

/-- ATTEST (R388, R389). -/
def execAttest (who : Requester) (s : State) : Result := .next (s.mailboxCommand who 1 State.attest)

/-- The ASID that a key command names (R388). -/
def State.keyAsid (s : State) : BitVec 12 := .ofNat 12 (Memory.readNat s.mailbox.buffer 0 2)

/-- Whether an ASID has live teams, pre-empted ones included (R388). -/
def State.liveTeams (s : State) (a : BitVec 12) : Bool := s.clusters.any fun x => x.teams.any fun t => t.any (·.asid == a)

/-- The status of a mailbox command (R388). -/
def State.setStatus (s : State) (st : BitVec 8) : State := { s with mailbox := { s.mailbox with status := st } }

/-- An ASID's key set changes: lines sealed under another fail their MAC (R387, R388, notes/assumptions/11). -/
def State.rekey (s : State) (a : BitVec 12) (keys : Option Nat) : State := s.setTenant a { s.tenant a with keys := keys }

/-- Key load (R388, notes/assumptions/10). -/
def State.keyLoad (s : State) : State :=
  let sealed := s.mailbox.bytes 8 1088
  let wrapped := s.mailbox.bytes 0x448 104
  if s.liveTeams s.keyAsid then s.setStatus 2
  else if Config.keyLoads sealed wrapped then (s.rekey s.keyAsid (some (Config.keySet sealed wrapped))).setStatus 0
  else s.setStatus 1

/-- KEY_LOAD (R388). -/
def execKeyLoad (who : Requester) (s : State) : Result := .next (s.mailboxCommand who 2 State.keyLoad)

/-- Key clear (R388). -/
def State.keyClear (s : State) : State :=
  if s.liveTeams s.keyAsid then s.setStatus 2 else (s.rekey s.keyAsid none).setStatus 0

/-- KEY_CLEAR (R388). -/
def execKeyClear (who : Requester) (s : State) : Result := .next (s.mailboxCommand who 3 State.keyClear)

end Sys2Proof.Machine
end

