-- ==== Sys2Proof/Machine/Freeze.lean ====
section
/-! DEFINITION. Freeze, the Rannen port and its state map, and reset (spec/23 R392-R394). -/

namespace Sys2Proof.Machine

/-! ## Freeze -/

/-- FRZ_PIN (R393). -/
def execFrzPin (s : State) : Result := .next s.askFreeze

/-- The freeze point of a request: the first multiple of 16 after it (R393). -/
def freezePoint (asked : Nat) : Nat := (asked / 16 + 1) * 16

/-- Every clock stops at the freeze point: links drop, and stacks stay in self-refresh (R393). -/
def State.freezeAt (s : State) (f : Nat) : State :=
  { s with now := f, frozen := true, hostLinks := .replicate 2 false, peerLinks := .replicate 8 false,
           hbm := s.hbm.map fun x => { x with asleepSince := some (x.asleepSince.getD f) } }

/-- The freeze point of a request is reached (R393). -/
def evFreeze (s : State) : Option State :=
  match s.freezeAsked with
  | none => none
  | some t => if s.frozen then none else some (s.freezeAt (freezePoint t))

/-- FREEZE (R393). -/
def execFreeze (s : State) : Result := fire s (evFreeze s)

/-! ## The state map -/

/-- Word 96 + 2e of a store-buffer entry (R394). -/
def StoreEntry.mapWord (e : StoreEntry) : Word :=
  .ofNat 64 (2 ^ 63 + (if e.amo.isSome then 2 ^ 62 else 0) + e.size.toNat * 2 ^ 60 +
    (match e.kind with | .tcm => 0 | .spm => 1 | .phys => 2) * 2 ^ 58 + ((e.amo.map (·.toNat)).getD 0) * 2 ^ 53 +
    e.addr % 2 ^ 48)

/-- Word `k` of a core's register files; a word that R394 does not lay out is a free value. -/
def Core.mapWord (x : Core) (tick k : Nat) : Word :=
  let store := fun (e : Nat) (f : StoreEntry → Word) => (x.stores[e]?.map f).getD 0
  if k < 32 then x.readG (.ofNat 5 k)
  else if k < 64 then x.readF (.ofNat 5 k)
  else if k < 80 then x.readP (.ofNat 4 k)
  else if k < 88 then x.readM (.ofNat 3 k)
  else if k < 90 then .ofNat 64 (leNat ((x.regs.c.toList.drop (8 * (k - 88))).take 8))
  else if k = 90 then x.pc
  else if k < 96 then 0
  else if k < 112 then (if k % 2 = 0 then store ((k - 96) / 2) (·.mapWord) else store ((k - 96) / 2) (·.data))
  else if k < 120 then store (k - 112) (·.cmp)
  else if k < 128 then 0
  else Config.mapWord tick

/-- Whether a team is pre-empted or being resumed, for word 1 of the Claim Unit (R394). -/
def Team.isPreempted (x : Team) : Bool := x.status == .preempted || x.status == .evicted

/-- A mask of the team slots that a test picks. -/
def State.slotMask (s : State) (k : ClusterId) (p : Team → Bool) : Nat :=
  ((List.finRange 8).map fun t => if (s.team k t).any p then 2 ^ t.val else 0).foldl (· + ·) 0

/-- Word 32 + c of the Claim Unit (R394). -/
def Core.claimWord (x : Core) : Word :=
  .ofNat 64 (x.minLots % 16 + x.maxLots % 16 * 2 ^ 4 + x.lots % 16 * 2 ^ 8 + ((x.slot.map (·.val)).getD 0) * 2 ^ 16 +
    if x.slot.isSome then 2 ^ 19 else 0)

/-- Word 40 + b of the Claim Unit: a request of the launch unit's shows its team's lowest core (R394). -/
def State.blockedWord (s : State) (k : ClusterId) (b : Blocked) : Word :=
  let lowest := ((s.team k b.team).map (·.cores.headD 0)).getD b.core
  match b.kind with
  | .launch _ | .relane _ => .ofNat 64 (2 ^ 63 + 2 ^ 62 + lowest.val * 2 ^ 56 + b.req.vector)
  | _ => .ofNat 64 (2 ^ 63 + b.core.val * 2 ^ 56 + b.req.vector)

/-- Word `w` of a cluster's Claim Unit (R394). -/
def State.claimUnitWord (s : State) (k : ClusterId) (w : Nat) : Word :=
  let slot := fun (i : Nat) => (⟨i % 8, by omega⟩ : Slot)
  if w = 0 then .ofNat 64 (s.available k).vector
  else if w = 1 then
    .ofNat 64 (s.slotMask k (fun _ => true) + s.slotMask k (·.isPreempted) * 2 ^ 8 +
      s.slotMask k (fun x => x.status == .evicted) * 2 ^ 16)
  else if w < 8 then 0
  else if w < 16 then .ofNat 64 (s.maxClaim k (slot w)).vector
  else if w < 24 then .ofNat 64 (s.allocation k (slot w)).vector
  else if w < 32 then
    match s.team k (slot w) with
    | none => 0
    | some x => (zext x.asid <<< 48) ||| (zext x.teamid <<< 32) ||| zext x.grid
  else if w < 40 then (s.coreAt (coreOf k (slot w))).claimWord
  else if w < 56 then ((s.cl k).blocked[w - 40]?.map (s.blockedWord k)).getD 0
  else 0

/-- The core of a state-map id (R394). -/
def mapCore (n : Nat) : Option CoreId := if h : n < 1088 then some ⟨n, h⟩ else none

/-- The cluster of a state-map index (R394). -/
def mapCluster (n : Nat) : Option ClusterId := if h : n < 136 then some ⟨n, h⟩ else none

/-- The word of the state map at an address; one that R394 does not lay out is a free value, and one of no unit that it
lists, where key slots and the security block are, reads as zero (R394, notes/assumptions/39). -/
def State.mapWord (s : State) (a : Word) : Word :=
  let unit := a.toNat / 2 ^ 56
  let w := a.toNat % 2 ^ 56
  let core := fun (per : Nat) (f : CoreId → Word) => ((mapCore (w / per)).map f).getD (Config.mapWord s.tick)
  let cluster := fun (per : Nat) (f : ClusterId → Word) => ((mapCluster (w / per)).map f).getD (Config.mapWord s.tick)
  match unit with
  | 0 => core 4096 fun c => if assignedCreg (w % 4096) then s.readCreg c (w % 4096) else Config.mapWord s.tick
  | 1 => core 256 fun c => (s.coreAt c).mapWord s.tick (w % 256)
  | 2 => core 24576 fun c => Memory.read64 (s.coreAt c).tcm (8 * (w % 24576))
  | 3 => cluster (2 ^ 18) fun k => Memory.read64 (s.cl k).spm (8 * (w % 2 ^ 18))
  | 4 => cluster (2 ^ 17) fun k => Memory.read64 (s.cl k).acc (8 * (w % 2 ^ 17))
  | 5 => cluster 64 fun k => s.claimUnitWord k (w % 64)
  | 6 | 7 => Config.mapWord s.tick
  | _ => 0

/-! ## The Rannen port -/

/-- The instruction code of the port's next scan enters its register; the data register's capture follows. -/
def State.tapIr (s : State) (ir : BitVec 8) (out : Word) : State := { s with tap := { s.tap with ir := ir, dataOut := out } }

/-- IDCODE (R394). -/
def execIdcode (s : State) : Result := .next (s.tapIr 0x01 0x153400A3)

/-- FMADDR: the address shifts out, and the one shifted in replaces it (R394). -/
def execFmaddr (s : State) : Result :=
  let s' := s.tapIr 0x10 s.tap.fmaddr
  .next { s' with tap := { s'.tap with fmaddr := s'.tap.dataIn } }

/-- FMDATA: the word at FMADDR, zero before freeze; then FMADDR grows by 1 (R394). -/
def execFmdata (s : State) : Result :=
  let s' := s.tapIr 0x11 (if s.frozen then s.mapWord s.tap.fmaddr else 0)
  .next { s' with tap := { s'.tap with fmaddr := s'.tap.fmaddr + 1 } }

/-- BYPASS: one bit, captured as 0 (R394, notes/assumptions/27). -/
def execBypass (s : State) : Result := .next (s.tapIr 0xFF 0)

/-! ## Reset -/

/-- The host's own memory stays through a reset (notes/assumptions/43). -/
def hostCells (m : Mem) : Mem := m.filter fun c => decide (2 ^ 47 ≤ c.1)

/-- RESET: the machine as at reset, then bring-up; a failed image verification leaves it in recovery (R392). -/
def execReset (imageOk : Bool) (s : State) : Result :=
  .next { State.reset with power := if imageOk then .running else .recovery, mem := hostCells s.mem, agenda := s.agenda,
                           tick := s.tick }

end Sys2Proof.Machine
end

