-- ==== Sys2Proof/Machine/Integer.lean ====
section
/-! DEFINITION. Integer instructions: register-register, immediate, shift, lui, addpc, multiply and divide (spec/06
R127-R132). -/

namespace Sys2Proof.Machine

/-! ## What the instructions compute -/

/-- A condition's value of the smaller or larger operand. -/
def pickWord (c : Bool) (x y : Word) : Word := if c then x else y

/-- Leading zero bits among the low `n` bits (R127). -/
def leadingZeros : Nat → Word → Nat
  | 0, _ => 0
  | n + 1, x => if x.getLsbD n then 0 else leadingZeros n x + 1

/-- Trailing zero bits from bit 64 - `n` on (R127). -/
def trailingZeros : Nat → Word → Nat
  | 0, _ => 0
  | n + 1, x => if x.getLsbD (63 - n) then 0 else trailingZeros n x + 1

/-- One bits among the low `n` bits (R127). -/
def oneBits : Nat → Word → Nat
  | 0, _ => 0
  | n + 1, x => oneBits n x + if x.getLsbD n then 1 else 0

/-- Signed division (R131, R132). -/
def divSigned (x y : Word) : Word :=
  if y = 0 then (if x = 0 then 0 else if x.slt 0 then BitVec.intMin 64 else BitVec.intMax 64)
  else if x = BitVec.intMin 64 ∧ y = -1 then BitVec.intMax 64
  else .ofInt 64 (x.toInt.tdiv y.toInt)

/-- Unsigned division (R131, R132). -/
def divUnsigned (x y : Word) : Word := if y = 0 then (if x = 0 then 0 else -1) else .ofNat 64 (x.toNat / y.toNat)

/-- Signed remainder (R131, R132). -/
def remSigned (x y : Word) : Word := if y = 0 then x else .ofInt 64 (x.toInt.tmod y.toInt)

/-- Unsigned remainder (R131, R132). -/
def remUnsigned (x y : Word) : Word := if y = 0 then x else .ofNat 64 (x.toNat % y.toNat)

/-- Bits 127:64 of a product (R131). -/
def highHalf (p : Int) : Word := .ofInt 64 (p / 2 ^ 64)

/-! ## Meanings -/

/-- add (R127). -/
def execAdd (d a b : BitVec 5) (s : State) : Result := finishG s d (s.g a + s.g b)

/-- sub (R127). -/
def execSub (d a b : BitVec 5) (s : State) : Result := finishG s d (s.g a - s.g b)

/-- and (R127). -/
def execAnd (d a b : BitVec 5) (s : State) : Result := finishG s d (s.g a &&& s.g b)

/-- or (R127). -/
def execOr (d a b : BitVec 5) (s : State) : Result := finishG s d (s.g a ||| s.g b)

/-- xor (R127). -/
def execXor (d a b : BitVec 5) (s : State) : Result := finishG s d (s.g a ^^^ s.g b)

/-- sll (R127). -/
def execSll (d a b : BitVec 5) (s : State) : Result := finishG s d (s.g a <<< shiftAmount (s.g b))

/-- srl (R127). -/
def execSrl (d a b : BitVec 5) (s : State) : Result := finishG s d (s.g a >>> shiftAmount (s.g b))

/-- sra (R127). -/
def execSra (d a b : BitVec 5) (s : State) : Result := finishG s d ((s.g a).sshiftRight (shiftAmount (s.g b)))

/-- slt (R127). -/
def execSlt (d a b : BitVec 5) (s : State) : Result := finishG s d (ofBool ((s.g a).slt (s.g b)))

/-- sltu (R127). -/
def execSltu (d a b : BitVec 5) (s : State) : Result := finishG s d (ofBool ((s.g a).ult (s.g b)))

/-- min (R127). -/
def execMin (d a b : BitVec 5) (s : State) : Result := finishG s d (pickWord ((s.g a).slt (s.g b)) (s.g a) (s.g b))

/-- max (R127). -/
def execMax (d a b : BitVec 5) (s : State) : Result := finishG s d (pickWord ((s.g a).slt (s.g b)) (s.g b) (s.g a))

/-- minu (R127). -/
def execMinu (d a b : BitVec 5) (s : State) : Result := finishG s d (pickWord ((s.g a).ult (s.g b)) (s.g a) (s.g b))

/-- maxu (R127). -/
def execMaxu (d a b : BitVec 5) (s : State) : Result := finishG s d (pickWord ((s.g a).ult (s.g b)) (s.g b) (s.g a))

/-- ror (R127). -/
def execRor (d a b : BitVec 5) (s : State) : Result := finishG s d ((s.g a).rotateRight (shiftAmount (s.g b)))

/-- clz (R127). -/
def execClz (d a : BitVec 5) (s : State) : Result := finishG s d (.ofNat 64 (leadingZeros 64 (s.g a)))

/-- ctz (R127). -/
def execCtz (d a : BitVec 5) (s : State) : Result := finishG s d (.ofNat 64 (trailingZeros 64 (s.g a)))

/-- popc (R127). -/
def execPopc (d a : BitVec 5) (s : State) : Result := finishG s d (.ofNat 64 (oneBits 64 (s.g a)))

/-- addi (R128). -/
def execAddi (d a : BitVec 5) (i : BitVec 16) (s : State) : Result := finishG s d (s.g a + sext i)

/-- andi (R128). -/
def execAndi (d a : BitVec 5) (i : BitVec 16) (s : State) : Result := finishG s d (s.g a &&& zext i)

/-- ori (R128). -/
def execOri (d a : BitVec 5) (i : BitVec 16) (s : State) : Result := finishG s d (s.g a ||| zext i)

/-- xori (R128). -/
def execXori (d a : BitVec 5) (i : BitVec 16) (s : State) : Result := finishG s d (s.g a ^^^ zext i)

/-- slti (R128). -/
def execSlti (d a : BitVec 5) (i : BitVec 16) (s : State) : Result := finishG s d (ofBool ((s.g a).slt (sext i)))

/-- sltiu (R128). -/
def execSltiu (d a : BitVec 5) (i : BitVec 16) (s : State) : Result := finishG s d (ofBool ((s.g a).ult (sext i)))

/-- slli (R129). -/
def execSlli (d a : BitVec 5) (sh : BitVec 6) (s : State) : Result := finishG s d (s.g a <<< sh.toNat)

/-- srli (R129). -/
def execSrli (d a : BitVec 5) (sh : BitVec 6) (s : State) : Result := finishG s d (s.g a >>> sh.toNat)

/-- srai (R129). -/
def execSrai (d a : BitVec 5) (sh : BitVec 6) (s : State) : Result := finishG s d ((s.g a).sshiftRight sh.toNat)

/-- rori (R129). -/
def execRori (d a : BitVec 5) (sh : BitVec 6) (s : State) : Result := finishG s d ((s.g a).rotateRight sh.toNat)

/-- lui (R130). -/
def execLui (d : BitVec 5) (i : BitVec 16) (s : State) : Result := finishG s d (upperImm i)

/-- addpc (R130). -/
def execAddpc (d : BitVec 5) (i : BitVec 16) (s : State) : Result := finishG s d (s.pc + upperImm i)

/-- mul (R131). -/
def execMul (d a b : BitVec 5) (s : State) : Result := finishG s d (s.g a * s.g b)

/-- mulh (R131). -/
def execMulh (d a b : BitVec 5) (s : State) : Result := finishG s d (highHalf ((s.g a).toInt * (s.g b).toInt))

/-- mulhu (R131). -/
def execMulhu (d a b : BitVec 5) (s : State) : Result := finishG s d (highHalf ((s.g a).toNat * (s.g b).toNat))

/-- mulhsu (R131). -/
def execMulhsu (d a b : BitVec 5) (s : State) : Result := finishG s d (highHalf ((s.g a).toInt * (s.g b).toNat))

/-- div (R131, R132). -/
def execDiv (d a b : BitVec 5) (s : State) : Result := finishG s d (divSigned (s.g a) (s.g b))

/-- divu (R131, R132). -/
def execDivu (d a b : BitVec 5) (s : State) : Result := finishG s d (divUnsigned (s.g a) (s.g b))

/-- rem (R131, R132). -/
def execRem (d a b : BitVec 5) (s : State) : Result := finishG s d (remSigned (s.g a) (s.g b))

/-- remu (R131, R132). -/
def execRemu (d a b : BitVec 5) (s : State) : Result := finishG s d (remUnsigned (s.g a) (s.g b))

end Sys2Proof.Machine
end

