-- ==== Sys2Proof/Machine/Pointers.lean ====
section
/-! DEFINITION. Pointer and mask instructions (spec/07 R163-R165). They wait for the core's earlier vector
instructions, which `Sys2Proof.Machine.stalled` decides (R165). -/

namespace Sys2Proof.Machine

/-- p[n] of the current core. -/
def State.p (s : State) (n : BitVec 4) : Word := s.core.readP n

/-- m[n] of the current core. -/
def State.m (s : State) (n : BitVec 3) : Word := s.core.readM n

/-- p[d] receives `v` and the instruction retires. -/
def finishP (s : State) (d : BitVec 4) (v : Word) : Result := .next (s.setCore (s.core.writeP d v)).retire

/-- m[d] receives `v` and the instruction retires. -/
def finishM (s : State) (d : BitVec 3) (v : Word) : Result := .next (s.setCore (s.core.writeM d v)).retire

/-- pset: STEP stays (R163). -/
def execPset (d : BitVec 4) (a : BitVec 5) (s : State) : Result := finishP s d (ptrOf (ptrStep (s.p d)) (bits (s.g a) 0 22))

/-- pstep (R163). -/
def execPstep (d : BitVec 4) (a : BitVec 5) (s : State) : Result := finishP s d (ptrOf (bits (s.g a) 0 22) (ptrLow (s.p d)))

/-- prd (R163). -/
def execPrd (d : BitVec 5) (a : BitVec 4) (s : State) : Result := finishG s d (zext (ptrLow (s.p a)))

/-- prdstep (R163). -/
def execPrdstep (d : BitVec 5) (a : BitVec 4) (s : State) : Result := finishG s d (sext (ptrStep (s.p a)))

/-- mkset (R164). -/
def execMkset (d : BitVec 3) (a : BitVec 5) (s : State) : Result := finishM s d (s.g a)

/-- mkget (R164). -/
def execMkget (d : BitVec 5) (a : BitVec 3) (s : State) : Result := finishG s d (s.m a)

/-- mkand (R164). -/
def execMkand (d a b : BitVec 3) (s : State) : Result := finishM s d (s.m a &&& s.m b)

/-- mkor (R164). -/
def execMkor (d a b : BitVec 3) (s : State) : Result := finishM s d (s.m a ||| s.m b)

/-- mkxor (R164). -/
def execMkxor (d a b : BitVec 3) (s : State) : Result := finishM s d (s.m a ^^^ s.m b)

/-- mkandn (R164). -/
def execMkandn (d a b : BitVec 3) (s : State) : Result := finishM s d (s.m a &&& ~~~(s.m b))

end Sys2Proof.Machine
end

