-- ==== Sys2Proof/Machine/Lanes.lean ====
section
/-! DEFINITION. The lane pool: element formats, streams, issue and retirement of vector instructions (spec/12, spec/13
R240-R241). -/

namespace Sys2Proof.Machine

/-! ## Elements -/

/-- An element format: a floating-point format, or a signed integer of a width (R28). -/
inductive Elem where
  | fp (F : Fmt)
  | int (w : Nat)
  deriving DecidableEq, Repr

/-- The format of an fmt code (R28). -/
def elemOf (f : BitVec 3) : Elem :=
  match f.toNat with
  | 0 => .fp fp32 | 1 => .fp bf16 | 2 => .fp e4m3 | 3 => .fp e5m2 | 4 => .int 32 | 5 => .int 16 | 6 => .int 8
  | _ => .fp e2m1

/-- Bits of an element. -/
def Elem.width : Elem → Nat
  | .fp F => F.width
  | .int w => w

/-- Elements of a lane word (R28). -/
def Elem.perWord (e : Elem) : Nat := 32 / e.width

/-- Element `i` of a lane word or of any packed number, elements of `w` bits. -/
def slice (w i x : Nat) : Nat := x / 2 ^ (w * i) % 2 ^ w

/-- The signed value of `w` bits. -/
def signedOf (w x : Nat) : Int := if x % 2 ^ w < 2 ^ (w - 1) then x % 2 ^ w else (x % 2 ^ w : Nat) - (2 ^ w : Nat)

/-- A signed value in `w` bits. -/
def wrapOf (w : Nat) (i : Int) : Nat := (i % (2 ^ w : Nat)).toNat

/-- An operation on elements a, b and d of three lane words. -/
abbrev ElemOp := Nat → Nat → Nat → FRes

/-- A lane word whose first `n` elements an operation gives, with the flags of all (R241). -/
def mapElems (w : Nat) (op : ElemOp) (a b d : Nat) : (n : Nat) → FRes
  | 0 => (0, 0)
  | n + 1 =>
    let r := mapElems w op a b d n
    let e := op (slice w n a) (slice w n b) (slice w n d)
    (r.1 + e.1 % 2 ^ w * 2 ^ (w * n), joinFlags r.2 e.2)

/-- An operation on whole lane words. -/
def Elem.onWord (e : Elem) (op : ElemOp) (a b d : Nat) : FRes := mapElems e.width op a b d e.perWord

/-! ## Streams -/

/-- VLEN of the current core. -/
def State.vlen (s : State) : Nat := s.core.csr.vlen.toNat

/-- Offset of lane `j` of a stream (R226). -/
def laneOff (p : Word) (j : Nat) : Nat := (ptrAddr p + 4 * j) % 2 ^ 21

/-- Offsets of the first `n` lane words of a stream. -/
def streamOffs (p : Word) (n : Nat) : List Nat := (List.range n).map (laneOff p)

/-- A team-virtual address with its space in bit 21, as TRAPAUX reports it. -/
def spaceOff (sp : Space) (o : Nat) : Word := .ofNat 64 (o + if sp = .acc then 2 ^ 21 else 0)

/-- What reading lane words gives. -/
inductive Got (α : Type) where
  | ok (s : State) (x : α)
  | stall
  | fault (cause : BitVec 8) (aux : Word)

/-- Goes on with what was read, or stalls, or traps; a trap changes nothing that was read (R110). -/
def Got.next {α : Type} (r : Got α) (s : State) (go : State → α → Result) : Result :=
  match r with
  | .ok s' x => go s' x
  | .stall => .next s
  | .fault c x => trap s c x

/-- Reads one lane word of the current core's team. DESIGN CHOICE: TRAPAUX of one in a granule beyond correction is its
team-virtual offset, with the space in bit 21 (R105, R230, notes/assumptions/65). -/
def readLane (s : State) (sp : Space) (o : Nat) : Got Nat :=
  if s.granuleBad s.cur sp o then .fault causeDataError (spaceOff sp o)
  else match s.readTeam s.cur sp o 4 with
  | none => .stall
  | some (s', v) => .ok s' v

/-- Reads lane words in order; a lane that reads nothing gives 0 (R232). DESIGN CHOICE: of several granules beyond
correction the first one met is reported, in the order of pa, pb and pd and of the lanes (R230, notes/assumptions/65). -/
def readLanes (s : State) (sp : Space) : List (Option Nat) → Got (List Nat)
  | [] => .ok s []
  | none :: os => match readLanes s sp os with
    | .ok s' l => .ok s' (0 :: l)
    | r => r
  | some o :: os => match readLane s sp o with
    | .stall => .stall
    | .fault c x => .fault c x
    | .ok s' v => match readLanes s' sp os with
      | .ok s'' l => .ok s'' (v :: l)
      | r => r

/-- The lanes of a stream that read, by a test. -/
def picked (p : Word) (n : Nat) (reads : Nat → Bool) : List (Option Nat) :=
  (List.range n).map fun j => if reads j then some (laneOff p j) else none

/-- Reads the picked lanes of a stream. -/
def readStream (s : State) (p : Word) (n : Nat) (reads : Nat → Bool) : Got (List Nat) :=
  readLanes s (ptrSpace p) (picked p n reads)

/-! ## Operands behind unretired instructions -/

/-- p[n] of the current core as stepped by every vector instruction that it has issued (R227). -/
def State.vp (s : State) (n : BitVec 4) : Word :=
  s.core.vq.foldl (fun p v => if v.steps.contains n then ptrStepped p else p) (s.p n)

/-- m[n] of the current core as every vector instruction that it has issued leaves it (R246). -/
def State.vm (s : State) (n : BitVec 3) : Word :=
  s.core.vq.foldl (fun x v => match v.mreg with
    | some (m, y) => if m = n ∧ n ≠ 0 then y else x
    | none => x) (s.m n)

/-- Whether lane `j` is active (R232). -/
def State.active (s : State) (m : BitVec 3) (j : Nat) : Bool := (s.vm m).getLsbD j

/-- Source b: a stream, or an f register broadcast to every lane (R241). -/
inductive SrcB where
  | none
  | stream (p : BitVec 4)
  | scalar (f : BitVec 5)

/-- Pointers that source b names. -/
def SrcB.named : SrcB → List (BitVec 4)
  | .stream p => [p]
  | _ => []

/-- Source b as an operand field and its sc bit (R240). -/
def srcB (b : BitVec 4) (sc : Bool) : SrcB := if sc then .scalar (b.setWidth 5) else .stream b

/-- Whether an unretired vector instruction of the current core still has to write a mask or an f register that an
instruction names (R126, R246). -/
def State.operandsPending (s : State) (m : BitVec 3) (b : SrcB) : Bool :=
  s.core.vq.any fun v =>
    v.mreg.any (fun x => x.1 == m && m != 0) || v.freg.any fun x => match b with
      | .scalar f => x.1 == f
      | _ => false

/-! ## Issue -/

/-- Whether a vector instruction may issue: the core's earlier scratchpad stores are applied (R57,
notes/assumptions/30). -/
def Core.vecReady (k : Core) : Bool := k.storesDone .spm

/-- The first of some pointers whose ADDR is not a multiple of `n` (R226, R257). -/
def misaligned (n : Nat) (ps : List Word) : Option Word := ps.find? fun p => ptrAddr p % n != 0

/-- The lowest covered offset of accumulator lane words (R233). -/
def State.lowestCovered (s : State) (sp : Space) (offs : List Nat) : Option Nat :=
  if sp = .spm then none
  else (offs.filter (s.covered s.cur)).foldl (fun a o => some (match a with | none => o | some b => Nat.min b o)) none

/-- Whether a command covers any of some accumulator lane words. -/
def State.anyCovered (s : State) (sp : Space) (offs : List Nat) : Bool := sp == .acc && offs.any (s.covered s.cur)

/-- A stream of an instruction: its pointer and its lane words. -/
abbrev Stream := Word × Nat

/-- Whether a stream waits for commands that cover it (R233). -/
def State.streamCovered (s : State) (x : Stream) : Bool := s.anyCovered (ptrSpace x.1) (streamOffs x.1 x.2)

/-- Whether a stream reads a granule that an unretired vector instruction of the current core writes (R231). -/
def State.streamPending (s : State) (x : Stream) : Bool := s.core.granulePending (ptrSpace x.1) (streamOffs x.1 x.2)

/-- The checks of issue in their order: readiness, alignment, covered destinations, covered sources, and granules that
an unretired instruction writes, those read through pd, `also`, among them (R226, R231, R233, R241). DESIGN CHOICE: of
several misaligned streams TRAPAUX names the first of pa, pb and pd; a masked-off lane of a stream counts as covered like
any other; and a covered pd raises ACM_BUSY with no wait for covered sources (notes/assumptions/65). -/
def vecIssue (s : State) (srcs : List Stream) (dst : Option Stream) (also : List Stream) (go : Result) : Result :=
  if !s.core.vecReady then .next s
  else match misaligned 4 (srcs.map (·.1) ++ (dst.map (·.1)).toList) with
  | some p => trap s causeMisaligned (zext (ptrLow p))
  | none =>
    match dst.bind (fun x => s.lowestCovered (ptrSpace x.1) (streamOffs x.1 x.2)) with
    | some o => trap s causeAcmBusy (.ofNat 64 o)
    | none => if srcs.any s.streamCovered || (srcs ++ also).any s.streamPending then .next s else go

/-- Each named pointer once (R227). -/
def onceEach (l : List (BitVec 4)) : List (BitVec 4) := l.foldr (fun x r => if r.contains x then r else x :: r) []

/-- A vector instruction with nothing to write; `raises` as its major says (R234). -/
def emptyVec (s : State) (named : List (BitVec 4)) (raises : Bool) : PendVec :=
  { writes := [], landed := [], steps := onceEach named, flags := 0, freg := none, mreg := none, pc := s.pc, raises := raises,
    before := s.core.stores.length, unit := false, list := false }

/-- A core that has issued a vector instruction. -/
def Core.issued (k : Core) (v : PendVec) : Core :=
  { k with vq := k.vq ++ [v], pc := k.pc + 4, sync := none, csr := { k.csr with mprog := 0 } }

/-- A core whose vector instruction has entered the queue of a unit, and waits there (R235, R239). -/
def Core.entered (k : Core) : Core := { k with wait := .unit, sync := none, csr := { k.csr with mprog := 0 } }

/-- The instruction has issued: the core goes on, and retirement will write (R230). -/
def pushVec (s : State) (v : PendVec) : Result := .next (s.setCore (s.core.issued v))

/-- An instruction with VLEN = 0 writes nothing and raises nothing; its pointers step (R225). -/
def vecNone (s : State) (named : List (BitVec 4)) (raises : Bool) : Result :=
  if !s.core.vecReady then .next s else pushVec s (emptyVec s named raises)

/-- The write of a whole lane word. -/
def wholeLane (p : Word) (j v : Nat) : LaneWrite := ⟨ptrSpace p, laneOff p j, -1, .ofNat 32 v⟩

/-- The writes of a stream's lanes: a result, a zero under the zero policy, or nothing (R232, R241). -/
def laneWrites (p : Word) (zero : Bool) : Nat → List (Option Nat) → List LaneWrite
  | _, [] => []
  | j, some v :: l => wholeLane p j v :: laneWrites p zero (j + 1) l
  | j, none :: l => if zero then wholeLane p j 0 :: laneWrites p zero (j + 1) l else laneWrites p zero (j + 1) l

/-- Results of the active lanes in order, with all their flags. -/
def laneResults (act : Nat → Bool) (op : ElemOp) : Nat → List (Nat × Nat × Nat) → List (Option Nat) × Flags
  | _, [] => ([], 0)
  | j, (a, b, d) :: l =>
    let r := laneResults act op (j + 1) l
    if act j then
      let e := op a b d
      (some e.1 :: r.1, joinFlags e.2 r.2)
    else (none :: r.1, r.2)

/-- Three lists side by side; a list that ends counts as zeros. -/
def zip3 : Nat → List Nat → List Nat → List Nat → List (Nat × Nat × Nat)
  | 0, _, _, _ => []
  | n + 1, a, b, d => (a.headD 0, b.headD 0, d.headD 0) :: zip3 n a.tail b.tail d.tail

/-- Streams of source b. -/
def SrcB.streams (x : SrcB) (s : State) (n : Nat) : List Stream :=
  match x with
  | .stream p => [(s.vp p, n)]
  | _ => []

/-- Lane words of source b. -/
def SrcB.read (x : SrcB) (s : State) (n : Nat) (reads : Nat → Bool) : Got (List Nat) :=
  match x with
  | .none => .ok s []
  | .stream p => readStream s (s.vp p) n reads
  | .scalar f => .ok s (List.replicate n (s.fcode f false))

/-- The lane words of d, a and b that an instruction reads, in the order of R226: a, then b, then d. -/
def readOperands (s : State) (a : Word) (b : SrcB) (d : Option Word) (n : Nat) (act : Nat → Bool) :
    Got (List (Nat × Nat × Nat)) :=
  match readStream s a n act with
  | .stall => .stall
  | .fault c x => .fault c x
  | .ok s1 la => match b.read s1 n act with
    | .stall => .stall
    | .fault c x => .fault c x
    | .ok s2 lb => match d with
      | none => .ok s2 (zip3 n la lb [])
      | some p => match readStream s2 p n act with
        | .stall => .stall
        | .fault c x => .fault c x
        | .ok s3 ld => .ok s3 (zip3 n la lb ld)

/-- The common form of R241: an operation on the active lanes of a, b and, with `usesD`, of d, into d. -/
def vecMap (s : State) (raises : Bool) (d a : BitVec 4) (b : SrcB) (m : BitVec 3) (zero usesD : Bool) (op : ElemOp) :
    Result :=
  let n := s.vlen
  let named := a :: b.named ++ [d]
  if n = 0 then vecNone s named raises
  else if s.operandsPending m b then .next s
  else
    vecIssue s ((s.vp a, n) :: b.streams s n) (some (s.vp d, n)) (if usesD then [(s.vp d, n)] else [])
      ((readOperands s (s.vp a) b (if usesD then some (s.vp d) else none) n (s.active m)).next s fun s' l =>
        let r := laneResults (s.active m) op 0 l
        pushVec s' { emptyVec s named raises with writes := laneWrites (s.vp d) zero 0 r.1, flags := r.2 })

/-! ## Retirement -/

/-- Performs the write of a lane word on a core's team; none is a stall. DESIGN CHOICE: each lane word is a part write of
its granule, so that eight of them that make up a granule beyond correction are dropped one by one and leave its error
(notes/assumptions/26). -/
def State.writeLane (s : State) (c : CoreId) (w : LaneWrite) : Option State :=
  match s.place c w.space w.off with
  | .stall => none
  | .out code => some (s.outOfRange c code w.space w.off)
  | .ok p =>
    let k := clusterOf c
    let x := s.cl k
    let old : BitVec 32 := Memory.read32 (x.space w.space) p
    let v := (old &&& ~~~w.mask) ||| (w.data &&& w.mask)
    some (s.setCl k (x.writeGranule w.space p (leBytes 4 v.toNat)))

/-- Performs lane writes in order. -/
def State.writeLanes (s : State) (c : CoreId) : List LaneWrite → Option State
  | [] => some s
  | w :: ws => (s.writeLane c w).bind fun s' => s'.writeLanes c ws

/-- Steps pointers (R227). -/
def Core.stepPointers (k : Core) : List (BitVec 4) → Core
  | [] => k
  | p :: ps => (k.writeP p (ptrStepped (k.readP p))).stepPointers ps

/-- The registers after a vector instruction's retirement. -/
def Core.retireVec (k : Core) (v : PendVec) : Core :=
  let k1 := k.stepPointers v.steps
  let k2 := match v.freg with
    | none => k1
    | some (f, x) => k1.writeF f (zext x)
  let k3 := match v.mreg with
    | none => k2
    | some (m, x) => k2.writeM m x
  { k3 with
    vq := k3.vq.tail
    csr := { k3.csr with instret := k3.csr.instret + 1 }
    pc := if v.unit then k3.pc + 4 else k3.pc
    wait := if v.unit then .ready else k3.wait }

/-- PARKINF.OFFSET of a raise by the instruction at `pc` (R147, notes/assumptions/8). -/
def parkOffset (k : Core) (pc : Word) : Nat := (k.pc - pc).toNat / 4 % 2 ^ 11

/-- A renegotiation that waited for a core's vector instructions (R188). -/
def State.renegotiated (s : State) (c : CoreId) : State :=
  let k := s.coreAt c
  if k.reneg && k.vq.isEmpty then (s.setCoreAt c { k with reneg := false }).renegotiate c false else s

/-- A core's oldest vector instruction retires: the lane words not yet written, pointers, flags. Its writes come after
the core's earlier stores (R57, R230, R234). A core that waits for a unit writes no register in that cycle (R36). -/
def evVectorRetire (c : CoreId) (s : State) : Option State :=
  match (s.coreAt c).vq with
  | [] => none
  | v :: _ =>
    if !v.writes.isEmpty && v.before != 0 then none
    else (s.writeLanes c v.writes).map fun s1 =>
      let k := (s1.coreAt c).retireVec v
      let s2 := s1.setCoreAt c k
      (if v.unit then s2.raiseAt c v.flags (parkOffset k v.pc)
       else s2.raiseBeside c v.flags (parkOffset k v.pc)).renegotiated c

/-- Whether a beat at an offset performs a write: its lane word, or a granule of a top-k list (R57, R239). -/
def PendVec.inBeat (v : PendVec) (sp : Space) (off : Nat) (w : LaneWrite) : Bool :=
  w.space == sp && if v.list then w.off / 32 == off / 32 else w.off == off

/-- A core's oldest vector instruction writes a lane word, or a granule of a list, ahead of its retirement; an
instruction of a unit is withdrawn no more (R57, R236, R239). -/
def evLaneBeat (c : CoreId) (sp : Space) (off : Nat) (s : State) : Option State :=
  match (s.coreAt c).vq with
  | [] => none
  | v :: vs =>
    let now := v.writes.filter (v.inBeat sp off)
    let lands := fun (w : LaneWrite) => match s.place c w.space w.off with
      | .ok _ => true
      | _ => false
    if v.before != 0 || now.isEmpty || !now.all lands then none
    else (s.writeLanes c now).map fun s1 =>
      let k := s1.coreAt c
      let left := v.writes.filter fun w => !v.inBeat sp off w
      s1.setCoreAt c { k with vq := { v with writes := left, landed := now ++ v.landed } :: vs,
                              wait := if v.unit then .retiring else k.wait }

/-- VECTOR_RETIRE (R230). -/
def execVectorRetire (c : CoreId) (s : State) : Result := fire s (evVectorRetire c s)

end Sys2Proof.Machine
end

