-- ==== Sys2Proof/Machine/Special.lean ====
section
/-! DEFINITION. The special functions of the lane pool, correctly rounded FP32 (spec/13 R254): exact where the result
is rational, else by fixed point of 256 bits and a non-zero tail. UNVERIFIED: that no argument comes nearer to a
rounding boundary than the fixed point resolves (notes/assumptions/14). -/

namespace Sys2Proof.Machine

/-- Fraction bits of the fixed point. -/
def fixBits : Nat := 256

/-- The fixed-point one. -/
def fixOne : Nat := 2 ^ 256

/-- The sum of z^(2k+1) / (2k+1) over `fuel` terms, given the running power `p` and the odd number `k`. -/
def atanhTerms : (fuel z2 p k : Nat) → Nat
  | 0, _, _, _ => 0
  | n + 1, z2, p, k => p / k + atanhTerms n z2 (p * z2 / fixOne) (k + 2)

/-- atanh of a fixed-point number at most one third. -/
def fixAtanh (z : Nat) : Nat := atanhTerms 90 (z * z / fixOne) z 1

/-- ln 2 in fixed point. -/
def fixLn2 : Nat := 2 * fixAtanh (fixOne / 3)

/-- The sum of y^k / k! from term `t` of index `k` on. -/
def expTerms : (fuel y t k : Nat) → Nat
  | 0, _, _, _ => 0
  | n + 1, y, t, k => t + expTerms n y (t * y / (fixOne * k)) (k + 1)

/-- 2 to a fixed-point fraction below one. -/
def fixExp2 (f : Nat) : Nat := expTerms 70 (f * fixLn2 / fixOne) fixOne 1

/-- log2 of m / 2^k, a number from 1 up to 2, in fixed point. -/
def fixLog2 (m k : Nat) : Nat :=
  let z := (m - 2 ^ k) * fixOne / (m + 2 ^ k)
  2 * fixAtanh z * fixOne / fixLn2

/-- The FP32 infinity with the flags of a division by zero (R254). -/
def sfuPole (neg : Bool) : FRes := (fp32.infinity neg, flagDZ)

/-- vexp2 of a finite value that is not zero. -/
def exp2Fin (neg : Bool) (m : Nat) (e : Int) : FRes :=
  if 10 < e + m.log2 then (if neg then fp32.round .rne false 1 (-1000) true else fp32.round .rne false 1 1000)
  else
    let num : Nat := if 0 ≤ e then m * 2 ^ e.toNat else m
    let d : Nat := if 0 ≤ e then 0 else (-e).toNat
    let whole : Int := if neg then -(((num + 2 ^ d - 1) / 2 ^ d : Nat) : Int) else ((num / 2 ^ d : Nat) : Int)
    let frac : Nat := if neg then (2 ^ d - num % 2 ^ d) % 2 ^ d else num % 2 ^ d
    if frac = 0 then fp32.round .rne false 1 whole
    else fp32.round .rne false (fixExp2 (frac * fixOne / 2 ^ d)) (whole - fixBits) true

/-- vexp2 (R254). -/
def sfuExp2 (x : Nat) : FRes :=
  match fp32.unpack x with
  | .nan s => fp32.nanRes s
  | .inf n => (if n then 0 else fp32.infinity false, 0)
  | .fin n m e => if m = 0 then fp32.round .rne false 1 0 else exp2Fin n m e

/-- vlog2 (R254). -/
def sfuLog2 (x : Nat) : FRes :=
  match fp32.unpack x with
  | .nan s => fp32.nanRes s
  | .inf n => if n then fp32.invalid else (fp32.infinity false, 0)
  | .fin n m e =>
    if m = 0 then sfuPole true
    else if n then fp32.invalid
    else
      let k := m.log2
      let i : Int := e + k
      if m = 2 ^ k then fp32.ofInt .rne i
      else
        let v : Int := i * fixOne + fixLog2 m k
        fp32.round .rne (v < 0) v.natAbs (-(fixBits : Int)) true

/-- vrcp (R254). -/
def sfuRcp (x : Nat) : FRes := fp32.div .rne 0x3F800000 x

/-- vrsqrt: the reciprocal of the square root, rounded once (R254). -/
def sfuRsqrt (x : Nat) : FRes :=
  match fp32.unpack x with
  | .nan s => fp32.nanRes s
  | .inf n => if n then fp32.invalid else (0, 0)
  | .fin n m e =>
    if m = 0 then sfuPole n
    else if n then fp32.invalid
    else
      -- 1 / sqrt(m 2^e) = sqrt(2^(2k) / m) 2^(-k) 2^(-e/2), with e made even
      let (m', e') := if e % 2 = 0 then (m, e) else (2 * m, e - 1)
      let q := 2 ^ 120 / m'
      let r := isqrt 64 q 0
      fp32.round .rne false r (-60 - e' / 2) (r * r * m' != 2 ^ 120)

/-- tanh of a finite value that is not zero. -/
def tanhFin (neg : Bool) (m : Nat) (e : Int) : FRes :=
  let lead := e + m.log2
  if lead < -13 then fp32.round .rne neg (m * 2 ^ 64 - 1) (e - 64) true
  else if 4 < lead then fp32.round .rne neg (2 ^ 64 - 1) (-64) true
  else
    -- y = 2 x / ln 2, so that e^(2x) = 2^y
    let x2 : Nat := if 0 ≤ e + 1 then m * 2 ^ (e + 1).toNat * fixOne else m * fixOne / 2 ^ (-(e + 1)).toNat
    let y := x2 * fixOne / fixLn2
    let p := fixExp2 (y % fixOne) * 2 ^ (y / fixOne)
    fp32.round .rne neg ((p - fixOne) * fixOne / (p + fixOne)) (-(fixBits : Int)) true

/-- vtanh (R254). -/
def sfuTanh (x : Nat) : FRes :=
  match fp32.unpack x with
  | .nan s => fp32.nanRes s
  | .inf n => (fp32.withSign n 0x3F800000, 0)
  | .fin n m e => if m = 0 then (fp32.withSign n 0, 0) else tanhFin n m e

end Sys2Proof.Machine
end

