-- ==== Sys2Proof/Machine/Vector.lean ====
section
/-! DEFINITION. The vector instructions (spec/13 R243-R258) and the special-function and top-k units (spec/12
R235-R239). -/

namespace Sys2Proof.Machine

/-! ## Element operations -/

/-- Arithmetic in the element format; an integer format, which the majors of floating point do not accept, gives 0. -/
def fpOp (f : BitVec 3) (g : Fmt → Nat → Nat → Nat → FRes) : ElemOp := fun a b d =>
  match elemOf f with
  | .fp F => g F a b d
  | .int _ => (0, 0)

/-- Integer arithmetic on signed values of the element width, wrapped; nothing is raised (R244). -/
def intOp (f : BitVec 3) (g : Nat → Int → Int → Int) : ElemOp := fun a b _ =>
  let w := (elemOf f).width
  (wrapOf w (g w (signedOf w a) (signedOf w b)), 0)

/-- Arithmetic on element bits as naturals of the element width; nothing is raised (R245). -/
def bitOp (f : BitVec 3) (g : Nat → Nat → Nat → Nat) : ElemOp := fun a b _ =>
  let w := (elemOf f).width
  (g w a b % 2 ^ w, 0)

/-- An element operation on every element of lane words (R241). -/
def onWords (f : BitVec 3) (op : ElemOp) : ElemOp := (elemOf f).onWord op

/-- Clamps to a signed width (R244). -/
def clampTo (w : Nat) (i : Int) : Int :=
  if i < -(2 ^ (w - 1)) then -(2 ^ (w - 1)) else if (2 ^ (w - 1) : Int) - 1 < i then 2 ^ (w - 1) - 1 else i

/-- The shift amount of an element: its low log2(w) bits (R245). -/
def elemShift (w b : Nat) : Nat := b % w

/-! ## Floating-point and integer arithmetic, logic, shifts -/

/-- vaddFp (R243). -/
def execVaddFp (f : BitVec 3) (d a b : BitVec 4) (m : BitVec 3) (p sc : Bool) (s : State) : Result :=
  vecMap s true d a (srcB b sc) m p false (onWords f (fpOp f fun F a b _ => F.add s.rmode a b))

/-- vsubFp (R243). -/
def execVsubFp (f : BitVec 3) (d a b : BitVec 4) (m : BitVec 3) (p sc : Bool) (s : State) : Result :=
  vecMap s true d a (srcB b sc) m p false (onWords f (fpOp f fun F a b _ => F.sub s.rmode a b))

/-- vmulFp (R243). -/
def execVmulFp (f : BitVec 3) (d a b : BitVec 4) (m : BitVec 3) (p sc : Bool) (s : State) : Result :=
  vecMap s true d a (srcB b sc) m p false (onWords f (fpOp f fun F a b _ => F.mul s.rmode a b))

/-- vfma (R243). -/
def execVfma (f : BitVec 3) (d a b : BitVec 4) (m : BitVec 3) (p sc : Bool) (s : State) : Result :=
  vecMap s true d a (srcB b sc) m p true (onWords f (fpOp f fun F a b d => F.fma s.rmode false false a b d))

/-- vfms (R243). -/
def execVfms (f : BitVec 3) (d a b : BitVec 4) (m : BitVec 3) (p sc : Bool) (s : State) : Result :=
  vecMap s true d a (srcB b sc) m p true (onWords f (fpOp f fun F a b d => F.fma s.rmode true false a b d))

/-- vminFp (R243). -/
def execVminFp (f : BitVec 3) (d a b : BitVec 4) (m : BitVec 3) (p sc : Bool) (s : State) : Result :=
  vecMap s true d a (srcB b sc) m p false (onWords f (fpOp f fun F a b _ => F.minMax false a b))

/-- vmaxFp (R243). -/
def execVmaxFp (f : BitVec 3) (d a b : BitVec 4) (m : BitVec 3) (p sc : Bool) (s : State) : Result :=
  vecMap s true d a (srcB b sc) m p false (onWords f (fpOp f fun F a b _ => F.minMax true a b))

/-- vabsFp (R243). -/
def execVabsFp (f : BitVec 3) (d a : BitVec 4) (m : BitVec 3) (p : Bool) (s : State) : Result :=
  vecMap s true d a .none m p false (onWords f (fpOp f fun F a _ _ => F.signInject a false))

/-- vneg (R243). -/
def execVneg (f : BitVec 3) (d a : BitVec 4) (m : BitVec 3) (p : Bool) (s : State) : Result :=
  vecMap s true d a .none m p false (onWords f (fpOp f fun F a _ _ => F.signInject a (!F.signOf a)))

/-- vaddInt (R244). -/
def execVaddInt (f : BitVec 3) (d a b : BitVec 4) (m : BitVec 3) (p sc : Bool) (s : State) : Result :=
  vecMap s false d a (srcB b sc) m p false (onWords f (intOp f fun _ a b => a + b))

/-- vsubInt (R244). -/
def execVsubInt (f : BitVec 3) (d a b : BitVec 4) (m : BitVec 3) (p sc : Bool) (s : State) : Result :=
  vecMap s false d a (srcB b sc) m p false (onWords f (intOp f fun _ a b => a - b))

/-- vmulInt (R244). -/
def execVmulInt (f : BitVec 3) (d a b : BitVec 4) (m : BitVec 3) (p sc : Bool) (s : State) : Result :=
  vecMap s false d a (srcB b sc) m p false (onWords f (intOp f fun _ a b => a * b))

/-- vmulh (R244). -/
def execVmulh (f : BitVec 3) (d a b : BitVec 4) (m : BitVec 3) (p sc : Bool) (s : State) : Result :=
  vecMap s false d a (srcB b sc) m p false (onWords f (intOp f fun w a b => a * b / 2 ^ w))

/-- vminInt (R244). -/
def execVminInt (f : BitVec 3) (d a b : BitVec 4) (m : BitVec 3) (p sc : Bool) (s : State) : Result :=
  vecMap s false d a (srcB b sc) m p false (onWords f (intOp f fun _ a b => if a < b then a else b))

/-- vmaxInt (R244). -/
def execVmaxInt (f : BitVec 3) (d a b : BitVec 4) (m : BitVec 3) (p sc : Bool) (s : State) : Result :=
  vecMap s false d a (srcB b sc) m p false (onWords f (intOp f fun _ a b => if a < b then b else a))

/-- vminu (R244). -/
def execVminu (f : BitVec 3) (d a b : BitVec 4) (m : BitVec 3) (p sc : Bool) (s : State) : Result :=
  vecMap s false d a (srcB b sc) m p false (onWords f (bitOp f fun _ a b => Nat.min a b))

/-- vmaxu (R244). -/
def execVmaxu (f : BitVec 3) (d a b : BitVec 4) (m : BitVec 3) (p sc : Bool) (s : State) : Result :=
  vecMap s false d a (srcB b sc) m p false (onWords f (bitOp f fun _ a b => Nat.max a b))

/-- vadds (R244). -/
def execVadds (f : BitVec 3) (d a b : BitVec 4) (m : BitVec 3) (p sc : Bool) (s : State) : Result :=
  vecMap s false d a (srcB b sc) m p false (onWords f (intOp f fun w a b => clampTo w (a + b)))

/-- vsubs (R244). -/
def execVsubs (f : BitVec 3) (d a b : BitVec 4) (m : BitVec 3) (p sc : Bool) (s : State) : Result :=
  vecMap s false d a (srcB b sc) m p false (onWords f (intOp f fun w a b => clampTo w (a - b)))

/-- vabsInt (R244). -/
def execVabsInt (f : BitVec 3) (d a : BitVec 4) (m : BitVec 3) (p : Bool) (s : State) : Result :=
  vecMap s false d a .none m p false (onWords f (intOp f fun _ a _ => if a < 0 then -a else a))

/-- vand (R245). -/
def execVand (f : BitVec 3) (d a b : BitVec 4) (m : BitVec 3) (p sc : Bool) (s : State) : Result :=
  vecMap s false d a (srcB b sc) m p false (onWords f (bitOp f fun _ a b => a &&& b))

/-- vor (R245). -/
def execVor (f : BitVec 3) (d a b : BitVec 4) (m : BitVec 3) (p sc : Bool) (s : State) : Result :=
  vecMap s false d a (srcB b sc) m p false (onWords f (bitOp f fun _ a b => a ||| b))

/-- vxor (R245). -/
def execVxor (f : BitVec 3) (d a b : BitVec 4) (m : BitVec 3) (p sc : Bool) (s : State) : Result :=
  vecMap s false d a (srcB b sc) m p false (onWords f (bitOp f fun _ a b => a ^^^ b))

/-- vandn (R245). -/
def execVandn (f : BitVec 3) (d a b : BitVec 4) (m : BitVec 3) (p sc : Bool) (s : State) : Result :=
  vecMap s false d a (srcB b sc) m p false (onWords f (bitOp f fun w a b => a &&& (2 ^ w - 1 - b)))

/-- vnot (R245). -/
def execVnot (f : BitVec 3) (d a : BitVec 4) (m : BitVec 3) (p : Bool) (s : State) : Result :=
  vecMap s false d a .none m p false (onWords f (bitOp f fun w a _ => 2 ^ w - 1 - a))

/-- vsll (R245). -/
def execVsll (f : BitVec 3) (d a b : BitVec 4) (m : BitVec 3) (p sc : Bool) (s : State) : Result :=
  vecMap s false d a (srcB b sc) m p false (onWords f (bitOp f fun w a b => a * 2 ^ elemShift w b))

/-- vsrl (R245). -/
def execVsrl (f : BitVec 3) (d a b : BitVec 4) (m : BitVec 3) (p sc : Bool) (s : State) : Result :=
  vecMap s false d a (srcB b sc) m p false (onWords f (bitOp f fun w a b => a / 2 ^ elemShift w b))

/-- vsra (R245). -/
def execVsra (f : BitVec 3) (d a b : BitVec 4) (m : BitVec 3) (p sc : Bool) (s : State) : Result :=
  vecMap s false d a (srcB b sc) m p false (onWords f (intOp f fun w a b => a / 2 ^ elemShift w (wrapOf w b)))

/-! ## Compare and select -/

/-- Whether a comparison holds for every element of two lane words, with its flags (R246). -/
def compareWords (f : BitVec 3) (fp : Fmt → Nat → Nat → Bool × Flags) (int : Int → Int → Bool) (a b : Nat) :
    Bool × Flags :=
  let e := elemOf f
  (List.range e.perWord).foldl (fun r i =>
    let x := slice e.width i a
    let y := slice e.width i b
    let t := match e with
      | .fp F => fp F x y
      | .int w => (int (signedOf w x) (signedOf w y), 0)
    (r.1 && t.1, joinFlags r.2 t.2)) (true, 0)

/-- The mask register after a compare (R246): `l` holds t of lane `j` on; None where the lane keeps its bit. -/
def setLanes (old : Word) : Nat → List (Option Bool) → Word
  | _, [] => old
  | j, t :: l =>
    let r := setLanes old (j + 1) l
    match t with
    | none => r
    | some b => if b then r ||| (1#64 <<< j) else r &&& ~~~(1#64 <<< j)

/-- A vector compare (R246). -/
def vecCompare (s : State) (f d : BitVec 3) (a : BitVec 4) (b : SrcB) (m : BitVec 3) (zero : Bool)
    (fp : Fmt → Nat → Nat → Bool × Flags) (int : Int → Int → Bool) : Result :=
  let n := s.vlen
  let named := a :: b.named
  if n = 0 then vecNone s named true
  else if s.operandsPending m b then .next s
  else
    vecIssue s ((s.vp a, n) :: b.streams s n) none []
      ((readOperands s (s.vp a) b none n (s.active m)).next s fun s' l =>
        let ts := (List.range n).zip l |>.map fun (j, x) =>
          if s.active m j then (let t := compareWords f fp int x.1 x.2.1; (some t.1, t.2))
          else (if zero then some false else none, 0)
        pushVec s' { emptyVec s named true with
          mreg := some (d, setLanes (s.vm d) 0 (ts.map (·.1))), flags := unionFlags (ts.map (·.2)) })

/-- vceq (R246). -/
def execVceq (f d : BitVec 3) (a b : BitVec 4) (m : BitVec 3) (p sc : Bool) (s : State) : Result :=
  vecCompare s f d a (srcB b sc) m p (fun F x y => F.feq x y) (fun x y => decide (x = y))

/-- vclt (R246). -/
def execVclt (f d : BitVec 3) (a b : BitVec 4) (m : BitVec 3) (p sc : Bool) (s : State) : Result :=
  vecCompare s f d a (srcB b sc) m p (fun F x y => F.flt x y) (fun x y => decide (x < y))

/-- vcle (R246). -/
def execVcle (f d : BitVec 3) (a b : BitVec 4) (m : BitVec 3) (p sc : Bool) (s : State) : Result :=
  vecCompare s f d a (srcB b sc) m p (fun F x y => F.fle x y) (fun x y => decide (x ≤ y))

/-- vcne (R246). -/
def execVcne (f d : BitVec 3) (a b : BitVec 4) (m : BitVec 3) (p sc : Bool) (s : State) : Result :=
  vecCompare s f d a (srcB b sc) m p (fun F x y => (!(F.feq x y).1, (F.feq x y).2)) (fun x y => decide (x ≠ y))

/-- vsel: every lane word takes a or b by its mask bit, as bits (R247). DESIGN CHOICE: a lane reads the word of the operand
that its bit selects, and not the other's (notes/assumptions/65). -/
def execVsel (_f : BitVec 3) (d a b : BitVec 4) (m : BitVec 3) (sc : Bool) (s : State) : Result :=
  let n := s.vlen
  let y := srcB b sc
  let named := a :: y.named ++ [d]
  if n = 0 then vecNone s named true
  else if s.operandsPending m y then .next s
  else
    vecIssue s ((s.vp a, n) :: y.streams s n) (some (s.vp d, n)) []
      ((readStream s (s.vp a) n (s.active m)).next s fun s1 la =>
        (y.read s1 n (fun j => !s.active m j)).next s fun s2 lb =>
          let l := (zip3 n la lb []).zip (List.range n) |>.map fun (x, j) => if s.active m j then x.1 else x.2.1
          pushVec s2 { emptyVec s named true with writes := laneWrites (s.vp d) false 0 (l.map some) })

/-! ## Convert, quantise, pack, unpack -/

/-- Element `i` of a stream of lane words, elements of `w` bits (R248). -/
def elemAt (w : Nat) (words : List Nat) (i : Nat) : Nat := slice w (i % (32 / w)) (words.getD (i / (32 / w)) 0)

/-- The write of element `i` of a target stream in its own bits (R248). -/
def elemWrite (p : Word) (w i v : Nat) : LaneWrite :=
  let k := i % (32 / w) * w
  ⟨ptrSpace p, laneOff p (i / (32 / w)), .ofNat 32 ((2 ^ w - 1) * 2 ^ k), .ofNat 32 (v % 2 ^ w * 2 ^ k)⟩

/-- The conversion of an element between formats (R33, R34, R249). -/
def convertElem (src dst : Elem) (mode : RMode) (x : Nat) : FRes :=
  match src, dst with
  | .fp F, .fp G => fconvert F G mode x
  | .fp F, .int w => let r := F.toInt mode w x; (wrapOf w r.1, r.2)
  | .int w, .fp G => G.ofInt mode (signedOf w x)
  | .int w, .int v => (wrapOf v (signedOf w x), 0)

/-- The common form of vcvt and vquant (R248): `n` elements, mask bit i / e governing element i. -/
def vecConvert (s : State) (d a : BitVec 4) (b : SrcB) (m : BitVec 3) (zero : Bool) (src dst : Elem) (op : Nat → FRes) :
    Result :=
  let e := Nat.min src.perWord dst.perWord
  let n := s.vlen * e
  let named := [a, d]
  if s.vlen = 0 then vecNone s named true
  else if s.operandsPending m b then .next s
  else
    vecIssue s [(s.vp a, n / src.perWord)] (some (s.vp d, n / dst.perWord)) []
      ((readStream s (s.vp a) (n / src.perWord)
          (fun j => (List.range src.perWord).any fun i => s.active m ((j * src.perWord + i) / e))).next s fun s' l =>
        let rs := (List.range n).map fun i =>
          if s.active m (i / e) then (let r := op (elemAt src.width l i); (some (elemWrite (s.vp d) dst.width i r.1), r.2))
          else (if zero then some (elemWrite (s.vp d) dst.width i 0) else none, 0)
        pushVec s' { emptyVec s named true with writes := rs.filterMap (·.1), flags := unionFlags (rs.map (·.2)) })

/-- vcvt: `sh` is the source format (R249). -/
def execVcvt (f : BitVec 3) (d a : BitVec 4) (sh m : BitVec 3) (p : Bool) (s : State) : Result :=
  vecConvert s d a .none m p (elemOf sh) (elemOf f) (convertElem (elemOf sh) (elemOf f) s.rmode)

/-- The quantised value of an FP32 element under a reciprocal scale: the exact product, rounded RNE (R250). -/
def quantElem (dst : Elem) (r x : Nat) : FRes :=
  let y := ((fp32.unpack x).mul (fp32.unpack r)).getD (.nan true)
  match dst with
  | .fp G => G.ofVal .rne y
  | .int w => let t := toIntVal y .rne w; (wrapOf w t.1, t.2)

/-- vquant (R250). -/
def execVquant (f : BitVec 3) (d a b : BitVec 4) (m : BitVec 3) (p : Bool) (s : State) : Result :=
  vecConvert s d a (.scalar (b.setWidth 5)) m p (.fp fp32) (elemOf f) (quantElem (elemOf f) (s.fcode (b.setWidth 5) false))

/-- The trit digit of an element (R39). -/
def digitOf (e : Elem) (x : Nat) : FRes :=
  match e with
  | .fp F => (F.unpack x).trit
  | .int w => (if signedOf w x = 0 then 0 else if signedOf w x < 0 then 2 else 1, 0)

/-- Five digits as a trit byte (R37). -/
def packTrits (ds : List Nat) : Nat := ds.foldr (fun d r => d + 3 * r) 0

/-- vpk3 (R251). -/
def execVpk3 (f : BitVec 3) (d a : BitVec 4) (s : State) : Result :=
  let e := elemOf f
  let n := s.vlen * e.perWord
  let nb := (n + 4) / 5
  if s.vlen = 0 then vecNone s [a, d] true
  else
    vecIssue s [(s.vp a, s.vlen)] (some (s.vp d, (nb + 3) / 4)) []
      ((readStream s (s.vp a) s.vlen (fun _ => true)).next s fun s' l =>
        let ds := (List.range n).map fun i => digitOf e (elemAt e.width l i)
        let ws := (List.range nb).map fun b =>
          elemWrite (s.vp d) 8 b (packTrits (((ds.drop (5 * b)).take 5).map (·.1)))
        pushVec s' { emptyVec s [a, d] true with writes := ws, flags := unionFlags (ds.map (·.2)) })

/-- A trit digit as an element (R252). -/
def digitElem (e : Elem) (dg : Nat) : Nat :=
  match e with
  | .fp F => if dg = 0 then 0 else F.withSign (dg == 2) (F.bias * 2 ^ F.mant)
  | .int w => if dg = 0 then 0 else if dg = 1 then 1 else 2 ^ w - 1

/-- vupk3: an illegal trit byte traps before anything is written (R252). DESIGN CHOICE: DATA_UNCORRECTABLE of any lane word
of the source comes before TRIT_BYTE_ILLEGAL (notes/assumptions/65). -/
def execVupk3 (f : BitVec 3) (d a : BitVec 4) (s : State) : Result :=
  let e := elemOf f
  let n := s.vlen * e.perWord
  let nb := (n + 4) / 5
  if s.vlen = 0 then vecNone s [a, d] true
  else
    vecIssue s [(s.vp a, (nb + 3) / 4)] (some (s.vp d, s.vlen)) []
      ((readStream s (s.vp a) ((nb + 3) / 4) (fun _ => true)).next s fun s' l =>
        match (List.range nb).find? (fun b => decide (243 ≤ elemAt 8 l b)) with
        | some b => trap s causeTritByte (.ofNat 64 (5 * b / e.perWord))
        | none =>
          let ws := (List.range n).map fun i =>
            elemWrite (s.vp d) e.width i (digitElem e (elemAt 8 l (i / 5) / 3 ^ (i % 5) % 3))
          pushVec s' { emptyVec s [a, d] true with writes := ws })

/-! ## Reductions -/

/-- One level of the pairwise tree (R237). -/
def treeLevel (op : Nat → Nat → FRes) : List FRes → List FRes
  | x :: y :: l => (let r := op x.1 y.1; (r.1, joinFlags (joinFlags x.2 y.2) r.2)) :: treeLevel op l
  | l => l

/-- The pairwise tree (R237). -/
def treeReduce (op : Nat → Nat → FRes) : (fuel : Nat) → List FRes → FRes
  | 0, l => l.headD (0, 0)
  | n + 1, l => if l.length ≤ 1 then l.headD (0, 0) else treeReduce op n (treeLevel op l)

/-- The kinds of reduction (R253). -/
inductive Red where
  | sum
  | max
  | min
  deriving DecidableEq, Repr

/-- The identity of a masked-off element, as 32 bits (R237). -/
def Red.identity (r : Red) (e : Elem) : Nat :=
  match e, r with
  | .fp _, .sum => 0x80000000
  | .fp _, .max => 0xFF800000
  | .fp _, .min => 0x7F800000
  | .int _, .sum => 0
  | .int w, .max => wrapOf 32 (-(2 ^ (w - 1)))
  | .int w, .min => wrapOf 32 (2 ^ (w - 1) - 1)

/-- An element widened to 32 bits (R237). -/
def widenElem (e : Elem) (x : Nat) : FRes :=
  match e with
  | .fp F => fconvert F fp32 .rne x
  | .int w => (wrapOf 32 (signedOf w x), 0)

/-- The combining operation on 32-bit values (R237). -/
def Red.op (r : Red) (e : Elem) (x y : Nat) : FRes :=
  match e, r with
  | .fp _, .sum => fp32.add .rne x y
  | .fp _, .max => fp32.minMax true x y
  | .fp _, .min => fp32.minMax false x y
  | .int _, .sum => ((x + y) % 2 ^ 32, 0)
  | .int _, .max => (if signedOf 32 x < signedOf 32 y then y else x, 0)
  | .int _, .min => (if signedOf 32 x < signedOf 32 y then x else y, 0)

/-- A reduction: f[d] receives its value at retirement (R237, R253). -/
def vecReduce (s : State) (f : BitVec 3) (d a : BitVec 4) (m : BitVec 3) (r : Red) : Result :=
  let e := elemOf f
  let n := s.vlen
  if n = 0 then vecNone s [a] true
  else if s.operandsPending m .none then .next s
  else
    vecIssue s [(s.vp a, n)] none []
      ((readStream s (s.vp a) n (s.active m)).next s fun s' l =>
        let es := (List.range (n * e.perWord)).map fun i =>
          if s.active m (i / e.perWord) then widenElem e (elemAt e.width l i) else (r.identity e, 0)
        let v := treeReduce (r.op e) es.length es
        pushVec s' { emptyVec s [a] true with freg := some (d.setWidth 5, .ofNat 32 v.1), flags := v.2 })

/-- vredsum (R253). -/
def execVredsum (f : BitVec 3) (d a : BitVec 4) (m : BitVec 3) (s : State) : Result := vecReduce s f d a m .sum

/-- vredmax (R253). -/
def execVredmax (f : BitVec 3) (d a : BitVec 4) (m : BitVec 3) (s : State) : Result := vecReduce s f d a m .max

/-- vredmin (R253). -/
def execVredmin (f : BitVec 3) (d a : BitVec 4) (m : BitVec 3) (s : State) : Result := vecReduce s f d a m .min

/-! ## Special functions -/

/-- The entry enters the special-function queue and its core waits (R235). -/
def State.enterSfu (s : State) (v : PendVec) : Result :=
  let x := s.cl s.curCluster
  .next ((s.setCl s.curCluster { x with sfu := x.sfu ++ [⟨corenoOf s.cur, v⟩] }).setCore s.core.entered)

/-- A special-function instruction (R235, R254). DESIGN CHOICE: room in the unit's queue, and a mask that is pending, are
waited for before MISALIGNED is raised (notes/assumptions/65). -/
def vecSpecial (s : State) (d a : BitVec 4) (m : BitVec 3) (zero : Bool) (op : Nat → FRes) : Result :=
  let n := s.vlen
  if n = 0 then vecNone s [a, d] true
  else if 8 ≤ (s.cl s.curCluster).sfu.length || s.operandsPending m .none then .next s
  else
    vecIssue s [(s.vp a, n)] (some (s.vp d, n)) []
      ((readStream s (s.vp a) n (s.active m)).next s fun s' l =>
        let r := laneResults (s.active m) (fun x _ _ => op x) 0 (zip3 n l [] [])
        s'.enterSfu { emptyVec s [a, d] true with writes := laneWrites (s.vp d) zero 0 r.1, flags := r.2, unit := true })

/-- vexp2 (R254). -/
def execVexp2 (d a : BitVec 4) (m : BitVec 3) (p : Bool) (s : State) : Result := vecSpecial s d a m p sfuExp2

/-- vlog2 (R254). -/
def execVlog2 (d a : BitVec 4) (m : BitVec 3) (p : Bool) (s : State) : Result := vecSpecial s d a m p sfuLog2

/-- vrcp (R254). -/
def execVrcp (d a : BitVec 4) (m : BitVec 3) (p : Bool) (s : State) : Result := vecSpecial s d a m p sfuRcp

/-- vrsqrt (R254). -/
def execVrsqrt (d a : BitVec 4) (m : BitVec 3) (p : Bool) (s : State) : Result := vecSpecial s d a m p sfuRsqrt

/-- vtanh (R254). -/
def execVtanh (d a : BitVec 4) (m : BitVec 3) (p : Bool) (s : State) : Result := vecSpecial s d a m p sfuTanh

/-- The head of the special-function queue leaves it; its write beats are requested (R235, R236). -/
def evSfuExecute (k : ClusterId) (s : State) : Option State :=
  match (s.cl k).sfu with
  | [] => none
  | e :: es =>
    let c := coreOf k e.core
    some ((s.setCl k { s.cl k with sfu := es }).setCoreAt c
      { s.coreAt c with wait := .retiring, vq := (s.coreAt c).vq ++ [{ e.vec with before := (s.coreAt c).stores.length }] })

/-- SFU_EXECUTE (R235). -/
def execSfuExecute (k : ClusterId) (s : State) : Result := fire s (evSfuExecute k s)

/-! ## Move, gather, scatter -/

/-- vmov of a stream (R255). -/
def execVmov (_f : BitVec 3) (d a : BitVec 4) (m : BitVec 3) (p : Bool) (s : State) : Result :=
  vecMap s false d a .none m p false fun x _ _ => (x, 0)

/-- vmov of an f register (R255). -/
def execVmovScalar (_f : BitVec 3) (d b : BitVec 4) (m : BitVec 3) (p : Bool) (s : State) : Result :=
  let n := s.vlen
  let v := s.fcode (b.setWidth 5) false
  if n = 0 then vecNone s [d] false
  else if s.operandsPending m (.scalar (b.setWidth 5)) then .next s
  else
    vecIssue s [] (some (s.vp d, n)) []
      (pushVec s { emptyVec s [d] false with
        writes := laneWrites (s.vp d) p 0 ((List.range n).map fun j => if s.active m j then some v else none) })

/-- Offsets that the active lanes address through a base pointer (R256). -/
def baseOffs (s : State) (base : Word) (m : BitVec 3) (n : Nat) (bs : List Nat) : List (Option Nat) :=
  (List.range n).zip bs |>.map fun (j, b) => if s.active m j then some ((ptrAddr base + b) % 2 ^ 21) else none

/-- The first offset that is not a multiple of 4 (R256). -/
def badOffset (os : List (Option Nat)) : Option Nat := (os.filterMap id).find? fun o => o % 4 != 0

/-- vgath (R256). DESIGN CHOICE: an offset that is no multiple of 4 traps before the wait for covered lane words, and after
the ACM_BUSY of a covered pd; DATA_UNCORRECTABLE of any lane of the offsets' stream comes before it; SPFLAG records the
offsets' stream before the words that they address (notes/assumptions/65). -/
def execVgath (_f : BitVec 3) (d a b : BitVec 4) (m : BitVec 3) (p : Bool) (s : State) : Result :=
  let n := s.vlen
  let sp := ptrSpace (s.vp a)
  if n = 0 then vecNone s [a, b, d] false
  else if s.operandsPending m .none then .next s
  else
    vecIssue s [(s.vp b, n)] (some (s.vp d, n)) []
      ((readStream s (s.vp b) n (s.active m)).next s fun s1 bs =>
        let os := baseOffs s (s.vp a) m n bs
        match badOffset os with
        | some o => trap s causeMisaligned (.ofNat 64 o)
        | none =>
          if s.anyCovered sp (os.filterMap id) || s.core.granulePending sp (os.filterMap id) then .next s
          else (readLanes s1 sp os).next s fun s2 l =>
            let r := (List.range n).zip l |>.map fun (j, v) => if s.active m j then some v else none
            pushVec s2 { emptyVec s [a, b, d] false with writes := laneWrites (s.vp d) p 0 r })

/-- vscat: of two lanes that name one lane word the higher is written last (R256). DESIGN CHOICE: MISALIGNED comes before
ACM_BUSY, and DATA_UNCORRECTABLE of any lane of the streams before both (notes/assumptions/65). -/
def execVscat (_f : BitVec 3) (d a b : BitVec 4) (m : BitVec 3) (s : State) : Result :=
  let n := s.vlen
  let sp := ptrSpace (s.vp d)
  if n = 0 then vecNone s [a, b, d] false
  else if s.operandsPending m .none then .next s
  else
    vecIssue s [(s.vp a, n), (s.vp b, n)] none []
      ((readStream s (s.vp a) n (s.active m)).next s fun s1 as =>
        (readStream s1 (s.vp b) n (s.active m)).next s fun s2 bs =>
          let os := baseOffs s (s.vp d) m n bs
          match badOffset os with
          | some o => trap s causeMisaligned (.ofNat 64 o)
          | none =>
            match s.lowestCovered sp (os.filterMap id) with
            | some o => trap s causeAcmBusy (.ofNat 64 o)
            | none =>
              let ws := os.zip as |>.filterMap fun (o, v) => o.map fun x => (⟨sp, x, -1, .ofNat 32 v⟩ : LaneWrite)
              pushVec s2 { emptyVec s [a, b, d] false with writes := ws })

/-! ## Top-k -/

/-- vtopk enters the top-k queue and its core waits; it raises no flag (R234, R238, R257). DESIGN CHOICE: with SPACE 1 in
pd the list is read and written in accumulator memory, covered or not; room in the unit's queue and a mask that is pending
are waited for before any MISALIGNED, and covered sources before that of pd (notes/assumptions/65). -/
def execVtopk (d a b : BitVec 4) (m : BitVec 3) (s : State) : Result :=
  let n := s.vlen
  let x := s.cl s.curCluster
  if n = 0 then vecNone s [a, b, d] false
  else if 8 ≤ x.topk.length || s.operandsPending m .none then .next s
  else
    vecIssue s [(s.vp a, n), (s.vp b, n)] none []
      (match misaligned 8 [s.vp d] with
      | some p => trap s causeMisaligned (zext (ptrLow p))
      | none =>
        (readStream s (s.vp a) n (s.active m)).next s fun s1 as =>
          (readStream s1 (s.vp b) n (s.active m)).next s fun s2 bs =>
            let pairs := (zip3 n as bs []).zip (List.range n) |>.filterMap fun (y, j) =>
              if s.active m j then some (BitVec.ofNat 32 y.1, BitVec.ofNat 32 y.2.1) else none
            let e : TopkEntry := { core := corenoOf s.cur, space := ptrSpace (s.vp d), list := ptrAddr (s.vp d),
                                   pairs := pairs, vec := { emptyVec s [a, b, d] false with unit := true, list := true } }
            let y := s2.cl s.curCluster
            .next ((s2.setCl s.curCluster { y with topk := y.topk ++ [e] }).setCore s2.core.entered))

/-- Whether entry `x` ranks strictly above entry `y` (R238). -/
def ranksAbove (x y : BitVec 32 × BitVec 32) : Bool :=
  let a := fp32.unpack x.1.toNat
  let b := fp32.unpack y.1.toNat
  if a.isNan && b.isNan then x.2.ult y.2
  else if b.isNan then true
  else if a.isNan then false
  else b.lt a || (a.eq b && x.2.ult y.2)

/-- Inserts a pair behind every entry that it does not rank above (R238). -/
def insertPair (x : BitVec 32 × BitVec 32) : List (BitVec 32 × BitVec 32) → List (BitVec 32 × BitVec 32)
  | [] => [x]
  | y :: l => if ranksAbove x y then x :: y :: l else y :: insertPair x l

/-- Sorts entries. DESIGN CHOICE: entries of equal score and id from one side, which can differ in the sign of a zero or
the payload of a NaN, keep the order of their lanes or of the list (R238, notes/assumptions/65). -/
def sortPairs (l : List (BitVec 32 × BitVec 32)) : List (BitVec 32 × BitVec 32) := l.foldl (fun r x => insertPair x r) []

/-- The new list: the first k of the old entries and the new pairs whose score is a number (R238). -/
def mergeTopk (k : Nat) (old new : List (BitVec 32 × BitVec 32)) : List (BitVec 32 × BitVec 32) :=
  (sortPairs (old ++ new.filter (fun x => !(fp32.unpack x.1.toNat).isNan))).take k

/-- Reads lane words on behalf of a core at a merge. -/
def State.readWords (s : State) (c : CoreId) (sp : Space) (o : Nat) : Nat → Option (State × List Nat)
  | 0 => some (s, [])
  | n + 1 => (s.readTeam c sp (o % 2 ^ 21) 4).bind fun (s', v) =>
      (s'.readWords c sp (o + 4) n).map fun (s'', l) => (s'', v :: l)

/-- Lane words as entries. -/
def toPairs : List Nat → List (BitVec 32 × BitVec 32)
  | x :: y :: l => (.ofNat 32 x, .ofNat 32 y) :: toPairs l
  | _ => []

/-- The writes of entries from an offset on. -/
def pairWrites (sp : Space) (o : Nat) : List (BitVec 32 × BitVec 32) → List LaneWrite
  | [] => []
  | x :: l => ⟨sp, o % 2 ^ 21, -1, x.1⟩ :: ⟨sp, (o + 4) % 2 ^ 21, -1, x.2⟩ :: pairWrites sp (o + 8) l

/-- Whether the top-k unit of a cluster has merged an entry whose instruction has not retired (R239). -/
def State.merging (s : State) (k : ClusterId) : Bool :=
  (List.finRange 8).any fun n => (s.coreAt (coreOf k n)).vq.any (·.list)

/-- The head of the top-k queue reads its list, once its core's earlier vector instructions and the entry before it have
retired, and merges; its instruction then retires with the writes, and may be withdrawn until the first of them (R231,
R239). A list beyond correction traps. DESIGN CHOICE: the offsets of a list wrap modulo 2^21; SPFLAG and SPADDR of the
sources, read at issue, stay as they are set there when the list traps or the entry is withdrawn (notes/assumptions/65). -/
def evTopkMerge (k : ClusterId) (s : State) : Option State :=
  match (s.cl k).topk with
  | [] => none
  | e :: es =>
    let c := coreOf k e.core
    if !(s.coreAt c).vq.isEmpty || s.merging k then none
    else (s.readWords c e.space e.list 1).bind fun (s1, hd) =>
      let n := Nat.min (hd.headD 0 % 512) 256
      let bad := (List.range (2 * n + 1)).find? fun i => s.granuleBad c e.space ((e.list + 4 * i) % 2 ^ 21)
      let s0 := s1.setCl k { s1.cl k with topk := es }
      match bad with
      | some i => some (s0.trapAt c causeDataError (spaceOff e.space ((e.list + 4 * i) % 2 ^ 21)) false)
      | none =>
        (s0.readWords c e.space (e.list + 8) (2 * n)).map fun (s2, l) =>
          let v := { e.vec with writes := pairWrites e.space (e.list + 8) (mergeTopk n (toPairs l) e.pairs),
                                before := (s2.coreAt c).stores.length }
          s2.setCoreAt c { s2.coreAt c with vq := (s2.coreAt c).vq ++ [v] }

/-- TOPK_MERGE (R239). -/
def execTopkMerge (k : ClusterId) (s : State) : Result := fire s (evTopkMerge k s)

/-! ## Lane control -/

/-- vfence: no trap abandons it (R258). -/
def execVfence (s : State) : Result :=
  if s.core.vq.isEmpty then .next s.retire else .next (s.setCore { s.core with wait := .sync })

/-- Whether a command covers any accumulator (R166, R258). -/
def State.cmdCoversAny (s : State) (t : Option Slot) (x : Cmd) : Bool := (s.coverOf t x).holdsAny

/-- vdrain (R258). -/
def execVdrain (s : State) : Result :=
  if s.core.vq.isEmpty && !(s.teamCmds s.cur).any (s.cmdCoversAny s.core.slot) then .next s.retire
  else .next s

end Sys2Proof.Machine
end

