-- ==== Sys2Proof/Machine/Dispatch.lean ====
section
/-! DEFINITION. One arm per instruction: the call of its meaning. -/

namespace Sys2Proof.Machine

/-- The meaning of an instruction. -/
def exec (i : Instr) (s : State) : Host.Outcome State Fault Refusal :=
  match i with
  | .add d a b => Sys2Proof.Machine.execAdd d a b s
  | .sub d a b => Sys2Proof.Machine.execSub d a b s
  | .and d a b => Sys2Proof.Machine.execAnd d a b s
  | .or d a b => Sys2Proof.Machine.execOr d a b s
  | .xor d a b => Sys2Proof.Machine.execXor d a b s
  | .sll d a b => Sys2Proof.Machine.execSll d a b s
  | .srl d a b => Sys2Proof.Machine.execSrl d a b s
  | .sra d a b => Sys2Proof.Machine.execSra d a b s
  | .slt d a b => Sys2Proof.Machine.execSlt d a b s
  | .sltu d a b => Sys2Proof.Machine.execSltu d a b s
  | .min d a b => Sys2Proof.Machine.execMin d a b s
  | .max d a b => Sys2Proof.Machine.execMax d a b s
  | .minu d a b => Sys2Proof.Machine.execMinu d a b s
  | .maxu d a b => Sys2Proof.Machine.execMaxu d a b s
  | .ror d a b => Sys2Proof.Machine.execRor d a b s
  | .clz d a => Sys2Proof.Machine.execClz d a s
  | .ctz d a => Sys2Proof.Machine.execCtz d a s
  | .popc d a => Sys2Proof.Machine.execPopc d a s
  | .addi d a imm => Sys2Proof.Machine.execAddi d a imm s
  | .andi d a imm => Sys2Proof.Machine.execAndi d a imm s
  | .ori d a imm => Sys2Proof.Machine.execOri d a imm s
  | .xori d a imm => Sys2Proof.Machine.execXori d a imm s
  | .slti d a imm => Sys2Proof.Machine.execSlti d a imm s
  | .sltiu d a imm => Sys2Proof.Machine.execSltiu d a imm s
  | .slli d a sh => Sys2Proof.Machine.execSlli d a sh s
  | .srli d a sh => Sys2Proof.Machine.execSrli d a sh s
  | .srai d a sh => Sys2Proof.Machine.execSrai d a sh s
  | .rori d a sh => Sys2Proof.Machine.execRori d a sh s
  | .lui d imm => Sys2Proof.Machine.execLui d imm s
  | .addpc d imm => Sys2Proof.Machine.execAddpc d imm s
  | .mul d a b => Sys2Proof.Machine.execMul d a b s
  | .mulh d a b => Sys2Proof.Machine.execMulh d a b s
  | .mulhu d a b => Sys2Proof.Machine.execMulhu d a b s
  | .mulhsu d a b => Sys2Proof.Machine.execMulhsu d a b s
  | .div d a b => Sys2Proof.Machine.execDiv d a b s
  | .divu d a b => Sys2Proof.Machine.execDivu d a b s
  | .rem d a b => Sys2Proof.Machine.execRem d a b s
  | .remu d a b => Sys2Proof.Machine.execRemu d a b s
  | .ldb d a imm => Sys2Proof.Machine.execLdb d a imm s
  | .ldbu d a imm => Sys2Proof.Machine.execLdbu d a imm s
  | .ldh d a imm => Sys2Proof.Machine.execLdh d a imm s
  | .ldhu d a imm => Sys2Proof.Machine.execLdhu d a imm s
  | .ldw d a imm => Sys2Proof.Machine.execLdw d a imm s
  | .ldwu d a imm => Sys2Proof.Machine.execLdwu d a imm s
  | .ld d a imm => Sys2Proof.Machine.execLd d a imm s
  | .stb d a imm => Sys2Proof.Machine.execStb d a imm s
  | .sth d a imm => Sys2Proof.Machine.execSth d a imm s
  | .stw d a imm => Sys2Proof.Machine.execStw d a imm s
  | .st d a imm => Sys2Proof.Machine.execSt d a imm s
  | .fldw d a imm => Sys2Proof.Machine.execFldw d a imm s
  | .fldd d a imm => Sys2Proof.Machine.execFldd d a imm s
  | .fstw d a imm => Sys2Proof.Machine.execFstw d a imm s
  | .fstd d a imm => Sys2Proof.Machine.execFstd d a imm s
  | .savemG d a b => Sys2Proof.Machine.execSavemG d a b s
  | .loadmG d a b => Sys2Proof.Machine.execLoadmG d a b s
  | .savemF d a b => Sys2Proof.Machine.execSavemF d a b s
  | .loadmF d a b => Sys2Proof.Machine.execLoadmF d a b s
  | .beq a b imm => Sys2Proof.Machine.execBeq a b imm s
  | .bne a b imm => Sys2Proof.Machine.execBne a b imm s
  | .blt a b imm => Sys2Proof.Machine.execBlt a b imm s
  | .bge a b imm => Sys2Proof.Machine.execBge a b imm s
  | .bltu a b imm => Sys2Proof.Machine.execBltu a b imm s
  | .bgeu a b imm => Sys2Proof.Machine.execBgeu a b imm s
  | .jal d imm => Sys2Proof.Machine.execJal d imm s
  | .jalr d a imm => Sys2Proof.Machine.execJalr d a imm s
  | .fadd d a b p => Sys2Proof.Machine.execFadd d a b p s
  | .fsub d a b p => Sys2Proof.Machine.execFsub d a b p s
  | .fmul d a b p => Sys2Proof.Machine.execFmul d a b p s
  | .fdiv d a b p => Sys2Proof.Machine.execFdiv d a b p s
  | .fsqrt d a p => Sys2Proof.Machine.execFsqrt d a p s
  | .fmin d a b p => Sys2Proof.Machine.execFmin d a b p s
  | .fmax d a b p => Sys2Proof.Machine.execFmax d a b p s
  | .fsgnj d a b p => Sys2Proof.Machine.execFsgnj d a b p s
  | .fsgnjn d a b p => Sys2Proof.Machine.execFsgnjn d a b p s
  | .fsgnjx d a b p => Sys2Proof.Machine.execFsgnjx d a b p s
  | .feq d a b p => Sys2Proof.Machine.execFeq d a b p s
  | .flt d a b p => Sys2Proof.Machine.execFlt d a b p s
  | .fle d a b p => Sys2Proof.Machine.execFle d a b p s
  | .fclass d a p => Sys2Proof.Machine.execFclass d a p s
  | .fcvtSD d a => Sys2Proof.Machine.execFcvtSD d a s
  | .fcvtDS d a => Sys2Proof.Machine.execFcvtDS d a s
  | .fcvtWS d a => Sys2Proof.Machine.execFcvtWS d a s
  | .fcvtLS d a => Sys2Proof.Machine.execFcvtLS d a s
  | .fcvtSW d a => Sys2Proof.Machine.execFcvtSW d a s
  | .fcvtSL d a => Sys2Proof.Machine.execFcvtSL d a s
  | .fcvtWD d a => Sys2Proof.Machine.execFcvtWD d a s
  | .fcvtLD d a => Sys2Proof.Machine.execFcvtLD d a s
  | .fcvtDW d a => Sys2Proof.Machine.execFcvtDW d a s
  | .fcvtDL d a => Sys2Proof.Machine.execFcvtDL d a s
  | .fmvX d a => Sys2Proof.Machine.execFmvX d a s
  | .fmvF d a => Sys2Proof.Machine.execFmvF d a s
  | .fcvtBfS d a => Sys2Proof.Machine.execFcvtBfS d a s
  | .fcvtSBf d a => Sys2Proof.Machine.execFcvtSBf d a s
  | .fcvtE4S d a => Sys2Proof.Machine.execFcvtE4S d a s
  | .fcvtSE4 d a => Sys2Proof.Machine.execFcvtSE4 d a s
  | .fcvtE5S d a => Sys2Proof.Machine.execFcvtE5S d a s
  | .fcvtSE5 d a => Sys2Proof.Machine.execFcvtSE5 d a s
  | .fmadd d a b c p => Sys2Proof.Machine.execFmadd d a b c p s
  | .fmsub d a b c p => Sys2Proof.Machine.execFmsub d a b c p s
  | .fnmadd d a b c p => Sys2Proof.Machine.execFnmadd d a b c p s
  | .fnmsub d a b c p => Sys2Proof.Machine.execFnmsub d a b c p s
  | .rdc d r => Sys2Proof.Machine.execRdc d r s
  | .wrc a r => Sys2Proof.Machine.execWrc a r s
  | .resume d a => Sys2Proof.Machine.execResume d a s
  | .amoAdd d a b n w => Sys2Proof.Machine.execAmoAdd d a b n w s
  | .amoMin d a b n w => Sys2Proof.Machine.execAmoMin d a b n w s
  | .amoMax d a b n w => Sys2Proof.Machine.execAmoMax d a b n w s
  | .amoSwap d a b n w => Sys2Proof.Machine.execAmoSwap d a b n w s
  | .amoCas d a b c n w => Sys2Proof.Machine.execAmoCas d a b c n w s
  | .amoAnd d a b n w => Sys2Proof.Machine.execAmoAnd d a b n w s
  | .amoOr d a b n w => Sys2Proof.Machine.execAmoOr d a b n w s
  | .amoXor d a b n w => Sys2Proof.Machine.execAmoXor d a b n w s
  | .amoWimin d a b n w => Sys2Proof.Machine.execAmoWimin d a b n w s
  | .amoMinu d a b n w => Sys2Proof.Machine.execAmoMinu d a b n w s
  | .amoMaxu d a b n w => Sys2Proof.Machine.execAmoMaxu d a b n w s
  | .amoFadd d a b n w => Sys2Proof.Machine.execAmoFadd d a b n w s
  | .ship d a b n => Sys2Proof.Machine.execShip d a b n s
  | .mprb d a b => Sys2Proof.Machine.execMprb d a b s
  | .mins d a b c => Sys2Proof.Machine.execMins d a b c s
  | .mupsAdd d a b c => Sys2Proof.Machine.execMupsAdd d a b c s
  | .mupsMin d a b c => Sys2Proof.Machine.execMupsMin d a b c s
  | .mupsMax d a b c => Sys2Proof.Machine.execMupsMax d a b c s
  | .mupsOr d a b c => Sys2Proof.Machine.execMupsOr d a b c s
  | .mupsAnd d a b c => Sys2Proof.Machine.execMupsAnd d a b c s
  | .mupsXor d a b c => Sys2Proof.Machine.execMupsXor d a b c s
  | .mupsReplace d a b c => Sys2Proof.Machine.execMupsReplace d a b c s
  | .mupsFirst d a b c => Sys2Proof.Machine.execMupsFirst d a b c s
  | .mrem d a b => Sys2Proof.Machine.execMrem d a b s
  | .mhash d a b => Sys2Proof.Machine.execMhash d a b s
  | .miter d a b c => Sys2Proof.Machine.execMiter d a b c s
  | .claim a => Sys2Proof.Machine.execClaim a s
  | .acq a => Sys2Proof.Machine.execAcq a s
  | .acqT d a => Sys2Proof.Machine.execAcqT d a s
  | .rel a => Sys2Proof.Machine.execRel a s
  | .vclaim d a b => Sys2Proof.Machine.execVclaim d a b s
  | .vreneg d => Sys2Proof.Machine.execVreneg d s
  | .barDef a b => Sys2Proof.Machine.execBarDef a b s
  | .barArrive a => Sys2Proof.Machine.execBarArrive a s
  | .barWait a => Sys2Proof.Machine.execBarWait a s
  | .barSync a => Sys2Proof.Machine.execBarSync a s
  | .barDrop a => Sys2Proof.Machine.execBarDrop a s
  | .barMax d a b => Sys2Proof.Machine.execBarMax d a b s
  | .waitc d imm => Sys2Proof.Machine.execWaitc d imm s
  | .waitcReg d a => Sys2Proof.Machine.execWaitcReg d a s
  | .rdcnt d a => Sys2Proof.Machine.execRdcnt d a s
  | .send d a t => Sys2Proof.Machine.execSend d a t s
  | .recv d => Sys2Proof.Machine.execRecv d s
  | .recvT d => Sys2Proof.Machine.execRecvT d s
  | .enq e c a d => Sys2Proof.Machine.execEnq e c a d s
  | .pset d a => Sys2Proof.Machine.execPset d a s
  | .pstep d a => Sys2Proof.Machine.execPstep d a s
  | .prd d a => Sys2Proof.Machine.execPrd d a s
  | .prdstep d a => Sys2Proof.Machine.execPrdstep d a s
  | .mkset d a => Sys2Proof.Machine.execMkset d a s
  | .mkget d a => Sys2Proof.Machine.execMkget d a s
  | .mkand d a b => Sys2Proof.Machine.execMkand d a b s
  | .mkor d a b => Sys2Proof.Machine.execMkor d a b s
  | .mkxor d a b => Sys2Proof.Machine.execMkxor d a b s
  | .mkandn d a b => Sys2Proof.Machine.execMkandn d a b s
  | .acmrd d a => Sys2Proof.Machine.execAcmrd d a s
  | .acmrdN d a => Sys2Proof.Machine.execAcmrdN d a s
  | .acmwr a b => Sys2Proof.Machine.execAcmwr a b s
  | .grid d a b => Sys2Proof.Machine.execGrid d a b s
  | .vaddFp f d a b m p sh => Sys2Proof.Machine.execVaddFp f d a b m p sh s
  | .vsubFp f d a b m p sh => Sys2Proof.Machine.execVsubFp f d a b m p sh s
  | .vmulFp f d a b m p sh => Sys2Proof.Machine.execVmulFp f d a b m p sh s
  | .vfma f d a b m p sh => Sys2Proof.Machine.execVfma f d a b m p sh s
  | .vfms f d a b m p sh => Sys2Proof.Machine.execVfms f d a b m p sh s
  | .vminFp f d a b m p sh => Sys2Proof.Machine.execVminFp f d a b m p sh s
  | .vmaxFp f d a b m p sh => Sys2Proof.Machine.execVmaxFp f d a b m p sh s
  | .vabsFp f d a m p => Sys2Proof.Machine.execVabsFp f d a m p s
  | .vneg f d a m p => Sys2Proof.Machine.execVneg f d a m p s
  | .vaddInt f d a b m p sh => Sys2Proof.Machine.execVaddInt f d a b m p sh s
  | .vsubInt f d a b m p sh => Sys2Proof.Machine.execVsubInt f d a b m p sh s
  | .vmulInt f d a b m p sh => Sys2Proof.Machine.execVmulInt f d a b m p sh s
  | .vmulh f d a b m p sh => Sys2Proof.Machine.execVmulh f d a b m p sh s
  | .vminInt f d a b m p sh => Sys2Proof.Machine.execVminInt f d a b m p sh s
  | .vmaxInt f d a b m p sh => Sys2Proof.Machine.execVmaxInt f d a b m p sh s
  | .vminu f d a b m p sh => Sys2Proof.Machine.execVminu f d a b m p sh s
  | .vmaxu f d a b m p sh => Sys2Proof.Machine.execVmaxu f d a b m p sh s
  | .vadds f d a b m p sh => Sys2Proof.Machine.execVadds f d a b m p sh s
  | .vsubs f d a b m p sh => Sys2Proof.Machine.execVsubs f d a b m p sh s
  | .vabsInt f d a m p => Sys2Proof.Machine.execVabsInt f d a m p s
  | .vand f d a b m p sh => Sys2Proof.Machine.execVand f d a b m p sh s
  | .vor f d a b m p sh => Sys2Proof.Machine.execVor f d a b m p sh s
  | .vxor f d a b m p sh => Sys2Proof.Machine.execVxor f d a b m p sh s
  | .vandn f d a b m p sh => Sys2Proof.Machine.execVandn f d a b m p sh s
  | .vnot f d a m p => Sys2Proof.Machine.execVnot f d a m p s
  | .vsll f d a b m p sh => Sys2Proof.Machine.execVsll f d a b m p sh s
  | .vsrl f d a b m p sh => Sys2Proof.Machine.execVsrl f d a b m p sh s
  | .vsra f d a b m p sh => Sys2Proof.Machine.execVsra f d a b m p sh s
  | .vceq f d a b m p sh => Sys2Proof.Machine.execVceq f d a b m p sh s
  | .vclt f d a b m p sh => Sys2Proof.Machine.execVclt f d a b m p sh s
  | .vcle f d a b m p sh => Sys2Proof.Machine.execVcle f d a b m p sh s
  | .vcne f d a b m p sh => Sys2Proof.Machine.execVcne f d a b m p sh s
  | .vsel f d a b m sh => Sys2Proof.Machine.execVsel f d a b m sh s
  | .vcvt f d a sh m p => Sys2Proof.Machine.execVcvt f d a sh m p s
  | .vquant f d a b m p => Sys2Proof.Machine.execVquant f d a b m p s
  | .vpk3 f d a => Sys2Proof.Machine.execVpk3 f d a s
  | .vupk3 f d a => Sys2Proof.Machine.execVupk3 f d a s
  | .vredsum f d a m => Sys2Proof.Machine.execVredsum f d a m s
  | .vredmax f d a m => Sys2Proof.Machine.execVredmax f d a m s
  | .vredmin f d a m => Sys2Proof.Machine.execVredmin f d a m s
  | .vexp2 d a m p => Sys2Proof.Machine.execVexp2 d a m p s
  | .vlog2 d a m p => Sys2Proof.Machine.execVlog2 d a m p s
  | .vrcp d a m p => Sys2Proof.Machine.execVrcp d a m p s
  | .vrsqrt d a m p => Sys2Proof.Machine.execVrsqrt d a m p s
  | .vtanh d a m p => Sys2Proof.Machine.execVtanh d a m p s
  | .vmov f d a m p => Sys2Proof.Machine.execVmov f d a m p s
  | .vmovScalar f d b m p => Sys2Proof.Machine.execVmovScalar f d b m p s
  | .vgath f d a b m p => Sys2Proof.Machine.execVgath f d a b m p s
  | .vscat f d a b m => Sys2Proof.Machine.execVscat f d a b m s
  | .vtopk d a b m => Sys2Proof.Machine.execVtopk d a b m s
  | .arrMkboard h slot width wscale => Sys2Proof.Machine.execArrMkboard h slot width wscale s
  | .arrClrboard h slot => Sys2Proof.Machine.execArrClrboard h slot s
  | .arrMmt h kchain accum rowptr stride ascale accbase lead m fmt mask => Sys2Proof.Machine.execArrMmt h kchain accum rowptr stride ascale accbase lead m fmt mask s
  | .arrAcmout h clear scl accbase lead dst dstride cols rows rscale ofmt => Sys2Proof.Machine.execArrAcmout h clear scl accbase lead dst dstride cols rows rscale ofmt s
  | .cpyCopy h cvt src sacc dst dacc len rows sstride dstride => Sys2Proof.Machine.execCpyCopy h cvt src sacc dst dacc len rows sstride dstride s
  | .cpyFill h pattern dst dacc len rows dstride => Sys2Proof.Machine.execCpyFill h pattern dst dacc len rows dstride s
  | .cpyPref h addr count => Sys2Proof.Machine.execCpyPref h addr count s
  | .cpyTierq h addr => Sys2Proof.Machine.execCpyTierq h addr s
  | .colDecl h gid mem fab => Sys2Proof.Machine.execColDecl h gid mem fab s
  | .colDeclT h gid mem fab => Sys2Proof.Machine.execColDeclT h gid mem fab s
  | .colAllgather h gid src dst bytes => Sys2Proof.Machine.execColAllgather h gid src dst bytes s
  | .colRedscat h gid src dst bytes op fmt => Sys2Proof.Machine.execColRedscat h gid src dst bytes op fmt s
  | .colAlltoall h gid src dst bytes => Sys2Proof.Machine.execColAlltoall h gid src dst bytes s
  | .colBcast h gid src dst bytes root => Sys2Proof.Machine.execColBcast h gid src dst bytes root s
  | .colBarrier h gid => Sys2Proof.Machine.execColBarrier h gid s
  | .colMaxbar h gid src dst => Sys2Proof.Machine.execColMaxbar h gid src dst s
  | .agtMapnew h base zpg default seed l0 lmax kw vw comb => Sys2Proof.Machine.execAgtMapnew h base zpg default seed l0 lmax kw vw comb s
  | .agtMapdel h handle => Sys2Proof.Machine.execAgtMapdel h handle s
  | .agtRtload h src first count => Sys2Proof.Machine.execAgtRtload h src first count s
  | .preempt c => Sys2Proof.Machine.execPreempt c s
  | .clusterFailure k => Sys2Proof.Machine.execClusterFailure k s
  | .clusterLost c => Sys2Proof.Machine.execClusterLost c s
  | .spareTestDone k passed => Sys2Proof.Machine.execSpareTestDone k passed s
  | .fpEvent c => Sys2Proof.Machine.execFpEvent c s
  | .tabortWrite v => Sys2Proof.Machine.execTabortWrite v s
  | .teamEnd k t => Sys2Proof.Machine.execTeamEnd k t s
  | .shootGo v => Sys2Proof.Machine.execShootGo v s
  | .efaultClear v => Sys2Proof.Machine.execEfaultClear v s
  | .spflagWrite v => Sys2Proof.Machine.execSpflagWrite v s
  | .wrrwWrite v => Sys2Proof.Machine.execWrrwWrite v s
  | .storeRelease c => Sys2Proof.Machine.execStoreRelease c s
  | .storeAccept q => Sys2Proof.Machine.execStoreAccept q s
  | .loadServed c => Sys2Proof.Machine.execLoadServed c s
  | .messageArrival d => Sys2Proof.Machine.execMessageArrival d s
  | .blockedListRedecide k => Sys2Proof.Machine.execBlockedListRedecide k s
  | .zeroingDone k => Sys2Proof.Machine.execZeroingDone k s
  | .pageRelocation k => Sys2Proof.Machine.execPageRelocation k s
  | .barrierRelease k t id => Sys2Proof.Machine.execBarrierRelease k t id s
  | .barrierTimeout c => Sys2Proof.Machine.execBarrierTimeout c s
  | .collectiveMatch seq => Sys2Proof.Machine.execCollectiveMatch seq s
  | .collectivePacketArrival imm => Sys2Proof.Machine.execCollectivePacketArrival imm s
  | .boardConversionDone k grp => Sys2Proof.Machine.execBoardConversionDone k grp s
  | .boardClearDone k grp => Sys2Proof.Machine.execBoardClearDone k grp s
  | .rowGrant k => Sys2Proof.Machine.execRowGrant k s
  | .drainBeat k => Sys2Proof.Machine.execDrainBeat k s
  | .copyGranuleGrant seq => Sys2Proof.Machine.execCopyGranuleGrant seq s
  | .copyGranuleWrite seq => Sys2Proof.Machine.execCopyGranuleWrite seq s
  | .tierMigration die => Sys2Proof.Machine.execTierMigration die s
  | .commandComplete seq => Sys2Proof.Machine.execCommandComplete seq s
  | .vectorRetire c => Sys2Proof.Machine.execVectorRetire c s
  | .sfuExecute k => Sys2Proof.Machine.execSfuExecute k s
  | .topkMerge k => Sys2Proof.Machine.execTopkMerge k s
  | .shippedOpPerform imm => Sys2Proof.Machine.execShippedOpPerform imm s
  | .shippedReply c => Sys2Proof.Machine.execShippedReply c s
  | .mapOpPerform imm => Sys2Proof.Machine.execMapOpPerform imm s
  | .splitStep asid handle seg => Sys2Proof.Machine.execSplitStep asid handle seg s
  | .mapdelComplete seq => Sys2Proof.Machine.execMapdelComplete seq s
  | .rtloadTableWrite seq => Sys2Proof.Machine.execRtloadTableWrite seq s
  | .stackSelfRefresh st => Sys2Proof.Machine.execStackSelfRefresh st s
  | .memoryStall st => Sys2Proof.Machine.execMemoryStall st s
  | .stackWake st => Sys2Proof.Machine.execStackWake st s
  | .pagePrecharge st => Sys2Proof.Machine.execPagePrecharge st s
  | .bankRebuildStart k grp bank => Sys2Proof.Machine.execBankRebuildStart k grp bank s
  | .bankRebuilt k grp => Sys2Proof.Machine.execBankRebuilt k grp s
  | .channelFailure st ch => Sys2Proof.Machine.execChannelFailure st ch s
  | .channelRetired st => Sys2Proof.Machine.execChannelRetired st s
  | .threadStart k t => Sys2Proof.Machine.execThreadStart k t s
  | .coreFreed c => Sys2Proof.Machine.execCoreFreed c s
  | .gridComplete gid => Sys2Proof.Machine.execGridComplete gid s
  | .hostDoorbell q addr => Sys2Proof.Machine.execHostDoorbell q addr s
  | .hostPacketCheck q readOk => Sys2Proof.Machine.execHostPacketCheck q readOk s
  | .hsemTake n takers => Sys2Proof.Machine.execHsemTake n takers s
  | .hsemRelease n who => Sys2Proof.Machine.execHsemRelease n who s
  | .hostLinkDown port => Sys2Proof.Machine.execHostLinkDown port s
  | .serviceCoreReset svc => Sys2Proof.Machine.execServiceCoreReset svc s
  | .configRegisterWrite who off size v => Sys2Proof.Machine.execConfigRegisterWrite who off size v s
  | .bufctlGo who v => Sys2Proof.Machine.execBufctlGo who v s
  | .cfgrejClear die v => Sys2Proof.Machine.execCfgrejClear die v s
  | .fabidWrite who v => Sys2Proof.Machine.execFabidWrite who v s
  | .pwrcapWrite who v => Sys2Proof.Machine.execPwrcapWrite who v s
  | .spctlWrite who v => Sys2Proof.Machine.execSpctlWrite who v s
  | .tmstatClear who die v => Sys2Proof.Machine.execTmstatClear who die v s
  | .affmissClear v => Sys2Proof.Machine.execAffmissClear v s
  | .hostWindowRead port off n => Sys2Proof.Machine.execHostWindowRead port off n s
  | .hostWindowWrite port off bytes => Sys2Proof.Machine.execHostWindowWrite port off bytes s
  | .attest who => Sys2Proof.Machine.execAttest who s
  | .keyLoad who => Sys2Proof.Machine.execKeyLoad who s
  | .keyClear who => Sys2Proof.Machine.execKeyClear who s
  | .frzcmdWrite v => Sys2Proof.Machine.execFrzcmdWrite v s
  | .reset imageOk => Sys2Proof.Machine.execReset imageOk s
  | .illegalInstruction w => Sys2Proof.Machine.execIllegalInstruction w s
  | .reservedField w => Sys2Proof.Machine.execReservedField w s
  | .fetchRegion a => Sys2Proof.Machine.execFetchRegion a s
  | .peerLinkDown link => Sys2Proof.Machine.execPeerLinkDown link s
  | .fenceCore => Sys2Proof.Machine.execFenceCore s
  | .fenceTeam => Sys2Proof.Machine.execFenceTeam s
  | .fenceCluster => Sys2Proof.Machine.execFenceCluster s
  | .fenceDie => Sys2Proof.Machine.execFenceDie s
  | .fencePackage => Sys2Proof.Machine.execFencePackage s
  | .fenceFabric => Sys2Proof.Machine.execFenceFabric s
  | .fenceSystem => Sys2Proof.Machine.execFenceSystem s
  | .eret => Sys2Proof.Machine.execEret s
  | .wfi => Sys2Proof.Machine.execWfi s
  | .endThread => Sys2Proof.Machine.execEndThread s
  | .relall => Sys2Proof.Machine.execRelall s
  | .vfence => Sys2Proof.Machine.execVfence s
  | .vdrain => Sys2Proof.Machine.execVdrain s
  | .shootdownComplete => Sys2Proof.Machine.execShootdownComplete s
  | .powerThrottle => Sys2Proof.Machine.execPowerThrottle s
  | .throttleEnd => Sys2Proof.Machine.execThrottleEnd s
  | .schedulingDecision => Sys2Proof.Machine.execSchedulingDecision s
  | .bufferAssignDone => Sys2Proof.Machine.execBufferAssignDone s
  | .frzPin => Sys2Proof.Machine.execFrzPin s
  | .freeze => Sys2Proof.Machine.execFreeze s
  | .idcode => Sys2Proof.Machine.execIdcode s
  | .fmaddr => Sys2Proof.Machine.execFmaddr s
  | .fmdata => Sys2Proof.Machine.execFmdata s
  | .bypass => Sys2Proof.Machine.execBypass s

end Sys2Proof.Machine
end

