-- ==== Sys2Proof/Machine/Issue.lean ====
section
/-! DEFINITION. What a core does next, the fetch of an instruction, and what comes from outside the machine's own agents
(spec/04 R84, spec/05 R107-R113, spec/06 R140, spec/07 R146, R165, spec/12 R230-R234). -/

namespace Sys2Proof.Machine

/-! ## Fetch -/

/-- What a fetch gives: an instruction, or the trap that R84 and R140 name. -/
inductive Fetch where
  | instr (i : Instr)
  | region
  | misaligned
  | illegal
  | reserved
  deriving DecidableEq, Repr

/-- What a core fetches (R84, R140, notes/assumptions/7). -/
def Core.fetch (k : Core) : Fetch :=
  if !k.pcInTcm then .region
  else if k.pc.toNat % 4 ≠ 0 then .misaligned
  else match decode k.fetchWord with
  | .ok i => .instr i
  | .error .illegal => .illegal
  | .error .reserved => .reserved

/-! ## Holds -/

/-- Majors whose instructions read or write f registers (R83). -/
def usesF (major : Nat) : Bool :=
  (decide (0x17 ≤ major) && decide (major ≤ 0x1B)) || major == 0x24 || major == 0x25 || major == 0x2A || major == 0x2E

/-- Whether issue waits for the core's unretired vector instructions: a pointer or mask instruction, one that touches f
registers behind a reduction, and anything, a fetch that traps too, behind an instruction that may raise an enabled flag
or at a renegotiation point (R165, R188, R230, R234). -/
def stalled (k : Core) : Bool :=
  let major := k.fetchWord.toNat / 2 ^ 26
  !k.vq.isEmpty &&
  (k.holding || k.reneg || (k.pcInTcm && (major == 0x2D || (usesF major && k.vq.any (·.freg.isSome)))))

/-! ## A core's next action -/

/-- What a core does at its turn. -/
inductive Action where
  /-- It waits, or does nothing. -/
  | nothing
  /-- A park that is due takes effect. -/
  | park
  /-- The runtime's pre-emption handler. -/
  | handler
  /-- CLUSTER_LOST is taken. -/
  | lost
  /-- PREEMPT is taken. -/
  | preempt
  /-- What its fetch gives. -/
  | fetched (f : Fetch)
  deriving DecidableEq, Repr

/-- Whether a core's team has been stopped (R112). -/
def State.teamStopped (s : State) (c : CoreId) : Bool := (s.teamOf c).any (·.status == .fatal)

/-- Whether a core's issued instruction is done, or is one that goes on by being taken again. -/
def Core.issues (k : Core) : Bool :=
  k.run == .running && !k.parked && (k.wait == .ready || k.wait == .sync || k.wait == .event || k.wait == .grid)

/-- A core's next action; a stopped team's grid still has its reply (R108, R111-R113, R146, R151, R365). DESIGN CHOICE: where
a park is due while the core waits in acq or on a unit, a trap that abandons the wait comes first (notes/assumptions/50). -/
def State.nextAction (s : State) (c : CoreId) : Action :=
  let k := s.coreAt c
  if s.teamStopped c && k.wait != .grid then .nothing
  else if k.parkDue.isSome && k.parksNow && k.run == .running && !k.parked then .park
  else if k.takesLost then .lost
  else if k.takesPreempt then .preempt
  else if !k.issues then .nothing
  else if k.atHandler then .handler
  else if stalled k then .nothing
  else .fetched k.fetch

/-- A park that is due takes effect (R146). -/
def State.parkNow (s : State) (c : CoreId) : State :=
  match (s.coreAt c).parkDue with
  | none => s
  | some (fl, o) => s.parkAt c fl o

/-! ## Events -/

/-- Whether a row of the opcode table stands for a step of an agent of its own; rows with a word, and those that are
part of an instruction of a core, do not. -/
def isEvent (i : Instr) : Bool :=
  match i with
  | .tabortWrite _ | .shootGo _ | .efaultClear _ | .spflagWrite _ | .wrrwWrite _ => false
  | .illegalInstruction _ | .reservedField _ | .fetchRegion _ => false
  | i => (encodeNat i).isNone && (encodeCommand i).isNone && (encodeTap i).isNone

/-! ## Inputs -/

/-- A service core removes its oldest message, if it has arrived; a held message takes the place (R383). -/
def State.serviceTake (s : State) (v : ServiceId) : State :=
  match s.svc[v] with
  | [] => s
  | e :: es =>
    if !e.arrived then s
    else
      let s1 := { s with svc := s.svc.set v.val es v.isLt }
      match s1.heldMsgs.find? (fun h => h.1 == v) with
      | none => s1
      | some h => { s1.svcPush v h.2 with heldMsgs := dropFirst (fun h => h.1 == v) s1.heldMsgs }

/-- What comes from outside the agents that rows of the opcode table name. -/
def State.input (s : State) : Input → State
  | .tlbEvict k asid vpage =>
    s.setCl k { s.cl k with tlb := (s.cl k).tlb.filter fun e => !e.of asid vpage }
  | .utlbEvict c asid vpage =>
    s.setCoreAt c { s.coreAt c with utlb := (s.coreAt c).utlb.filter fun e => !e.of asid vpage }
  | .tableEvict k e => s.setCl k { s.cl k with tables := (s.cl k).tables.filter (· != e) }
  | .lineError l => { s with poison := l :: s.poison.filter (· != l) }
  | .granuleError k sp g => s.setCl k ((s.cl k).setBad sp (g :: ((s.cl k).bad sp).filter (· != g)))
  | .serviceTake v => s.serviceTake v
  | .serviceResume v t => s.serviceResume v t
  | .serviceShoot v w => s.addShoot (shootOf w (.service v))
  | .hostMemory pa b => s.writeRaw (hostPa pa.toNat) [b]
  | .serviceMemory pa b => if s.homeBusy pa.toNat 1 then s else s.writeRaw pa.toNat [b]
  | .registerRead who off size => s.regRead who off.toNat size.toNat
  | .mapWritten asid h => s.writeMap asid h
  | .run _ | .event _ | .start _ | .tap _ _ | .rowFetch _ | .rowComputed _ _ | .laneBeat _ _ _ => s

/-! ## Placing an instruction -/

/-- A core that issues at its pc. -/
def Core.ready (k : Core) : Core :=
  { k with run := .running, wait := .ready, preempt := none, lost := none, parkDue := none, parkAside := false, vq := [],
           csr := { k.csr with kstate := { k.csr.kstate with park := false } } }

/-- A core with a word at its pc, in TCM and as fetches see it (notes/assumptions/3). -/
def Core.withWord (k : Core) (w : BitVec 32) : Core :=
  let o := k.pc.toNat - Config.tcmBase
  { k.ready with tcm := Memory.write32 k.tcm o w, itcm := Memory.write32 k.itcm o w }

end Sys2Proof.Machine
end

