-- ==== Sys2Proof/Machine/Turn.lean ====
section
/-! DEFINITION. A step of the package: the next of the agenda, or the current core's next action
(notes/assumptions/1). -/

namespace Sys2Proof.Machine

/-- What a fetch of the current core gives is executed: the instruction, or the trap's row (R84, R140). -/
def execFetched (f : Fetch) (s : State) : Result :=
  match f with
  | .instr i => exec i s
  | .region => execFetchRegion s.core.pc s
  | .misaligned => trap s causeMisaligned s.core.pc
  | .illegal => execIllegalInstruction s.core.fetchWord s
  | .reserved => execReservedField s.core.fetchWord s

/-- A core's turn. -/
def runCore (c : CoreId) (s : State) : Result :=
  match s.nextAction c with
  | .nothing => .next s
  | .park => .next (s.parkNow c)
  | .handler => fire s (runHandler s c)
  | .lost => execClusterLost c s
  | .preempt => execPreempt c s
  | .fetched f => execFetched f s

/-- An engine's turn at a command: it starts, goes on, or fails its checks (R88). -/
def runCommand (seq : Nat) (s : State) : Result :=
  match s.cmd seq with
  | none => .next s
  | some x =>
    match decodeCommand x.engine x.word with
    | .ok i => exec i s
    | .error e => fire s (if s.mayStart x then some (s.rejectCmd seq e) else none)

/-- What an agenda entry does. -/
def act (i : Input) (s : State) : Result :=
  match i with
  | .run c => runCore c { s with cur := c }
  | .event e => if isEvent e then exec e s else .fault .notAnEvent
  | .start seq => runCommand seq { s with cmdRef := seq }
  | .laneBeat c sp off => fire s (evLaneBeat c sp off s)
  | .rowFetch c => fire s (evRowFetch c s)
  | .rowComputed k seq => .next (s.setCl k ((s.cl k).computed seq))
  | .tap ir data => exec (decodeTap ir) { s with tap := { s.tap with dataIn := data } }
  | i => .next (s.input i)

/-- A frozen machine: only the Rannen port answers, and only reset leaves freeze (R393, R394). -/
def frozenAct (i : Input) (s : State) : Result :=
  match i with
  | .tap _ _ => act i s
  | .event (.reset ok) => execReset ok s
  | _ => .next s

/-- The cycle that a step reaches (notes/assumptions/2). -/
def State.nextNow (s : State) : Nat := s.now + Config.elapsed s.tick

/-- Whether the freeze point of a request comes before a step's cycle. -/
def State.freezeDue (s : State) : Bool := s.freezeAsked.any fun t => decide (freezePoint t < s.nextNow)

/-- A step's entry is taken from the agenda; with none the current core goes on. -/
def State.entry (s : State) : Input := s.agenda.headD (.run s.cur)

/-- The state as a step's entry finds it. -/
def State.ticked (s : State) : State := { s with tick := s.tick + 1, agenda := s.agenda.tail }

/-- One step: the freeze point of a request comes before whatever a later cycle holds (R393). -/
def State.turn (s : State) : Result :=
  if s.frozen then frozenAct s.entry s.ticked
  else if s.freezeDue then .next ({ s with tick := s.tick + 1 }.freezeAt (freezePoint (s.freezeAsked.getD 0)))
  else act s.entry { s.ticked with now := s.nextNow }

/-! ## Placing an instruction -/

/-- A state whose next step issues the word `w` on the current core (notes/assumptions/3). -/
def State.withCoreWord (s : State) (w : BitVec 32) : State :=
  { s with power := .running, frozen := false, freezeAsked := none, agenda := .run s.cur :: s.agenda }.setCore
    (s.core.withWord w)

/-- A state whose next step starts a command of the current core (notes/assumptions/3). -/
def State.withCommandWord (s : State) (w : CmdWord) : State :=
  { s with power := .running, frozen := false, freezeAsked := none, agenda := .start s.nextSeq :: s.agenda,
           nextSeq := s.nextSeq + 1,
           cmds := s.cmds ++ [newCmd s.nextSeq s.cur (engineOf (fld w.w0.toNat 8 4)) 0 none w] }

/-- A state whose next step executes an instruction of the Rannen port (notes/assumptions/3). -/
def State.withTapWord (s : State) (ir : BitVec 8) : State := { s with agenda := .tap ir 0 :: s.agenda }

/-- An instruction of `nbits` bits where the next step finds it: 32 for an instruction word at the pc of the current
core, 256 for a command word in its engine's queue, 8 for a code of the Rannen port. -/
def State.withWord (s : State) (nbits w : Nat) : State :=
  if nbits = 8 then s.withTapWord (.ofNat 8 w)
  else if nbits = 256 then s.withCommandWord (.ofBytes (leBytes 32 w))
  else s.withCoreWord (.ofNat 32 w)

end Sys2Proof.Machine
end

