-- ==== Sys2Proof/Safety.lean ====
section
/-! DEFINITION. What counts as a safe run, the form every memory of the package keeps, and the shapes in which the
claims say what an instruction writes and what it leaves. -/

namespace Sys2Proof.Machine

/-- Every memory of the package is in its one canonical form: the physical memory, the mailbox buffer, the data and
instruction sides of every core's TCM, and every cluster's SPM and accumulator SRAM (notes/assumptions/4). -/
structure State.MemoriesWf (s : State) : Prop where
  mem : Memory.wf s.mem = true
  buffer : Memory.wf s.mailbox.buffer = true
  tcm : ∀ c : CoreId, Memory.wf (s.coreAt c).tcm = true
  itcm : ∀ c : CoreId, Memory.wf (s.coreAt c).itcm = true
  spm : ∀ k : ClusterId, Memory.wf (s.clusters[k]).spm = true
  acc : ∀ k : ClusterId, Memory.wf (s.clusters[k]).acc = true

/-- Every byte of every memory reads as before. -/
structure SameMemory (s t : State) : Prop where
  mem : ∀ a, Memory.read t.mem a = Memory.read s.mem a
  buffer : ∀ a, Memory.read t.mailbox.buffer a = Memory.read s.mailbox.buffer a
  tcm : ∀ c a, Memory.read (t.coreAt c).tcm a = Memory.read (s.coreAt c).tcm a
  itcm : ∀ c a, Memory.read (t.coreAt c).itcm a = Memory.read (s.coreAt c).itcm a
  spm : ∀ k a, Memory.read (t.cl k).spm a = Memory.read (s.cl k).spm a
  acc : ∀ k a, Memory.read (t.cl k).acc a = Memory.read (s.cl k).acc a

/-- A core whose instruction has completed: it goes on at `next` with INSTRET one higher (R102) and MPROG 0 (R115),
waits for nothing, and holds the register files `r` and, but for these two, the control registers `c`; all else is as
before. -/
def Core.completed (k : Core) (next : Word) (r : Regs) (c : Csr) : Core :=
  { k with regs := r, pc := next, wait := .ready, relSeq := none, barWait := none, sync := none,
           csr := { c with instret := k.csr.instret + 1, mprog := 0 } }

/-- The current core's instruction completed at the next word: g[d] received `v` (g0 discards it, R98), and every other
register, every control register but INSTRET and MPROG, everything outside the core, and every byte of memory is as
before. -/
structure WroteG (s t : State) (d : BitVec 5) (v : Word) : Prop where
  value : t.g d = if d = 0 then 0 else v
  others : ∀ r, r ≠ d → t.g r = s.g r
  core : t.core = s.core.completed (s.pc + 4) { s.core.regs with g := t.core.regs.g } s.core.csr
  rest : t = s.setCore t.core
  memory : SameMemory s t

/-- The current core's instruction completed at `next` and wrote no register, no control register but INSTRET and MPROG,
nothing outside the core, and no byte of memory. -/
structure WroteNothing (s t : State) (next : Word) : Prop where
  core : t.core = s.core.completed next s.core.regs s.core.csr
  rest : t = s.setCore t.core
  memory : SameMemory s t

/-- The current core's instruction completed at `next` and wrote the link to g[d] alone (g0 discards it, R98). -/
structure Linked (s t : State) (d : BitVec 5) (link next : Word) : Prop where
  value : t.g d = if d = 0 then 0 else link
  others : ∀ r, r ≠ d → t.g r = s.g r
  core : t.core = s.core.completed next { s.core.regs with g := t.core.regs.g } s.core.csr
  rest : t = s.setCore t.core
  memory : SameMemory s t

/-- The current core's instruction completed at the next word: f[d] received `v` and the flags `fl` were raised (R35);
every other register and every byte of memory is as before; MPROG is 0 (R115), and of the other control registers only
INSTRET, FFLAGS, and, where the thread parks (R146), KSTATE.PARK and PARKINF may change. -/
structure WroteF (s t : State) (d : BitVec 5) (v : Word) (fl : Flags) : Prop where
  value : t.f d = v
  others : ∀ r, r ≠ d → t.f r = s.f r
  files : t.core.regs = { s.core.regs with f := t.core.regs.f }
  pc : t.pc = s.pc + 4
  flags : t.core.csr.fflags = s.core.csr.fflags ||| fl
  csr : t.core.csr = { s.core.csr with
    instret := s.core.csr.instret + 1, mprog := 0, fflags := t.core.csr.fflags, parkinf := t.core.csr.parkinf,
    kstate := { s.core.csr.kstate with park := t.core.csr.kstate.park } }
  unparked : fl &&& s.core.csr.fenable = 0 →
    t.core.csr.kstate = s.core.csr.kstate ∧ t.core.csr.parkinf = s.core.csr.parkinf
  rest : t = s.setCore t.core
  memory : SameMemory s t

/-- As `WroteF`, for an instruction whose result goes to g[d]. -/
structure WroteGF (s t : State) (d : BitVec 5) (v : Word) (fl : Flags) : Prop where
  value : t.g d = if d = 0 then 0 else v
  others : ∀ r, r ≠ d → t.g r = s.g r
  files : t.core.regs = { s.core.regs with g := t.core.regs.g }
  pc : t.pc = s.pc + 4
  flags : t.core.csr.fflags = s.core.csr.fflags ||| fl
  csr : t.core.csr = { s.core.csr with
    instret := s.core.csr.instret + 1, mprog := 0, fflags := t.core.csr.fflags, parkinf := t.core.csr.parkinf,
    kstate := { s.core.csr.kstate with park := t.core.csr.kstate.park } }
  unparked : fl &&& s.core.csr.fenable = 0 →
    t.core.csr.kstate = s.core.csr.kstate ∧ t.core.csr.parkinf = s.core.csr.parkinf
  rest : t = s.setCore t.core
  memory : SameMemory s t

/-- A precise trap was taken on the current core, which is in no trap (R107, R110): the saved registers, the status, and
the pc; every other register and control register, everything outside the core, and every byte of memory is as before.
-/
structure Trapped (s t : State) (cause : BitVec 8) (aux : Word) : Prop where
  trapc : t.core.csr.trapc = ⟨cause == 0xB1, false, cause⟩
  trappc : t.core.csr.trappc = s.pc
  trapaux : t.core.csr.trapaux = aux
  kstate : t.core.csr.kstate =
    { s.core.csr.kstate with ppriv := s.core.csr.kstate.priv, pie := s.core.csr.kstate.ie, priv := .supervisor,
                             ie := false, intrap := true }
  mprog : t.core.csr.pmprog = s.core.csr.mprog ∧ t.core.csr.mprog = 0
  csr : t.core.csr = { s.core.csr with
    trapc := t.core.csr.trapc, trappc := t.core.csr.trappc, trapaux := t.core.csr.trapaux,
    kstate := t.core.csr.kstate, pmprog := t.core.csr.pmprog, mprog := t.core.csr.mprog }
  core : t.core = { s.core with
    csr := t.core.csr, pc := t.pc, wait := .ready, relSeq := none, barWait := none, sync := none }
  rest : t = s.setCore t.core
  memory : SameMemory s t

/-- A run of `n` steps is safe when no step of it stops with a fault or a refusal. -/
def State.SafeFor (n : Nat) (s : State) : Prop := ∃ t, Host.Core.run Sys2Proof.core n s = .next t

end Sys2Proof.Machine
end

