-- ==== Sys2Proof/Certificates/Slice0/Obligations.lean ====
section
/-! DEFINITION. The statements for the provers: what the spec's rules say of every instruction and of the machine. -/

open Sys2Proof Sys2Proof.Machine

/-! ## The integer instructions (spec/06 R127-R132) -/

/-- Spec/06 R127, the results of major 0x01 but clz, ctz and popc: each completes for every state and every register
operand, g0 as the destination included, and writes g[d] alone. -/
def Obligations.RegisterArithmeticCompletes : Prop :=
  ∀ (s : State) (d a b : BitVec 5),
    (∃ t, exec (.add d a b) s = .next t ∧ WroteG s t d (.ofNat 64 ((s.g a).toNat + (s.g b).toNat))) ∧
    (∃ t, exec (.sub d a b) s = .next t ∧ WroteG s t d (.ofInt 64 ((s.g a).toNat - (s.g b).toNat))) ∧
    (∃ t v, exec (.and d a b) s = .next t ∧ WroteG s t d v ∧
      ∀ i, v.getLsbD i = ((s.g a).getLsbD i && (s.g b).getLsbD i)) ∧
    (∃ t v, exec (.or d a b) s = .next t ∧ WroteG s t d v ∧
      ∀ i, v.getLsbD i = ((s.g a).getLsbD i || (s.g b).getLsbD i)) ∧
    (∃ t v, exec (.xor d a b) s = .next t ∧ WroteG s t d v ∧
      ∀ i, v.getLsbD i = ((s.g a).getLsbD i ^^ (s.g b).getLsbD i)) ∧
    (∃ t, exec (.slt d a b) s = .next t ∧ WroteG s t d (if (s.g a).toInt < (s.g b).toInt then 1 else 0)) ∧
    (∃ t, exec (.sltu d a b) s = .next t ∧ WroteG s t d (if (s.g a).toNat < (s.g b).toNat then 1 else 0)) ∧
    (∃ t v, exec (.min d a b) s = .next t ∧ WroteG s t d v ∧ v.toInt = min (s.g a).toInt (s.g b).toInt) ∧
    (∃ t v, exec (.max d a b) s = .next t ∧ WroteG s t d v ∧ v.toInt = max (s.g a).toInt (s.g b).toInt) ∧
    (∃ t v, exec (.minu d a b) s = .next t ∧ WroteG s t d v ∧ v.toNat = min (s.g a).toNat (s.g b).toNat) ∧
    (∃ t v, exec (.maxu d a b) s = .next t ∧ WroteG s t d v ∧ v.toNat = max (s.g a).toNat (s.g b).toNat)

/-- Spec/06 R127 and R129, the shifts: the register forms shift by the low six bits of g[b], the immediate forms by
their six-bit operand; srl and srli bring zeros in, sra and srai copies of bit 63, ror and rori the bits that leave.
Spec/06 R127: clz counts the leading zero bits, ctz the trailing ones, popc the one bits, and each completes. -/
def Obligations.ShiftsAndBitCountsComplete : Prop :=
  (∀ (s : State) (d a b : BitVec 5) (i : BitVec 6),
    let n := (s.g b).toNat % 64
    (∃ t v, exec (.sll d a b) s = .next t ∧ WroteG s t d v ∧ v.toNat = (s.g a).toNat * 2 ^ n % 2 ^ 64) ∧
    (∃ t v, exec (.srl d a b) s = .next t ∧ WroteG s t d v ∧ v.toNat = (s.g a).toNat / 2 ^ n) ∧
    (∃ t v, exec (.sra d a b) s = .next t ∧ WroteG s t d v ∧ v.toInt = (s.g a).toInt / 2 ^ n) ∧
    (∃ t v, exec (.ror d a b) s = .next t ∧ WroteG s t d v ∧
      ∀ j, j < 64 → v.getLsbD j = (s.g a).getLsbD ((j + n) % 64)) ∧
    (∃ t v, exec (.slli d a i) s = .next t ∧ WroteG s t d v ∧ v.toNat = (s.g a).toNat * 2 ^ i.toNat % 2 ^ 64) ∧
    (∃ t v, exec (.srli d a i) s = .next t ∧ WroteG s t d v ∧ v.toNat = (s.g a).toNat / 2 ^ i.toNat) ∧
    (∃ t v, exec (.srai d a i) s = .next t ∧ WroteG s t d v ∧ v.toInt = (s.g a).toInt / 2 ^ i.toNat) ∧
    (∃ t v, exec (.rori d a i) s = .next t ∧ WroteG s t d v ∧
      ∀ j, j < 64 → v.getLsbD j = (s.g a).getLsbD ((j + i.toNat) % 64))) ∧
  (∀ (s : State) (d a : BitVec 5),
    (∃ t n, exec (.clz d a) s = .next t ∧ WroteG s t d (.ofNat 64 n) ∧ n ≤ 64 ∧
      (∀ j, j < n → (s.g a).getLsbD (63 - j) = false) ∧ (n < 64 → (s.g a).getLsbD (63 - n) = true)) ∧
    (∃ t n, exec (.ctz d a) s = .next t ∧ WroteG s t d (.ofNat 64 n) ∧ n ≤ 64 ∧
      (∀ j, j < n → (s.g a).getLsbD j = false) ∧ (n < 64 → (s.g a).getLsbD n = true)) ∧
    (∃ t, exec (.popc d a) s = .next t ∧
      WroteG s t d (.ofNat 64 ((List.range 64).countP fun i => (s.g a).getLsbD i))))

/-- Spec/06 R128 and R130: the immediate forms, lui and addpc complete; addi, slti and sltiu extend the sign of their
immediate, andi, ori and xori extend with zeros, and the pc of addpc is the instruction's own. -/
def Obligations.ImmediateFormsComplete : Prop :=
  ∀ (s : State) (d a : BitVec 5) (i : BitVec 16),
    (∃ t v, exec (.addi d a i) s = .next t ∧ WroteG s t d v ∧ v = .ofInt 64 ((s.g a).toNat + i.toInt)) ∧
    (∃ t v, exec (.andi d a i) s = .next t ∧ WroteG s t d v ∧
      ∀ j, v.getLsbD j = ((s.g a).getLsbD j && i.getLsbD j)) ∧
    (∃ t v, exec (.ori d a i) s = .next t ∧ WroteG s t d v ∧
      ∀ j, v.getLsbD j = ((s.g a).getLsbD j || i.getLsbD j)) ∧
    (∃ t v, exec (.xori d a i) s = .next t ∧ WroteG s t d v ∧
      ∀ j, v.getLsbD j = ((s.g a).getLsbD j ^^ i.getLsbD j)) ∧
    (∃ t, exec (.slti d a i) s = .next t ∧ WroteG s t d (if (s.g a).toInt < i.toInt then 1 else 0)) ∧
    (∃ t, exec (.sltiu d a i) s = .next t ∧
      WroteG s t d (if (s.g a).toNat < (i.toInt % 2 ^ 64).toNat then 1 else 0)) ∧
    (∃ t, exec (.lui d i) s = .next t ∧ WroteG s t d (.ofInt 64 (i.toInt * 2 ^ 16))) ∧
    (∃ t, exec (.addpc d i) s = .next t ∧ WroteG s t d (.ofInt 64 (s.pc.toNat + i.toInt * 2 ^ 16)))

/-- Spec/06 R131 and R132: multiply and divide complete for every pair of operands; a quotient by zero and the signed
overflow saturate, and a remainder by zero is the dividend. -/
def Obligations.MultiplyDivideComplete : Prop :=
  ∀ (s : State) (d a b : BitVec 5),
    let x := s.g a
    let y := s.g b
    (∃ t, exec (.mul d a b) s = .next t ∧ WroteG s t d (.ofNat 64 (x.toNat * y.toNat))) ∧
    (∃ t, exec (.mulh d a b) s = .next t ∧ WroteG s t d (.ofInt 64 (x.toInt * y.toInt / 2 ^ 64))) ∧
    (∃ t, exec (.mulhu d a b) s = .next t ∧ WroteG s t d (.ofNat 64 (x.toNat * y.toNat / 2 ^ 64))) ∧
    (∃ t, exec (.mulhsu d a b) s = .next t ∧ WroteG s t d (.ofInt 64 (x.toInt * y.toNat / 2 ^ 64))) ∧
    (∃ t v, exec (.div d a b) s = .next t ∧ WroteG s t d v ∧
      v.toInt = if y = 0 then (if x = 0 then 0 else if x.toInt < 0 then -2 ^ 63 else 2 ^ 63 - 1)
        else min (x.toInt.tdiv y.toInt) (2 ^ 63 - 1)) ∧
    (∃ t v, exec (.divu d a b) s = .next t ∧ WroteG s t d v ∧
      v.toNat = if y = 0 then (if x = 0 then 0 else 2 ^ 64 - 1) else x.toNat / y.toNat) ∧
    (∃ t v, exec (.rem d a b) s = .next t ∧ WroteG s t d v ∧
      v.toInt = if y = 0 then x.toInt else x.toInt - y.toInt * x.toInt.tdiv y.toInt) ∧
    (∃ t v, exec (.remu d a b) s = .next t ∧ WroteG s t d v ∧
      v.toNat = if y = 0 then x.toNat else x.toNat - y.toNat * (x.toNat / y.toNat))

/-! ## Branches, jumps and scalar floating point (spec/06 R140-R141, spec/07 R143-R147) -/

/-- Spec/06 R140: each branch completes for every state and every displacement, goes to pc + 4 × displacement where its
condition holds and to pc + 4 where it does not, and writes nothing.

Spec/06 R141: jal links and jumps for every displacement; jalr links and jumps to g[a] + displacement, read before
g[d] is written, where that is a multiple of 4, and traps MISALIGNED with that address where it is not, with g[d]
unchanged. The trap clause is of a core that is in no trap (R107). -/
def Obligations.BranchesAndJumpsComplete : Prop :=
  (∀ (s : State) (a b : BitVec 5) (i : BitVec 16),
    let goes (taken : Prop) [Decidable taken] : Word :=
      if taken then .ofInt 64 (s.pc.toNat + i.toInt * 4) else .ofNat 64 (s.pc.toNat + 4)
    (∃ t, exec (.beq a b i) s = .next t ∧ WroteNothing s t (goes (s.g a = s.g b))) ∧
    (∃ t, exec (.bne a b i) s = .next t ∧ WroteNothing s t (goes (s.g a ≠ s.g b))) ∧
    (∃ t, exec (.blt a b i) s = .next t ∧ WroteNothing s t (goes ((s.g a).toInt < (s.g b).toInt))) ∧
    (∃ t, exec (.bge a b i) s = .next t ∧ WroteNothing s t (goes ((s.g b).toInt ≤ (s.g a).toInt))) ∧
    (∃ t, exec (.bltu a b i) s = .next t ∧ WroteNothing s t (goes ((s.g a).toNat < (s.g b).toNat))) ∧
    (∃ t, exec (.bgeu a b i) s = .next t ∧ WroteNothing s t (goes ((s.g b).toNat ≤ (s.g a).toNat)))) ∧
  (∀ (s : State) (d a : BitVec 5) (j : BitVec 21) (i : BitVec 16),
    (∃ t, exec (.jal d j) s = .next t ∧ Linked s t d (s.pc + 4) (.ofInt 64 (s.pc.toNat + j.toInt * 4))) ∧
    (((s.g a).toNat + i.toInt) % 4 = 0 →
      ∃ t, exec (.jalr d a i) s = .next t ∧ Linked s t d (s.pc + 4) (.ofInt 64 ((s.g a).toNat + i.toInt))) ∧
    (((s.g a).toNat + i.toInt) % 4 ≠ 0 → s.core.csr.kstate.intrap = false →
      ∃ t, exec (.jalr d a i) s = .next t ∧ Trapped s t 0x03 (.ofInt 64 ((s.g a).toNat + i.toInt)) ∧
        t.pc = s.core.csr.trapv ∧ ∀ r, t.g r = s.g r))

/-- Spec/07 R143 and R144: the arithmetic of scalar floating point completes for every state, both formats and every
operand, with one rounding in the mode of FROUND, and raises the flags of the operation. Format, rounding and operations
are the model's (`Fmt`, spec/02). -/
def Obligations.FloatArithmeticCompletes : Prop :=
  ∀ (s : State) (d a b c : BitVec 5) (p : Bool),
    let F := if p then fp64 else fp32
    let x := (s.f a).toNat % 2 ^ F.width
    let y := (s.f b).toNat % 2 ^ F.width
    let z := (s.f c).toNat % 2 ^ F.width
    let m := RMode.of s.core.csr.fround
    let writes (i : Instr) (r : FRes) := ∃ t, exec i s = .next t ∧ WroteF s t d (.ofNat 64 r.1) r.2
    writes (.fadd d a b p) (F.add m x y) ∧ writes (.fsub d a b p) (F.sub m x y) ∧
    writes (.fmul d a b p) (F.mul m x y) ∧ writes (.fdiv d a b p) (F.div m x y) ∧
    writes (.fsqrt d a p) (F.sqrt m x) ∧
    writes (.fmin d a b p) (F.minMax false x y) ∧ writes (.fmax d a b p) (F.minMax true x y) ∧
    writes (.fsgnj d a b p) (F.signInject x (F.signOf y)) ∧
    writes (.fsgnjn d a b p) (F.signInject x (!F.signOf y)) ∧
    writes (.fsgnjx d a b p) (F.signInject x (F.signOf x ^^ F.signOf y)) ∧
    writes (.fmadd d a b c p) (F.fma m false false x y z) ∧ writes (.fmsub d a b c p) (F.fma m false true x y z) ∧
    writes (.fnmadd d a b c p) (F.fma m true true x y z) ∧ writes (.fnmsub d a b c p) (F.fma m true false x y z)

/-- Spec/07 R143, in binary64 (`p`) and in binary32, which reads the low half of a register and zero-extends its result.
Of a NaN among the operands the sums, products and quotients give the canonical NaN and raise NV exactly where an operand
is signalling; fmin and fmax give the other operand, whatever it is. The comparisons complete, with 0 for a NaN operand,
NV from flt and fle for any NaN and from feq for a signalling one, and else the order of the values, +0 and −0 being
equal; fclass gives SIGN and KIND and raises nothing. -/
def Obligations.FloatNaNsAndComparesComplete : Prop :=
  ∀ (s : State) (d a b : BitVec 5) (p : Bool),
    let width := if p then 64 else 32
    let mant := if p then 52 else 23
    let top := if p then 2047 else 255
    let x := (s.f a).toNat % 2 ^ width
    let y := (s.f b).toNat % 2 ^ width
    let negative (v : Nat) : Bool := v.testBit (width - 1)
    let size (v : Nat) : Nat := v % 2 ^ (width - 1)
    let nan (v : Nat) : Bool := decide (top * 2 ^ mant < size v)
    let signalling (v : Nat) : Bool := nan v && !v.testBit (mant - 1)
    let nv (c : Bool) : Flags := if c then 0x10 else 0
    let rank (v : Nat) : Int := if negative v then -(size v) else size v
    let res (c : Prop) [Decidable c] : Word := if nan x || nan y then 0 else if c then 1 else 0
    let e := size x / 2 ^ mant
    let m := x % 2 ^ mant
    let kind := if e = top then (if m = 0 then 3 else if x.testBit (mant - 1) then 4 else 5)
      else if e = 0 then (if m = 0 then 0 else 1) else 2
    ((nan x || nan y) = true →
      (∀ i ∈ [Instr.fadd d a b p, .fsub d a b p, .fmul d a b p, .fdiv d a b p],
        ∃ t, exec i s = .next t ∧
          WroteF s t d (.ofNat 64 (top * 2 ^ mant + 2 ^ (mant - 1))) (nv (signalling x || signalling y))) ∧
      (nan y = false → ∀ i ∈ [Instr.fmin d a b p, .fmax d a b p],
        ∃ t, exec i s = .next t ∧ WroteF s t d (.ofNat 64 y) (nv (signalling x)))) ∧
    (∃ t, exec (.feq d a b p) s = .next t ∧
      WroteGF s t d (res (rank x = rank y)) (nv (signalling x || signalling y))) ∧
    (∃ t, exec (.flt d a b p) s = .next t ∧ WroteGF s t d (res (rank x < rank y)) (nv (nan x || nan y))) ∧
    (∃ t, exec (.fle d a b p) s = .next t ∧ WroteGF s t d (res (rank x ≤ rank y)) (nv (nan x || nan y))) ∧
    (∃ t, exec (.fclass d a p) s = .next t ∧ WroteG s t d (.ofNat 64 (kind + if negative x then 8 else 0)))

/-- Spec/07 R145: the conversions and moves complete for every state; a narrow source is read from the low bits, a
result is rounded in the mode of FROUND, an integer result is sign-extended; the moves move all 64 bits and raise
nothing. Formats and conversions are the model's (`Fmt`, spec/02 R33, R34). -/
def Obligations.FloatConversionsComplete : Prop :=
  ∀ (s : State) (d a : BitVec 5),
    let low (w : Nat) := (s.f a).toNat % 2 ^ w
    let m := RMode.of s.core.csr.fround
    let toF (i : Instr) (r : FRes) := ∃ t, exec i s = .next t ∧ WroteF s t d (.ofNat 64 r.1) r.2
    let toG (i : Instr) (r : Int × Flags) := ∃ t, exec i s = .next t ∧ WroteGF s t d (.ofInt 64 r.1) r.2
    toF (.fcvtSD d a) (fconvert fp64 fp32 m (low 64)) ∧ toF (.fcvtDS d a) (fconvert fp32 fp64 m (low 32)) ∧
    toG (.fcvtWS d a) (fp32.toInt m 32 (low 32)) ∧ toG (.fcvtLS d a) (fp32.toInt m 64 (low 32)) ∧
    toF (.fcvtSW d a) (fp32.ofInt m ((s.g a).setWidth 32).toInt) ∧ toF (.fcvtSL d a) (fp32.ofInt m (s.g a).toInt) ∧
    toG (.fcvtWD d a) (fp64.toInt m 32 (low 64)) ∧ toG (.fcvtLD d a) (fp64.toInt m 64 (low 64)) ∧
    toF (.fcvtDW d a) (fp64.ofInt m ((s.g a).setWidth 32).toInt) ∧ toF (.fcvtDL d a) (fp64.ofInt m (s.g a).toInt) ∧
    (∃ t, exec (.fmvX d a) s = .next t ∧ WroteG s t d (s.f a)) ∧
    (∃ t, exec (.fmvF d a) s = .next t ∧ WroteF s t d (s.g a) 0) ∧
    toF (.fcvtBfS d a) (fconvert fp32 bf16 m (low 32)) ∧ toF (.fcvtSBf d a) (fconvert bf16 fp32 m (low 16)) ∧
    toF (.fcvtE4S d a) (fconvert fp32 e4m3 m (low 32)) ∧ toF (.fcvtSE4 d a) (fconvert e4m3 fp32 m (low 8)) ∧
    toF (.fcvtE5S d a) (fconvert fp32 e5m2 m (low 32)) ∧ toF (.fcvtSE5 d a) (fconvert e5m2 fp32 m (low 8))

/-- Spec/07 R146 and R147: an enabled flag that an instruction raises parks its thread when the instruction has retired:
PARK is set, PARKINF holds OFFSET 1 and the enabled flags, and the message word with the restart address, those flags
and the global core id is held for the service core behind those held before. The thread runs, is not parked before, and no
park of it is due: one that is takes effect before the next instruction. -/
def Obligations.EnabledFlagParks : Prop :=
  ∀ (s : State) (d a b : BitVec 5) (p : Bool),
    let F := if p then fp64 else fp32
    let r := F.div (RMode.of s.core.csr.fround) ((s.f a).toNat % 2 ^ F.width) ((s.f b).toNat % 2 ^ F.width)
    let fl := r.2 &&& s.core.csr.fenable
    fl ≠ 0 → s.core.run = .running → s.core.csr.kstate.park = false → s.core.parkDue = none →
      ∃ t, exec (.fdiv d a b p) s = .next t ∧ WroteF s t d (.ofNat 64 r.1) r.2 ∧
        t.core.csr.kstate.park = true ∧ t.core.csr.parkinf = .ofNat 16 (32 + fl.toNat) ∧
        t.core.heldEvent = s.core.heldEvent ++
          [.ofNat 64 ((s.pc + 4).toNat % 2 ^ 32 * 2 ^ 32 + fl.toNat * 2 ^ 10 + s.globalId s.cur)]

/-! ## Loads, stores and fences (spec/03 R51-R57, spec/05 R114, spec/06 R133-R139) -/

/-- The state of a core that has met a team-virtual address with no accessible location, at scratchpad offset `o`, for
the reason `code`: SPFLAG and SPADDR record it where none is recorded (R48). -/
def spflagNoted (s : State) (code : BitVec 2) (o : Nat) : State :=
  if s.core.csr.spflag = 0 then
    s.setCore { s.core with csr := { s.core.csr with spflag := code, spaddr := .ofNat 22 o } }
  else s

/-- Every form of load whose alignment the address `ea` has completes, from `s`, in a state that but for its register is
`u` with the instruction retired: the register holds the bytes `byte`, little-endian (R3), with the sign extended by the
signed forms, and zero-extended by the others (R133). -/
def LoadsGive (s u : State) (d a : BitVec 5) (i : BitVec 16) (ea : Word) (byte : Nat → BitVec 8) : Prop :=
  let half : BitVec 16 := byte 1 ++ byte 0
  let word : BitVec 32 := byte 3 ++ byte 2 ++ half
  let double : BitVec 64 := byte 7 ++ byte 6 ++ byte 5 ++ byte 4 ++ word
  (∃ t, exec (.ldb d a i) s = .next t ∧ WroteG u t d ((byte 0).signExtend 64)) ∧
  (∃ t, exec (.ldbu d a i) s = .next t ∧ WroteG u t d ((byte 0).setWidth 64)) ∧
  (ea.toNat % 2 = 0 →
    (∃ t, exec (.ldh d a i) s = .next t ∧ WroteG u t d (half.signExtend 64)) ∧
    (∃ t, exec (.ldhu d a i) s = .next t ∧ WroteG u t d (half.setWidth 64))) ∧
  (ea.toNat % 4 = 0 →
    (∃ t, exec (.ldw d a i) s = .next t ∧ WroteG u t d (word.signExtend 64)) ∧
    (∃ t, exec (.ldwu d a i) s = .next t ∧ WroteG u t d (word.setWidth 64)) ∧
    (∃ t, exec (.fldw d a i) s = .next t ∧ WroteF u t d (word.setWidth 64) 0)) ∧
  (ea.toNat % 8 = 0 →
    (∃ t, exec (.ld d a i) s = .next t ∧ WroteG u t d double) ∧
    (∃ t, exec (.fldd d a i) s = .next t ∧ WroteF u t d double 0))

/-- Spec/06 R133, R134 and R136, spec/03 R47 and R48: an aligned load from TCM or through the scratchpad window completes
when no store to that space waits in the buffer, and gives the bytes at its address. In the scratchpad no unretired vector
instruction of the core writes the granule, and the bytes are those of the cluster's scratchpad where the team's map
places the address (`place`, the model's map), a correctable granule; an address with no accessible location reads as
zero, and SPFLAG and SPADDR record it. -/
def Obligations.LoadsComplete : Prop :=
  ∀ (s : State) (d a : BitVec 5) (i : BitVec 16),
    let ea : Word := s.g a + i.signExtend 64
    let o := ea.toNat - 0x400000
    (0x80000 ≤ ea.toNat → ea.toNat < 0xB0000 → (∀ e ∈ s.core.stores, e.kind ≠ .tcm) →
      LoadsGive s s d a i ea fun k => Memory.read s.core.tcm (ea.toNat - 0x80000 + k)) ∧
    (0x400000 ≤ ea.toNat → ea.toNat < 0x600000 → (∀ e ∈ s.core.stores, e.kind ≠ .spm) →
      (∀ v ∈ s.core.vq, ∀ w ∈ v.writes ++ v.landed, w.space = .spm → w.off / 32 ≠ o / 32) →
      (∀ q, s.place s.cur .spm o = .ok q → s.granuleBad s.cur .spm o = false →
        LoadsGive s s d a i ea fun k => Memory.read (s.cl (clusterOf s.cur)).spm (q + k)) ∧
      (∀ code, s.place s.cur .spm o = .out code → LoadsGive s (spflagNoted s code o) d a i ea fun _ => 0))

/-- Spec/06 R133 and R135, spec/03 R48: a store with a free entry completes by entering the buffer, unreleased, with its
address, size and data, and no byte of any memory changes until the entry is accepted: to TCM, to a place in the team's
scratchpad, under its offset there, or to a translated address, under its physical one, `u` being the state after the
translation. A store to no accessible scratchpad location completes too: it is dropped, and SPFLAG and SPADDR record it.
-/
def Obligations.StoresEnterTheBuffer : Prop :=
  ∀ (s : State) (d a : BitVec 5) (i : BitVec 16),
    let ea : Word := s.g a + i.signExtend 64
    let o := ea.toNat - 0x400000
    let each (does : Instr → BitVec 2 → Word → Prop) : Prop := does (.stb d a i) 0 (s.g d) ∧
      (ea.toNat % 2 = 0 → does (.sth d a i) 1 (s.g d)) ∧
      (ea.toNat % 4 = 0 → does (.stw d a i) 2 (s.g d) ∧ does (.fstw d a i) 2 (s.f d)) ∧
      (ea.toNat % 8 = 0 → does (.st d a i) 3 (s.g d) ∧ does (.fstd d a i) 3 (s.f d))
    let enters (u : State) (kind : StoreKind) (addr : Nat) (x : Instr) (z : BitVec 2) (v : Word) : Prop :=
      ∃ t e, exec x s = .next t ∧
        t.core = { u.core.completed (s.pc + 4) s.core.regs s.core.csr with stores := s.core.stores ++ [e] } ∧
        e.released = false ∧ e.kind = kind ∧ e.addr = addr ∧ e.size = z ∧ e.data = v ∧ e.amo = none ∧
        t = u.setCore t.core ∧ SameMemory s t
    s.core.stores.length < 8 →
      (0x80000 ≤ ea.toNat → ea.toNat < 0xB0000 → each (enters s .tcm ea.toNat)) ∧
      (0x400000 ≤ ea.toNat → ea.toNat < 0x600000 →
        (∀ q, s.place s.cur .spm o = .ok q → each (enters s .spm o)) ∧
        (∀ code, s.place s.cur .spm o = .out code →
          each fun x _ _ => ∃ t, exec x s = .next t ∧ WroteNothing (spflagNoted s code o) t (s.pc + 4))) ∧
      (0x100000000 ≤ ea.toNat → ea.toNat < 0x1000000000000 → ∀ u x, s.translated ea.toNat .write = (u, .ok x) →
        each (enters u .phys x.pa))

/-- Spec/06 R134: a load or store below 0x80000 takes NULL_REGION, one to TCM or the scratchpad window at an address
that is no multiple of its size takes MISALIGNED, with the address in TRAPAUX and no register or byte of memory changed.
A store has a free entry in the buffer. -/
def Obligations.BadAddressesTrap : Prop :=
  ∀ (s : State) (d a : BitVec 5) (i : BitVec 16), s.core.csr.kstate.intrap = false → s.core.stores.length < 8 →
    let ea : Word := s.g a + i.signExtend 64
    let window := (0x80000 ≤ ea.toNat ∧ ea.toNat < 0xB0000) ∨ (0x400000 ≤ ea.toNat ∧ ea.toNat < 0x600000)
    ∀ p ∈ [(Instr.ldb d a i, 1), (.ldbu d a i, 1), (.ldh d a i, 2), (.ldhu d a i, 2), (.ldw d a i, 4), (.ldwu d a i, 4),
        (.ld d a i, 8), (.fldw d a i, 4), (.fldd d a i, 8), (.stb d a i, 1), (.sth d a i, 2), (.stw d a i, 4),
        (.st d a i, 8), (.fstw d a i, 4), (.fstd d a i, 8)],
      (ea.toNat < 0x80000 → ∃ t, exec p.1 s = .next t ∧ Trapped s t 0x06 ea ∧ t.pc = s.core.csr.trapv) ∧
      (window → ea.toNat % p.2 ≠ 0 → ∃ t, exec p.1 s = .next t ∧ Trapped s t 0x03 ea ∧ t.pc = s.core.csr.trapv)

/-- Spec/06 R136: a doubleword load from TCM right after a doubleword store to the same address gives the value stored,
while the store is still in the buffer.

Spec/03 R47, R52, R57 and spec/06 R135: the oldest entry of a core's buffer is released unless a vector instruction issued
before it has still to retire; the oldest entry, released, is accepted, and is gone: its bytes are stored little-endian at
its address in TCM, where the team's map places its offset in the cluster's scratchpad (`place`, the model's map), a
correctable granule, or at its physical address in memory of its die that is free, awake and in no error, and every
other byte of every memory is as before.

Spec/19 R327: an amo or ship without reply whose home lies on another die enters the gateway's queue and stays in the
store buffer, marked as sent; it leaves the buffer when the gateway brings it to its home, whose stack is awake. That it
stays there until then is the model's reading of R3, R327 and R52, not R327's own words (notes/assumptions/82, DEDUCED).

Spec/03 R51 and spec/06 R134: a doubleword load that waits for its home, with its line free, its stack awake, and no
uncorrectable error or mismatch there, is served: its register receives the bytes at its address and it retires; every
other register and control register but INSTRET and MPROG, every other core and every byte of memory is as before. -/
def Obligations.StoresDrainAndLoadsAreServed : Prop :=
  (∀ (s t : State) (d a d' a' : BitVec 5) (i i' : BitVec 16),
    let ea : Word := s.g a + i.signExtend 64
    0x80000 ≤ ea.toNat → ea.toNat < 0xB0000 → ea.toNat % 8 = 0 → s.core.stores.length < 8 →
      exec (.st d a i) s = .next t → t.g a' + i'.signExtend 64 = ea →
        ∃ u, exec (.ld d' a' i') t = .next u ∧ WroteG t u d' (s.g d)) ∧
  (∀ (s : State) (c : CoreId) (e : StoreEntry) (es : List StoreEntry), (s.coreAt c).stores = e :: es →
    (e.released = false → (∀ v ∈ (s.coreAt c).vq, 0 < v.before) → ∃ t, exec (.storeRelease c) s = .next t ∧
      (t.coreAt c).stores = { e with released := true } :: es ∧ SameMemory s t ∧
      t = s.setCoreAt c { s.coreAt c with stores := (t.coreAt c).stores }) ∧
    (let rest := { s.coreAt c with stores := es, vq := (s.coreAt c).vq.map fun v => { v with before := v.before - 1 } }
      let stored (from_ : Nat) (old new : Mem) := ∀ x, Memory.read new x =
        if from_ ≤ x ∧ x < from_ + 2 ^ e.size.toNat then (e.data >>> (8 * (x - from_))).setWidth 8 else Memory.read old x
      e.released = true → e.sent = false →
        (e.kind = .tcm → 0x80000 ≤ e.addr → Memory.wf (s.coreAt c).tcm = true →
          ∃ t, exec (.storeAccept (.core c)) s = .next t ∧
            stored (e.addr - 0x80000) (s.coreAt c).tcm (t.coreAt c).tcm ∧
            t = s.setCoreAt c { rest with tcm := (t.coreAt c).tcm }) ∧
        (∀ q, e.kind = .spm → s.place c .spm e.addr = .ok q → s.granuleBad c .spm e.addr = false →
          Memory.wf (s.cl (clusterOf c)).spm = true →
          ∃ t, exec (.storeAccept (.core c)) s = .next t ∧
            stored q (s.cl (clusterOf c)).spm (t.cl (clusterOf c)).spm ∧
            t = (s.setCoreAt c rest).setCl (clusterOf c)
              { s.cl (clusterOf c) with spm := (t.cl (clusterOf c)).spm }) ∧
        (e.kind = .phys → e.amo = none → wayQueue c e.addr = none → s.stackQueue e.addr = none →
          s.lineHeld e.addr = false → s.lineFault e.addr (s.sealFor e.buf) = none → Memory.wf s.mem = true →
          ∃ t, exec (.storeAccept (.core c)) s = .next t ∧ stored e.addr s.mem t.mem ∧
            t.cores = (s.setCoreAt c rest).cores ∧ t.clusters = s.clusters ∧ t.mailbox = s.mailbox)) ∧
    (∀ (a b : DieId) (op : BitVec 5), e.released = true → e.sent = false → e.kind = .phys → e.amo = some op →
      wayQueue c e.addr = some (.gateway a b) →
      ∃ t y o, exec (.storeAccept (.core c)) s = .next t ∧ t.transit = s.transit ++ [y] ∧ y.queue = .gateway a b ∧
        y.core = c ∧ y.item = .ship o ∧ o.reply = none ∧ o.op = op ∧ o.pa = e.addr ∧
        (t.coreAt c).stores = { e with sent := true } :: es ∧ t.mem = s.mem ∧ t.clusters = s.clusters) ∧
    (∀ (a b : DieId) (y : Transit) (o : ShipOp), e.sent = true → s.transit = [y] → y.queue = .gateway a b → y.core = c →
      y.item = .ship o → o.reply = none → s.stackQueue o.pa = none →
      ∃ t, exec (.storeAccept (.queue (.gateway a b))) s = .next t ∧ t.transit = [] ∧ t.ships = s.ships ++ [o] ∧
        (t.coreAt c).stores = es ∧ t.mem = s.mem ∧ t.clusters = s.clusters)) ∧
  (∀ (s : State) (c : CoreId) (ld : PendLoad) (d : BitVec 5), (s.coreAt c).wait = .load ld → ld.dst = .g d false →
    ld.size = 3 → (∀ x ∈ s.transit, x.core ≠ c) → s.lineHeld ld.pa = false → s.awake ld.pa = true →
    s.lineFault ld.pa ld.under = none →
      ∃ t, exec (.loadServed c) s = .next t ∧
        (t.coreAt c).readG d = (if d = 0 then 0 else .ofNat 64 (s.readPhys ld.pa 8)) ∧
        (∀ r, r ≠ d → (t.coreAt c).readG r = (s.coreAt c).readG r) ∧
        t.coreAt c = (s.coreAt c).completed ((s.coreAt c).pc + 4)
          { (s.coreAt c).regs with g := (t.coreAt c).regs.g } (s.coreAt c).csr ∧
        (∀ e, e ≠ c → t.coreAt e = s.coreAt e) ∧ t.clusters = s.clusters ∧ t.mem = s.mem)

/-- Spec/05 R114 and spec/06 R137, in TCM: savem and loadm move one register per step, from register MPROG of the range
on. A step before the last raises MPROG by one and leaves the pc; the last one retires with MPROG 0. savem pushes the
doubleword into the buffer; loadm, with no store to TCM in the buffer, writes the register; every other register and
control register, everything outside the core, and every byte of memory is as before. That MPROG counts a doubleword of
savem once the buffer holds it, where R114 says stored and accepted, is the model's choice (notes/assumptions/83, DESIGN
CHOICE). -/
def Obligations.RegisterRangesMove : Prop :=
  ∀ (s : State) (d a b : BitVec 5),
    let k := s.core.csr.mprog.toNat
    let n := b.toNat + 1 - d.toNat
    let ea := s.g a + .ofNat 64 (8 * k)
    let o := ea.toNat - 0x80000
    let moved (r : Regs) : Core :=
      if k + 1 < n then { s.core with regs := r, wait := .ready, csr := { s.core.csr with mprog := .ofNat 6 (k + 1) } }
      else s.core.completed (s.pc + 4) r s.core.csr
    let saves (i : Instr) (v : Word) := ∃ t e, exec i s = .next t ∧ e.kind = .tcm ∧ e.size = 3 ∧ e.addr = ea.toNat ∧
      e.data = v ∧ t.core = { moved s.core.regs with stores := s.core.stores ++ [e] } ∧ t = s.setCore t.core ∧
      SameMemory s t
    d.toNat ≤ b.toNat → k < n → (s.g a).toNat % 8 = 0 → 0x80000 ≤ ea.toNat → ea.toNat < 0xB0000 →
      (s.core.stores.length < 8 →
        saves (.savemG d a b) (s.g (d + .ofNat 5 k)) ∧ saves (.savemF d a b) (s.f (d + .ofNat 5 k))) ∧
      ((∀ e ∈ s.core.stores, e.kind ≠ .tcm) →
        (¬(d.toNat ≤ a.toNat ∧ a.toNat ≤ b.toNat) → ∃ t, exec (.loadmG d a b) s = .next t ∧
          t.g (d + .ofNat 5 k) = (if d + .ofNat 5 k = 0 then 0 else .ofNat 64 (Memory.readNat s.core.tcm o 8)) ∧
          (∀ r, r ≠ d + .ofNat 5 k → t.g r = s.g r) ∧ t.core = moved { s.core.regs with g := t.core.regs.g } ∧
          t = s.setCore t.core ∧ SameMemory s t) ∧
        (∃ t, exec (.loadmF d a b) s = .next t ∧ t.f (d + .ofNat 5 k) = .ofNat 64 (Memory.readNat s.core.tcm o 8) ∧
          (∀ r, r ≠ d + .ofNat 5 k → t.f r = s.f r) ∧ t.core = moved { s.core.regs with f := t.core.regs.f } ∧
          t = s.setCore t.core ∧ SameMemory s t))

/-- Spec/03 R54 and R139: with nothing of the core's left to perform, every fence completes and writes no register and
no data memory; fence.core makes the fetch side of TCM what its data side is (R46, the model's fetch view:
notes/assumptions/6). While a store to TCM is in the buffer fence.core and fence.die wait, and while one to the
scratchpad is, fence.team and fence.cluster do. -/
def Obligations.FencesWaitThenComplete : Prop :=
  ∀ (s : State),
    (s.core.stores = [] → s.core.vq = [] → s.transit = [] → s.ships = [] → s.cmds = [] →
      (∃ t, exec .fenceCore s = .next t ∧ t = s.setCore t.core ∧
        t.core = { s.core.completed (s.pc + 4) s.core.regs s.core.csr with itcm := s.core.tcm }) ∧
      ∀ i ∈ [Instr.fenceTeam, .fenceCluster, .fenceDie, .fencePackage, .fenceFabric, .fenceSystem],
        ∃ t, exec i s = .next t ∧ WroteNothing s t (s.pc + 4)) ∧
    ((∃ e ∈ s.core.stores, e.kind = .tcm) → exec .fenceCore s = .next s ∧ exec .fenceDie s = .next s) ∧
    ((∃ e ∈ s.core.stores, e.kind = .spm) → exec .fenceTeam s = .next s ∧ exec .fenceCluster s = .next s)

/-! ## Control registers, exceptions, waiting and ending (spec/05 R101-R125, spec/07 R146-R152) -/

/-- Spec/05 R102 and spec/07 R149: rdc completes at supervisor level for every control register it may name, here with
the value of each that is stored whole; at user level it completes for those the user may read, and takes PRIVILEGE for
those it may not.

Spec/05 R102 and spec/07 R149: wrc of a register that is stored under a mask completes at supervisor level, and at user
level for FFLAGS, FENABLE, FROUND, SPFLAG and BTO; a later rdc reads the value under the mask; every other control
register but INSTRET and MPROG, which a retired instruction leaves 0 (R115), every other register, everything outside the
core and every byte of memory is as before the wrc. At both levels wrc of EFAULT completes and clears the bits written as
ones, with the same frame. A flag, or a fault of EFAULT, that the hardware sets in the cycle of the wrc stays set (R36;
`setAt`, `setFlags` and `setFaults` hold what it set last). That a written MPROG holds until the next instruction retires
is the model's choice (notes/assumptions/63). -/
def Obligations.ControlRegistersReadAndWrite : Prop :=
  (∀ (s : State) (d : BitVec 5),
    let x := s.core.csr
    let open_ : List (BitVec 12 × Word) := [(0x008, x.teamid.setWidth 64), (0x009, x.tcore.setWidth 64),
      (0x00A, x.tsize.setWidth 64), (0x00C, x.gridid.setWidth 64), (0x00D, x.asid.setWidth 64),
      (0x00E, .ofNat 64 (s.cur.val % 8)), (0x010, x.fflags.setWidth 64), (0x011, x.fenable.setWidth 64),
      (0x012, x.fround.setWidth 64), (0x018, x.spflag.setWidth 64), (0x019, x.spaddr.setWidth 64),
      (0x01A, x.mprog.setWidth 64), (0x01B, x.vlen.setWidth 64), (0x020, x.efault.setWidth 64),
      (0x021, x.engfc.setWidth 64), (0x022, x.engfa), (0x028, x.bto.setWidth 64), (0x029, x.wrrw.setWidth 64),
      (0x030, .ofNat 64 (s.now - x.placedAt)), (0x031, x.instret)]
    let hidden : List (BitVec 12 × Word) := [(0x002, x.trappc), (0x003, x.trapaux), (0x004, x.trapv), (0x005, x.trapsave),
      (0x006, x.frame), (0x013, x.parkinf.setWidth 64), (0x01C, x.pmprog.setWidth 64), (0x040, x.ptbase)]
    (∀ p ∈ open_, ∃ t, exec (.rdc d p.1) s = .next t ∧ WroteG s t d p.2) ∧
    (x.kstate.priv = .supervisor → ∀ p ∈ hidden, ∃ t, exec (.rdc d p.1) s = .next t ∧ WroteG s t d p.2) ∧
    (x.kstate.priv = .user → x.kstate.intrap = false → ∀ p ∈ hidden,
      ∃ t, exec (.rdc d p.1) s = .next t ∧ Trapped s t 0x04 ((encode32 (.rdc d p.1)).setWidth 64) ∧ t.pc = x.trapv)) ∧
  (∀ (s : State) (a d : BitVec 5) (r : BitVec 12) (mask : Word),
    (s.core.csr.kstate.priv = .supervisor ∨ r ∈ ([0x010, 0x011, 0x012, 0x018, 0x028] : List (BitVec 12))) →
    (r, mask) ∈ ([(0x002, -1), (0x003, -1), (0x004, ~~~0xFF), (0x005, -1), (0x006, ~~~0x3F), (0x010, 0x1F), (0x011, 0x1F),
      (0x012, 0x7), (0x018, 0x3), (0x01A, 0x3F), (0x01C, 0x3F), (0x021, 0xFFFF), (0x022, -1),
      (0x028, 0xFFFFFFFF)] : List (BitVec 12 × Word)) →
      ∃ t, exec (.wrc a r) s = .next t ∧ t.pc = s.pc + 4 ∧ t.core.regs = s.core.regs ∧ t = s.setCore t.core ∧
        SameMemory s t ∧ (∀ q, q ≠ r.toNat → q ≠ 0x031 → q ≠ 0x01A → t.readCreg s.cur q = s.readCreg s.cur q) ∧
        (r ≠ 0x01A → t.core.csr.mprog = 0) ∧
        ∃ u, exec (.rdc d r) t = .next u ∧ WroteG t u d ((s.g a &&& mask) |||
          if r = 0x010 ∧ s.core.csr.setAt = s.now then s.core.csr.setFlags.setWidth 64 else 0)) ∧
  (∀ (s : State) (a : BitVec 5),
    ∃ t, exec (.wrc a 0x020) s = .next t ∧ t.pc = s.pc + 4 ∧ t.core.regs = s.core.regs ∧ t = s.setCore t.core ∧
      SameMemory s t ∧ (∀ q, q ≠ 0x020 → q ≠ 0x031 → q ≠ 0x01A → t.readCreg s.cur q = s.readCreg s.cur q) ∧
      t.core.csr.mprog = 0 ∧ t.core.csr.efault = (s.core.csr.efault &&& ~~~((s.g a).setWidth 16)) |||
        (if s.core.csr.setAt = s.now then s.core.csr.setFaults else 0))

/-- Spec/05 R103 and spec/07 R149: wrc of KSTATE at supervisor level writes IE, PPRIV, PIE and INTRAP from bits 10, 8, 7
and 6 and leaves PARK and PRIV; at user level wrc of a register the user may not write takes PRIVILEGE. -/
def Obligations.WrcKstateAndPrivilege : Prop :=
  ∀ (s : State) (a : BitVec 5),
    (s.core.csr.kstate.priv = .supervisor → (s.g a).getLsbD 9 = false →
      ∃ t, exec (.wrc a 0x000) s = .next t ∧ t.pc = s.pc + 4 ∧ t = s.setCore t.core ∧
        t.core.csr.kstate.ie = (s.g a).getLsbD 10 ∧ t.core.csr.kstate.pie = (s.g a).getLsbD 7 ∧
        t.core.csr.kstate.ppriv = (if (s.g a).getLsbD 8 then .supervisor else .user) ∧
        t.core.csr.kstate.intrap = (s.g a).getLsbD 6 ∧ t.core.csr.kstate.park = s.core.csr.kstate.park ∧
        t.core.csr.kstate.priv = .supervisor) ∧
    (s.core.csr.kstate.priv = .user → s.core.csr.kstate.intrap = false →
      ∀ r ∈ ([0x000, 0x001, 0x002, 0x003, 0x004, 0x005, 0x006, 0x008, 0x009, 0x00A, 0x00B, 0x00C, 0x00D, 0x00E,
        0x013, 0x019, 0x01A, 0x01B, 0x01C, 0x021, 0x022, 0x029, 0x030, 0x031, 0x040, 0x041, 0x042] : List (BitVec 12)),
        ∃ t, exec (.wrc a r) s = .next t ∧ Trapped s t 0x04 ((encode32 (.wrc a r)).setWidth 64) ∧ t.pc = s.core.csr.trapv)

/-- Spec/05 R107: a precise trap of a core in no trap saves the pc in TRAPPC, the cause in TRAPC and the detail in
TRAPAUX, moves PRIV and IE to PPRIV and PIE, enters supervisor level with IE 0 and INTRAP 1, moves MPROG to PMPROG, and
goes to TRAPV + 256 times the class of the cause; nothing else changes. Shown for each fetch that gives no instruction:
an illegal word, a reserved field, a pc outside TCM. -/
def Obligations.FetchTrapsEnterTheHandler : Prop :=
  ∀ (s : State) (w : BitVec 32) (pc : Word), s.core.csr.kstate.intrap = false →
    (∃ t, exec (.illegalInstruction w) s = .next t ∧ Trapped s t 0x01 (w.setWidth 64) ∧ t.pc = s.core.csr.trapv) ∧
    (∃ t, exec (.reservedField w) s = .next t ∧ Trapped s t 0x02 (w.setWidth 64) ∧ t.pc = s.core.csr.trapv) ∧
    (∃ t, exec (.fetchRegion pc) s = .next t ∧
      Trapped s t (if pc.toNat < 0x80000 then 0x06 else 0x05) pc ∧ t.pc = s.core.csr.trapv)

/-- Spec/05 R107 and R112: a trap of any cause inside a trap ends the core's team with DOUBLE_TRAP, the auxiliary word
holding the pc and the cause, unless the team already holds a fatal cause, which is kept; no trap register of the core
changes. `trapAt` is the model's one entry of every trap. Shown of it for every cause, and of the fetch events (an illegal
word, a reserved field, a pc outside TCM), of a wrc of a register that no level may write (PRIVILEGE) and of a load below
0x80000 (NULL_REGION), as steps. -/
def Obligations.TrapInTrapEndsTheTeam : Prop :=
  ∀ (s : State) (c : CoreId) (k : Slot) (x : Team), (s.coreAt c).csr.kstate.intrap = true →
    (s.coreAt c).slot = some k → s.team (clusterOf c) k = some x →
      let ended (cause : BitVec 8) (t : State) := (t.coreAt c).csr = (s.coreAt c).csr ∧
        (t.coreAt c).regs = (s.coreAt c).regs ∧ (t.coreAt c).pc = (s.coreAt c).pc ∧ t.team (clusterOf c) k = some { x with
          status := .fatal, fatal := some (x.fatal.getD (0xA2, (s.coreAt c).pc <<< 8 ||| cause.setWidth 64)) }
      (∀ cause aux async, ended cause (s.trapAt c cause aux async)) ∧
      (∀ (w : BitVec 32) (pc : Word) (a : BitVec 5), s.cur = c →
        (∃ t, exec (.illegalInstruction w) s = .next t ∧ ended 0x01 t) ∧
        (∃ t, exec (.reservedField w) s = .next t ∧ ended 0x02 t) ∧
        (∃ t, exec (.fetchRegion pc) s = .next t ∧ ended (if pc.toNat < 0x80000 then 0x06 else 0x05) t) ∧
        (∃ t, exec (.wrc a 0x008) s = .next t ∧ ended 0x04 t) ∧
        (∀ (d : BitVec 5) (i : BitVec 16), (s.g a + i.signExtend 64).toNat < 0x80000 →
          ∃ t, exec (.ld d a i) s = .next t ∧ ended 0x06 t))

/-- Spec/05 R109: eret at supervisor level, from a cause that is not fatal by hardware, restores the pc, the level, IE
and MPROG, leaves the trap, and changes nothing else; from one that is, it ends the team with TEAM_ABORT. At user level
it takes PRIVILEGE. As the first instruction of a handler it undoes the entry. -/
def Obligations.EretRestores : Prop :=
  ∀ (s : State),
    (s.core.csr.kstate.priv = .supervisor → s.core.csr.trapc.hwfatal = false →
      ∃ t, exec .eret s = .next t ∧ t.pc = s.core.csr.trappc ∧ t.core.regs = s.core.regs ∧
        t.core.csr = { s.core.csr with
          kstate := { s.core.csr.kstate with priv := s.core.csr.kstate.ppriv, ie := s.core.csr.kstate.pie, intrap := false },
          mprog := s.core.csr.pmprog, instret := s.core.csr.instret + 1 } ∧ t = s.setCore t.core ∧ SameMemory s t) ∧
    (s.core.csr.kstate.priv = .user → s.core.csr.kstate.intrap = false →
      ∃ t, exec .eret s = .next t ∧ Trapped s t 0x04 0x98000002 ∧ t.pc = s.core.csr.trapv) ∧
    (∀ (k : Slot) (x : Team), s.core.csr.kstate.priv = .supervisor → s.core.csr.trapc.hwfatal = true →
      s.core.slot = some k → s.team (clusterOf s.cur) k = some x →
      ∃ t, exec .eret s = .next t ∧ t.core.regs = s.core.regs ∧ t.core.csr = s.core.csr ∧ t.pc = s.pc ∧ t.team (clusterOf s.cur) k = some { x with
        status := .fatal, fatal := some (x.fatal.getD (0xA1, s.core.csr.trapc.cause.setWidth 64)) } ∧ SameMemory s t) ∧
    (∀ (t : State) (w : BitVec 32), s.core.csr.kstate.intrap = false → exec (.illegalInstruction w) s = .next t →
      ∃ u, exec .eret t = .next u ∧ u.pc = s.pc ∧ u.core.csr.kstate.priv = s.core.csr.kstate.priv ∧
        u.core.csr.kstate.ie = s.core.csr.kstate.ie ∧ u.core.csr.kstate.intrap = s.core.csr.kstate.intrap ∧
        u.core.csr.kstate.park = s.core.csr.kstate.park ∧ u.core.csr.mprog = s.core.csr.mprog ∧
        u.core.regs = s.core.regs)

/-- Spec/07 R148, R151 and R152: wfi completes when a wake-up, an arrived message or an asynchronous trap is there and
waits when none is, nothing but that changed; end ends a user thread, its lanes and its inbox; the pre-emption handler's
end hands the core over; resume, at supervisor level, clears PARK of a running parked core of the package and reports 0,
reports 1 for a running core that is not parked, 2 for a number above 1023 and 3 for a core that no active cluster holds;
it waits where a RESUME of a core of a higher global id, or of a service core, has been decided for that core in this
cycle (`resumedBy`). -/
def Obligations.WaitEndResume : Prop :=
  ∀ (s : State) (d a : BitVec 5),
    (s.core.wake = true → ∃ t, exec .wfi s = .next t ∧ t.pc = s.pc + 4 ∧ t.core.wake = false ∧
      t.core.regs = s.core.regs ∧ t = s.setCore t.core ∧ SameMemory s t) ∧
    (s.core.wake = false → (∀ m ∈ s.core.inbox, m.arrived = false) → s.core.preempt = none → s.core.lost = none →
      exec .wfi s = .next (s.setCore { s.core with wait := .event })) ∧
    (s.core.csr.kstate.intrap = false → ∃ t, exec .endThread s = .next t ∧ t.core.run = .ended ∧ t.core.inbox = [] ∧
      t.core.csr.vlen = 0 ∧ t.core.regs = s.core.regs ∧ t = s.setCore t.core ∧ SameMemory s t) ∧
    (s.core.csr.kstate.intrap = true → s.core.csr.kstate.priv = .supervisor → s.core.csr.trapc.cause = 0xA0 →
      s.core.csr.trapc.hwfatal = false → ∃ t, exec .endThread s = .next t ∧ t.core.run = .handed ∧
        t.core.csr.vlen = s.core.csr.vlen ∧ t = s.setCore t.core ∧ SameMemory s t) ∧
    (s.core.csr.kstate.priv = .supervisor →
      (1023 < (s.g a).toNat → ∃ t, exec (.resume d a) s = .next t ∧ WroteG s t d 2) ∧
      ((s.g a).toNat ≤ 1023 → s.holderOf ((s.g a).toNat / 8) = none →
        ∃ t, exec (.resume d a) s = .next t ∧ WroteG s t d 3) ∧
      (∀ k, (s.g a).toNat ≤ 1023 → s.holderOf ((s.g a).toNat / 8) = some k →
        let c : CoreId := coreOf k ⟨(s.g a).toNat % 8, Nat.mod_lt _ (by decide)⟩
        let late := ∃ r, (s.coreAt c).resumedBy = some (s.now, r) ∧ s.globalId s.cur < r
        (late → exec (.resume d a) s = .next s) ∧
        (¬late → c ≠ s.cur → (s.coreAt c).run = .running → ∃ t, exec (.resume d a) s = .next t ∧
          t.g d = (if d = 0 ∨ (s.coreAt c).csr.kstate.park = true then 0 else 1) ∧ (∀ r, r ≠ d → t.g r = s.g r) ∧
          t.pc = s.pc + 4 ∧
          t.coreAt c = { s.coreAt c with
            resumedBy := (t.coreAt c).resumedBy,
            csr := { (s.coreAt c).csr with kstate := { (s.coreAt c).csr.kstate with park := false } } } ∧
          ∀ e, e ≠ c → e ≠ s.cur → t.coreAt e = s.coreAt e)))

/-- Spec/05 R108, R113 and R116, spec/07 R147, spec/12 R234: PREEMPT and CLUSTER_LOST are taken on a running core at an
instruction boundary that is in no trap and that no park of a vector instruction comes before, PREEMPT with IE set; each
enters the handler of its class asynchronously, with its reason or core in TRAPAUX. The oldest held word of a core's
parks is delivered while the service core's inbox has room, behind the entries that have arrived (R383). -/
def Obligations.AsynchronousTrapsAreTaken : Prop :=
  ∀ (s : State) (c : CoreId) (why : BitVec 2) (lost w : Word), let k := s.coreAt c
    (k.run = .running → k.wait = .ready → k.csr.kstate.intrap = false → k.csr.kstate.park = false →
        (k.csr.fenable = 0 ∨ ∀ v ∈ k.vq, v.raises = false) →
      (k.preempt = some why → k.csr.kstate.ie = true →
        ∃ t, exec (.preempt c) s = .next t ∧ (t.coreAt c).csr.trapc = ⟨false, true, 0xA0⟩ ∧
          (t.coreAt c).csr.trappc = k.pc ∧ (t.coreAt c).csr.trapaux = why.setWidth 64 ∧ (t.coreAt c).preempt = none ∧
          (t.coreAt c).pc = k.csr.trapv + 1024 ∧ (t.coreAt c).csr.kstate.priv = .supervisor ∧
          (t.coreAt c).csr.kstate.ppriv = k.csr.kstate.priv ∧ (t.coreAt c).regs = k.regs) ∧
      (k.lost = some lost →
        ∃ t, exec (.clusterLost c) s = .next t ∧ (t.coreAt c).csr.trapc = ⟨true, true, 0xB1⟩ ∧
          (t.coreAt c).csr.trappc = k.pc ∧ (t.coreAt c).csr.trapaux = lost ∧ (t.coreAt c).lost = none ∧
          (t.coreAt c).pc = k.csr.trapv + 1280 ∧ (t.coreAt c).regs = k.regs)) ∧
    (∀ ws, k.heldEvent = w :: ws → (s.svc[s.serviceOf c]).length < 64 →
      ∃ t e, exec (.fpEvent c) s = .next t ∧ (t.coreAt c).heldEvent = ws ∧ e.word = w ∧ e.kind = 1 ∧
        e.asid = k.csr.asid ∧ e.arrived = true ∧ t.svc[s.serviceOf c] =
          (s.svc[s.serviceOf c]).filter (·.arrived) ++ e :: (s.svc[s.serviceOf c]).filter (!·.arrived))

/-- Spec/03 R48, spec/05 R102, R112 and R124, spec/07 R149: what the registers with an action do when written. EFAULT
clears the bits written as ones but for those that a fault sets in the same cycle (`setAt`, `setFaults`), SPFLAG takes
bits 1:0, WRRW takes bits 3:0 with 0 stored as 1, TABORT with bit 0 ends the core's team with TEAM_ABORT, SHOOT with GO
sets its busy bit and queues the shootdown, which completes, with the busy bit cleared, once no access of the old epoch is
outstanding. -/
def Obligations.ActionRegistersAct : Prop :=
  ∀ (s : State) (v : Word),
    (∃ t, exec (.efaultClear v) s = .next t ∧ t = s.setCore t.core ∧
      t.core = { s.core with csr := { s.core.csr with
        efault := (s.core.csr.efault &&& ~~~(v.setWidth 16)) |||
          (if s.core.csr.setAt = s.now then s.core.csr.setFaults else 0) } }) ∧
    (∃ t, exec (.spflagWrite v) s = .next t ∧ t = s.setCore t.core ∧
      t.core = { s.core with csr := { s.core.csr with spflag := v.setWidth 2 } }) ∧
    (∃ t, exec (.wrrwWrite v) s = .next t ∧ t = s.setCore t.core ∧
      t.core = { s.core with csr := { s.core.csr with wrrw := if v.setWidth 4 = 0#4 then 1 else v.setWidth 4 } }) ∧
    (∀ k x, v.getLsbD 0 = true → s.core.slot = some k → s.team (clusterOf s.cur) k = some x →
      ∃ t, exec (.tabortWrite v) s = .next t ∧ t.team (clusterOf s.cur) k = some { x with
        status := .fatal, fatal := some (x.fatal.getD (0xA1, s.core.csr.trapc.cause.setWidth 64)) } ∧
        t.core.regs = s.core.regs ∧ t.core.csr = s.core.csr ∧ t.pc = s.pc) ∧
    (v.getLsbD 0 = true → s.core.csr.shoot.busy = false →
      ∃ t, exec (.shootGo v) s = .next t ∧ t.core.csr.shoot.busy = true ∧
        t.core.csr.shoot.tasid = (v >>> 48).setWidth 12 ∧ t.shoots.length = s.shoots.length + 1 ∧
        t.shoots.take s.shoots.length = s.shoots) ∧
    (∀ (h : Shoot) (c : CoreId), s.shoots = [h] → h.by_ = .core c → s.oldAccess h = false →
      ∃ t, exec .shootdownComplete s = .next t ∧ t.shoots = [] ∧ (t.coreAt c).csr.shoot.busy = false ∧
        (t.coreAt c).regs = (s.coreAt c).regs ∧ ∀ e, e ≠ c → t.coreAt e = s.coreAt e)

/-! ## Messages, counters, engine issue, pointers, masks and accumulator access (spec/07 R153-R167) -/

/-- Spec/07 R154 and R155: a send with no scratchpad access left to perform puts the word, TCORE in bits 63:56, into the
inbox of the service core (target 8) or of a core that the team holds and that runs, and writes 0, writes 1 while that
inbox is full and 2 where the team has no such core; recv and recv.t take the oldest word once it has arrived; with
none, recv waits and recv.t writes all ones; an in-flight word arrives. Spec/07 R158 and R159: waitc waits while its
counter is at or above the threshold and completes below it, and at once for a register threshold of 0 or above 255;
rdcnt reads a counter. -/
def Obligations.MessagesAndCountersComplete : Prop :=
  (∀ (s : State) (d a : BitVec 5) (n : BitVec 4) (w : Word) (rest : List InboxWord),
    let v := s.serviceOf s.cur
    let word : Word := s.core.csr.tcore.setWidth 64 <<< 56 ||| (s.g a &&& 0x00FFFFFFFFFFFFFF)
    (s.core.storesDone .spm = true → s.core.vq = [] →
      ((s.svc[v]).length < 64 → ∃ t e, exec (.send d a 8) s = .next t ∧ t.g d = 0 ∧ t.pc = s.pc + 4 ∧
        t.svc[v] = s.svc[v] ++ [e] ∧ e.word = word ∧ e.kind = 0 ∧ e.asid = s.core.csr.asid ∧ e.arrived = false) ∧
      (¬(s.svc[v]).length < 64 → ∃ t, exec (.send d a 8) s = .next t ∧ WroteG s t d 1) ∧
      (n.toNat < 8 → s.core.csr.tsize.toNat ≤ n.toNat → ∃ t, exec (.send d a n) s = .next t ∧ WroteG s t d 2) ∧
      (∀ c, n.toNat < 8 → n.toNat < s.core.csr.tsize.toNat → s.teamCore n.toNat = some c → c ≠ s.cur →
        (s.coreAt c).slot = s.core.slot → (s.coreAt c).run = .running → (s.coreAt c).csr.kstate.intrap = false →
        (8 ≤ (s.coreAt c).inbox.length → ∃ t, exec (.send d a n) s = .next t ∧ WroteG s t d 1) ∧
        ((s.coreAt c).inbox.length < 8 → ∃ t, exec (.send d a n) s = .next t ∧ t.g d = 0 ∧ t.pc = s.pc + 4 ∧
          t.coreAt c = { s.coreAt c with inbox := (s.coreAt c).inbox ++ [⟨false, word⟩] }))) ∧
    (s.core.inbox = ⟨true, w⟩ :: rest → ∀ i ∈ [Instr.recv d, .recvT d],
      ∃ t, exec i s = .next t ∧ t.g d = (if d = 0 then 0 else w) ∧ (∀ r, r ≠ d → t.g r = s.g r) ∧ t.pc = s.pc + 4 ∧
        t.core.inbox = rest ∧ t = s.setCore t.core ∧ SameMemory s t) ∧
    (s.core.inbox = [] → exec (.recv d) s = .next s ∧
      ∃ t, exec (.recvT d) s = .next t ∧ WroteG s t d 0xFFFFFFFFFFFFFFFF) ∧
    (∀ c : CoreId, (s.coreAt c).inbox = ⟨false, w⟩ :: rest →
      ∃ t, exec (.messageArrival (.core c)) s = .next t ∧ t = s.setCoreAt c (t.coreAt c) ∧
        t.coreAt c = { s.coreAt c with wake := true, inbox := ⟨true, w⟩ :: rest })) ∧
  (∀ (s : State) (c : BitVec 4) (i : BitVec 8) (a d : BitVec 5), i ≠ 0 →
    ((s.core.readC c).toNat < i.toNat → ∃ t, exec (.waitc c i) s = .next t ∧ WroteNothing s t (s.pc + 4)) ∧
    (i.toNat ≤ (s.core.readC c).toNat → exec (.waitc c i) s = .next s) ∧
    ((s.core.readC c).toNat < (s.g a).toNat ∨ s.g a = 0 ∨ 255 < (s.g a).toNat →
      ∃ t, exec (.waitcReg c a) s = .next t ∧ WroteNothing s t (s.pc + 4)) ∧
    (0 < (s.g a).toNat → (s.g a).toNat ≤ (s.core.readC c).toNat → exec (.waitcReg c a) s = .next s) ∧
    (∃ t, exec (.rdcnt d c) s = .next t ∧ WroteG s t d ((s.core.readC c).setWidth 64)))

/-- Spec/07 R161 and R162: enq of an aligned command in TCM, with room in the engine's queue, its counter below 255 and
no store to the command's bytes in the buffer, appends the command to the queue and counts it. Without a reply register
it retires; with one the core waits for the reply. A misaligned address takes MISALIGNED, a counter of 255
COUNTER_OVERFLOW. -/
def Obligations.EnqQueuesTheCommand : Prop :=
  ∀ (s : State) (e : BitVec 3) (c : BitVec 4) (a d : BitVec 5),
    let w := s.g a
    let en := engineOf e.toNat
    e.toNat ≤ 3 →
    (w.toNat % 32 = 0 → 0x80000 ≤ w.toNat → w.toNat < 0xB0000 →
      (s.cmds.filter fun x => x.core == s.cur && x.engine == en && x.place == .queue).length < 2 →
      (s.core.readC c ≠ 255 → (∀ x ∈ s.core.stores, x.kind ≠ .tcm) →
        ∃ t x, exec (.enq e c a d) s = .next t ∧ t.cmds = s.cmds ++ [x] ∧ x.seq = s.nextSeq ∧ x.core = s.cur ∧
          x.engine = en ∧ x.counter = c ∧ x.place = .queue ∧ x.phase = .queued ∧
          x.word = readCmd s.core.tcm (w.toNat - 0x80000) ∧ t.core.readC c = s.core.readC c + 1 ∧
          (∀ q, q ≠ c → t.core.readC q = s.core.readC q) ∧ t.core.regs.g = s.core.regs.g ∧
          (d = 0 → x.reply = none ∧ t.pc = s.pc + 4 ∧ t.core.wait = .ready) ∧
          (d ≠ 0 → x.reply = some d ∧ t.pc = s.pc ∧ t.core.wait = .enqReply s.nextSeq d) ∧ SameMemory s t) ∧
      (s.core.readC c = 255 → s.core.csr.kstate.intrap = false →
        ∃ t, exec (.enq e c a d) s = .next t ∧ Trapped s t 0x63 (c.setWidth 64) ∧ t.pc = s.core.csr.trapv + 512)) ∧
    (w.toNat % 32 ≠ 0 → s.core.csr.kstate.intrap = false →
      ∃ t, exec (.enq e c a d) s = .next t ∧ Trapped s t 0x03 w ∧ t.pc = s.core.csr.trapv)

/-- Spec/05 R98, R99 and spec/07 R163 and R164: the pointer and mask instructions complete for every state. pset writes
SPACE and ADDR of a pointer and keeps STEP, pstep writes STEP and keeps the rest, both leaving bits 41:22 zero; prd and
prdstep read them back, STEP with its sign; the mask forms combine masks, m0 reading as all ones and discarding
writes.

Spec/07 R166 and R167: acmrd and acmrd.n read the accumulator at a multiple of 4 of the team's accumulator space into
f[d], and acmwr writes it from f[b], when the core has no vector instruction to retire and the granule holds no
uncorrectable error; acmrd waits, and acmwr takes ACM_BUSY, while a command of the team covers the accumulator; acmrd.n
does not look. Every other byte is as before. `place` is the model's map of the team's space to the cluster's SRAM. -/
def Obligations.PointersMasksAndAccumulatorsComplete : Prop :=
  (∀ (s : State) (p : BitVec 4) (m x y : BitVec 3) (a d : BitVec 5),
    let same (t : State) := t = s.setCore t.core ∧ t.pc = s.pc + 4 ∧ t.core.csr = { s.core.csr with
      instret := s.core.csr.instret + 1, mprog := 0 } ∧ SameMemory s t
    let ptr (i : Instr) (step place : Nat) := ∃ t, exec i s = .next t ∧ same t ∧
      t.core.readP p = .ofNat 64 (step % 2 ^ 22 * 2 ^ 42 + place % 2 ^ 22) ∧
      t.core.regs = { s.core.regs with p := t.core.regs.p } ∧ ∀ q, q ≠ p → t.core.readP q = s.core.readP q
    let mask (i : Instr) (v : Word) := ∃ t, exec i s = .next t ∧ same t ∧ t.core.readM m = (if m = 0 then -1 else v) ∧
      t.core.regs = { s.core.regs with m := t.core.regs.m } ∧ ∀ q, q ≠ m → t.core.readM q = s.core.readM q
    let v := s.core.readP p
    ptr (.pset p a) (v.toNat / 2 ^ 42) (s.g a).toNat ∧ ptr (.pstep p a) (s.g a).toNat v.toNat ∧
    (∃ t, exec (.prd d p) s = .next t ∧ WroteG s t d (.ofNat 64 (v.toNat % 2 ^ 22))) ∧
    (∃ t, exec (.prdstep d p) s = .next t ∧ WroteG s t d (.ofInt 64 (v.toInt / 2 ^ 42))) ∧
    mask (.mkset m a) (s.g a) ∧ mask (.mkand m x y) (s.core.readM x &&& s.core.readM y) ∧
    mask (.mkor m x y) (s.core.readM x ||| s.core.readM y) ∧
    mask (.mkxor m x y) (s.core.readM x ^^^ s.core.readM y) ∧
    mask (.mkandn m x y) (s.core.readM x &&& ~~~(s.core.readM y)) ∧
    (∃ t, exec (.mkget d m) s = .next t ∧ WroteG s t d (s.core.readM m))) ∧
  (∀ (s : State) (d a b : BitVec 5) (q : Nat),
    let o := (s.g a).toNat % 2 ^ 21
    let k := clusterOf s.cur
    let v : Word := .ofNat 64 (Memory.readNat (s.cl k).acc q 4)
    o % 4 = 0 → s.core.vq = [] → s.place s.cur .acc o = .ok q →
      (s.granuleBad s.cur .acc o = false →
        (∃ t, exec (.acmrdN d a) s = .next t ∧ WroteF s t d v 0) ∧
        (s.covered s.cur o = false → ∃ t, exec (.acmrd d a) s = .next t ∧ WroteF s t d v 0)) ∧
      (s.covered s.cur o = true → exec (.acmrd d a) s = .next s ∧
        (s.core.csr.kstate.intrap = false → ∃ t, exec (.acmwr a b) s = .next t ∧ Trapped s t 0x61 (.ofNat 64 o))) ∧
      (s.covered s.cur o = false → s.granuleBad s.cur .acc o = false → Memory.wf (s.cl k).acc = true →
        ∃ t, exec (.acmwr a b) s = .next t ∧
        (∀ j, Memory.read (t.cl k).acc j = if q ≤ j ∧ j < q + 4
          then ((s.f b) >>> (8 * (j - q))).setWidth 8 else Memory.read (s.cl k).acc j) ∧
        (∀ j, Memory.read (t.cl k).spm j = Memory.read (s.cl k).spm j) ∧ (∀ e, e ≠ k → t.cl e = s.cl e) ∧
        t.mem = s.mem ∧ t.core = s.core.completed (s.pc + 4) s.core.regs s.core.csr))

/-! ## Shipped operations (spec/19 R320-R331) -/

/-- Spec/19 R323 to R327: an atomic or a ship of an aligned translated address completes its issue. Without reply it
enters the store buffer, which has room, as an operation of its function and size, and the instruction retires; with
reply, and with nothing of the core's left to perform and room in the queues of its stack, it departs for its home with
its function and size, physical address, operands, tenant and reply register, and the core waits, unchanged but for
that. Shown for every function in both sizes (`fn`; bit 4 of the operation marks the 32-bit form), and for ship with a
valid routine. `u` is the state after the translation. -/
def Obligations.ShippedOperationsIssue : Prop :=
  ∀ (s u : State) (d a b c : BitVec 5) (w : Bool) (x : Xlat) (fn : Fin 12),
    let amo (n : Bool) : Instr := match fn with
      | 0 => .amoAdd d a b n w | 1 => .amoMin d a b n w | 2 => .amoMax d a b n w | 3 => .amoSwap d a b n w
      | 4 => .amoCas d a b c n w | 5 => .amoAnd d a b n w | 6 => .amoOr d a b n w | 7 => .amoXor d a b n w
      | 8 => .amoWimin d a b n w | 9 => .amoMinu d a b n w | 10 => .amoMaxu d a b n w | 11 => .amoFadd d a b n w
    let ea := s.g a
    let quiet (i : Instr) (op : BitVec 5) (z : BitVec 2) (cmp : Word) := s.core.stores.length < 8 →
      ∃ t e, exec i s = .next t ∧ t.core.stores = u.core.stores ++ [e] ∧ e.amo = some op ∧ e.size = z ∧ e.addr = x.pa ∧
        e.data = s.g b ∧ e.cmp = cmp ∧ e.kind = .phys ∧ e.released = false ∧ t.pc = u.pc + 4 ∧
        t.core.regs = u.core.regs ∧ t = u.setCore t.core
    let leaves (i : Instr) (op : BitVec 5) (cmp : Word) := s.core.stores = [] → s.core.vq = [] →
      (∀ st, u.stackQueue x.pa = some st → u.stackFull st = false) →
      let o : ShipOp := {
        core := s.cur, reply := some d, op := op, pa := x.pa, va := ea, x := s.g b, cmp := cmp,
        asid := u.core.csr.asid, epoch := x.epoch, under := u.sealFor x.buf, stamp := u.tick, result := none }
      ∃ t, exec i s = .next t ∧ (u.setCore { u.core with wait := .reply }).depart s.cur x.pa (.ship o) = some t ∧
        t.core = { u.core with wait := .reply }
    let op : BitVec 5 := .ofNat 5 (if w then fn.val + 16 else fn.val)
    let cmp := if fn = 4 then s.g c else 0
    0x100000000 ≤ ea.toNat → ea.toNat < 0x1000000000000 → u.cur = s.cur →
      (ea.toNat % (if w then 4 else 8) = 0 → s.translated ea.toNat .amo = (u, .ok x) →
        quiet (amo true) op (if w then 2 else 3) cmp ∧ leaves (amo false) op cmp) ∧
      (ea.toNat % 8 = 0 → 128 ≤ (s.g b).toNat / 2 ^ 56 → s.routineValid ((s.g b >>> 56).setWidth 8) = true →
        s.translated ea.toNat .routine = (u, .ok x) →
        quiet (.ship d a b true) 31 3 0 ∧ leaves (.ship d a b false) 31 0)

/-- Spec/19 R320, R324, R327 and R328: a 64-bit integer atomic with reply at its home, the first of its line, on a
correctable line of a stack that is awake, stores the new value of its function, changes no other byte, and answers the
old value; the reply then reaches its core: the register receives it and the instruction retires; every other register
and control register but INSTRET and MPROG, every other core and every byte of memory is as before. -/
def Obligations.AtomicsPerformAndReply : Prop :=
  ∀ (s : State) (i : Nat) (o : ShipOp) (d : BitVec 5),
    let old : Word := .ofNat 64 (Memory.readNat s.mem o.pa 8)
    let new : Word := match o.op.toNat with
      | 0 => old + o.x
      | 1 => if o.x.toInt < old.toInt then o.x else old
      | 2 => if old.toInt < o.x.toInt then o.x else old
      | 3 => o.x
      | 4 => if old = o.cmp then o.x else old
      | 5 => old &&& o.x
      | 6 => old ||| o.x
      | 7 => old ^^^ o.x
      | 9 => if o.x.toNat < old.toNat then o.x else old
      | _ => if old.toNat < o.x.toNat then o.x else old
    o.op.toNat ∈ [0, 1, 2, 3, 4, 5, 6, 7, 9, 10] → Memory.wf s.mem = true →
      (s.ships[i]? = some o → o.result = none → o.reply = some d → firstOnLine o (s.ships.take i) = true →
        s.awake o.pa = true → s.filling o.pa = false → (s.countBuddy o.pa).lineFault o.pa o.under = none →
        ∃ t, exec (.shippedOpPerform i) s = .next t ∧ t.ships[i]? = some { o with result := some (.value old) } ∧
          (∀ j, Memory.read t.mem j = if o.pa ≤ j ∧ j < o.pa + 8 then (new >>> (8 * (j - o.pa))).setWidth 8
            else Memory.read s.mem j) ∧ t.cores = s.cores ∧ t.clusters = s.clusters) ∧
      (∀ v, o.reply = some d → o.result = some (.value v) → s.ships = [o] →
        ∃ t, exec (.shippedReply o.core) s = .next t ∧ t.ships = [] ∧
          (t.coreAt o.core).readG d = (if d = 0 then 0 else v) ∧
          (∀ r, r ≠ d → (t.coreAt o.core).readG r = (s.coreAt o.core).readG r) ∧
          t.coreAt o.core = (s.coreAt o.core).completed ((s.coreAt o.core).pc + 4)
            { (s.coreAt o.core).regs with g := (t.coreAt o.core).regs.g } (s.coreAt o.core).csr ∧
          (∀ e, e ≠ o.core → t.coreAt e = s.coreAt e) ∧ t.clusters = s.clusters ∧ t.mem = s.mem)

/-! ## Maps, and the commands of the agent administration port (spec/20, spec/19 R332) -/

/-- Spec/20 R342, R348, R349 and R353, in a bucket of no split: the only operation of its agent, on a stack that is
awake, no line of its segment in error or under another seal than the operation expects, is performed whole. mprb (fn 0)
answers the key's value with status 0, or the default with status 1, and changes no map; mups.replace (fn 8) of an absent
key, where its last line has room, appends the key and value to the bucket's chain and answers the default. With all lines
of its segment in error it answers DATA_UNCORRECTABLE, with none in error and all under other seals MAC_FAIL, and no map
changes: R390 and R387 give the faults of a line in error and of a line under another seal, and that all lines of the
segment decide a map operation's fault is the model's choice (notes/assumptions/71). -/
def Obligations.MapOperationsPerform : Prop :=
  ∀ (s : State) (o : MapOp) (m : MapDesc),
    let key := m.key o.key
    let h := m.hash o.key
    let g := m.segs[segOf h]
    let chain := g.chain (g.bucket h)
    let found := chain.find? fun e => e.1 == key
    s.mapOps = [o] → s.mapOf o = some m → s.maps = [m] → o.result = none → s.awake (o.place m) = true →
      g.splitting = none →
      (o.fn.toNat < 11 → s.segBad m (segOf h) = .all → ∃ t, exec (.mapOpPerform 0) s = .next t ∧ t.maps = s.maps ∧
        t.mapOps = [{ o with result := some (.fault 0xB0) }]) ∧
      (o.fn.toNat < 11 → s.segBad m (segOf h) = .none → m.stale o.under (segOf h) = .all →
        ∃ t, exec (.mapOpPerform 0) s = .next t ∧ t.maps = s.maps ∧
          t.mapOps = [{ o with result := some (.fault 0xB2) }]) ∧
      (s.segBad m (segOf h) = .none → m.stale o.under (segOf h) = .none →
      (o.fn = 0 → ∃ t st, exec (.mapOpPerform 0) s = .next t ∧ t.maps = s.maps ∧
        t.mapOps = [{ o with result := some (.pair ((found.map (·.2)).getD m.dflt) st none) }] ∧
        st.toNat % 256 = (if found.isSome then 0 else 1)) ∧
      (o.fn = 8 → found = none → chain.length % m.slots ≠ 0 ∨ chain = [] → ∃ t st m', exec (.mapOpPerform 0) s = .next t ∧
        t.maps = [m'] ∧ (m'.segs[segOf h]).chain (g.bucket h) = chain ++ [(key, m.value o.operand)] ∧
        (m'.segs[segOf h]).count = g.count + 1 ∧ (m'.segs[segOf h]).pool = g.pool ∧
        t.mapOps = [{ o with result := some (.pair m.dflt st none) }] ∧ st.toNat % 256 = 1))

/-- Spec/20 R346, R347 and R353: a map instruction on a translated base that is a multiple of 64 KiB, with nothing of
the core's left to perform and room in the queues of its stack, completes its issue: its function, key, operand, base,
handle and destination depart for the header agent, and the core waits for the reply, unchanged but for that. `u` is the
state after the translation. Spec/20 R347 and R353: the answer of a map operation writes its even register and the next,
both other than g0, and its instruction retires; every other register and control register but INSTRET and MPROG, and
everything outside the core but the answered operation is as before. -/
def Obligations.MapInstructionsIssueAndAreAnswered : Prop :=
  (∀ (s u : State) (d a b c : BitVec 5) (x : Xlat),
    let base := (s.g a).toNat % 2 ^ 48
    let leaves (i : Instr) (fn : BitVec 6) (c : BitVec 5) :=
      let o : MapOp := {
        core := s.cur, pa := x.pa, fn := fn, d := d, c := c, base := (s.g a).setWidth 48,
        handle := (s.g a >>> 48).setWidth 10, asid := s.core.csr.asid, epoch := x.epoch, buf := x.buf,
        under := ((s.liveMap s.core.csr.asid ((s.g a >>> 48).setWidth 10) ((s.g a).setWidth 48)).map s.mapSeals).getD [],
        stamp := s.tick, key := s.g b, operand := s.g c, cursor := s.g b, scanned := 0, result := none }
      ∃ t, exec i s = .next t ∧ (u.setCore { u.core with wait := .reply }).depart s.cur x.pa (.map o) = some t ∧
        t.core = { u.core with wait := .reply }
    s.core.stores = [] → s.core.vq = [] → 0x100000000 ≤ base → base % 65536 = 0 → u.cur = s.cur →
      (∀ st, u.stackQueue x.pa = some st → u.stackFull st = false) →
      (s.translated base .mapRead = (u, .ok x) →
        leaves (.mprb d a b) 0 0 ∧ leaves (.mhash d a b) 11 0 ∧ leaves (.miter d a b c) 12 c) ∧
      (s.translated base .mapWrite = (u, .ok x) →
        leaves (.mins d a b c) 1 c ∧ leaves (.mupsAdd d a b c) 2 c ∧ leaves (.mupsMin d a b c) 3 c ∧
        leaves (.mupsMax d a b c) 4 c ∧ leaves (.mupsOr d a b c) 5 c ∧ leaves (.mupsAnd d a b c) 6 c ∧
        leaves (.mupsXor d a b c) 7 c ∧ leaves (.mupsReplace d a b c) 8 c ∧ leaves (.mupsFirst d a b c) 9 c ∧
        leaves (.mrem d a b) 10 0)) ∧
  (∀ (s : State) (o : MapOp) (x y : Word), s.ships = [] → s.mapOps = [o] → o.result = some (.pair x y none) →
    o.d.toNat % 2 = 0 → o.d ≠ 0 →
      ∃ t, exec (.shippedReply o.core) s = .next t ∧ (t.coreAt o.core).readG o.d = x ∧
        (t.coreAt o.core).readG (o.d + 1) = y ∧
        (∀ r, r ≠ o.d → r ≠ o.d + 1 → (t.coreAt o.core).readG r = (s.coreAt o.core).readG r) ∧
        t.coreAt o.core = (s.coreAt o.core).completed ((s.coreAt o.core).pc + 4)
          { (s.coreAt o.core).regs with g := (t.coreAt o.core).regs.g } (s.coreAt o.core).csr ∧
        t.mapOps = [] ∧ (∀ e, e ≠ o.core → t.coreAt e = s.coreAt e) ∧ t.clusters = s.clusters ∧ t.maps = s.maps ∧
        t.mem = s.mem)

/-- Spec/20 R338 to R340, R343 and R344, and spec/19 R332: the agent administration's commands and events complete. mapnew
over frames of no map makes a live map under a free handle and answers it, its descriptor still to be written (`u` is the
state after the walks); mapdel takes a map in force, its header's stack awake with nothing queued there, out of service, and completes, with the map
gone, when no operation is left on it; a split step of an empty bucket that is due, nothing at its agent and no line of
its segment in error or under another seal, moves the segment's split on; rtload of a valid image takes its entries out of
service where its signature holds (a free value: notes/assumptions/10), and faults where it does not; it writes them,
valid, when nothing uses them. -/
def Obligations.AgentCommandsComplete : Prop :=
  ∀ (s : State) (x : Cmd) (m : MapDesc), let csr := (s.coreAt x.core).csr
    (s.cmd s.cmdRef = some x → s.mayStart x = true → s.acquired x = true →
      (∀ (hd : Hdr) (base : BitVec 48) (zpg : BitVec 16) (dflt seed : BitVec 64) (l0 lmax : BitVec 5) (kw vw : Bool)
          (comb : BitVec 3) (pages : List (Nat × BitVec 12)) (h : Nat) (u : State),
        walkRegion s csr.asid csr.ptbase ⟨base, zpg.toNat, dflt, seed, l0.toNat, lmax.toNat, kw, vw, comb⟩
          (8 * zpg.toNat) 0 [] = (u, .ok pages) → u.cmd s.cmdRef = some x →
        (∀ y ∈ u.maps, ∀ f ∈ y.frames, f ∉ pages.map (·.1)) → u.freeHandle csr.asid = some h → u.liveMaps < 16384 →
        ∃ t n y, exec (.agtMapnew hd base zpg dflt seed l0 lmax kw vw comb) s = .next t ∧ t.maps = u.maps ++ [n] ∧
          n.live = true ∧ n.written = false ∧ n.asid = csr.asid ∧ n.handle = .ofNat 10 h ∧ n.frames = pages.map (·.1) ∧
          n.dflt = dflt ∧ n.seed = seed ∧
          t.cmd s.cmdRef = some y ∧ y.phase = .finished ∧ y.result = .ofNat 64 h) ∧
      (∀ (hd : Hdr), s.maps = [m] → m.live = true → m.written = true → m.asid = csr.asid → s.stackQueue m.header = none →
        ∃ t y, exec (.agtMapdel hd m.handle) s = .next t ∧ t.maps = [{ m with live := false }] ∧
          t.cmd s.cmdRef = some y ∧ y.phase = .running) ∧
      (∀ (hd : Hdr) (src : BitVec 48) (first count : BitVec 8) (u : State) (image : List Byte),
        let n := count.toNat * 512
        csr.kstate.priv = .supervisor → 0x100000000 ≤ src.toNat → u.cmd s.cmdRef = some x →
        copyReads s x true false ((n + 2420) / 32 + 1) src.toNat (n + 2420) = .ok u image →
        firstInvalid (image.take n) count.toNat = none →
        let signed := Config.signatureHolds (imageHash first.toNat count.toNat (image.take n)) (image.drop n)
        ∃ t y, exec (.agtRtload hd src first count) s = .next t ∧ t.cmd s.cmdRef = some y ∧
          (signed = true → y.phase = .running ∧
            ∀ r ∈ t.routines, first.toNat ≤ r.entry.toNat → r.entry.toNat < first.toNat + count.toNat → r.valid = false) ∧
          (signed = false → y.phase = .finished ∧ y.fault = some (0x82, .ofNat 64 (2 * 256 + first.toNat)) ∧
            t.routines = u.routines))) ∧
    (∀ (hd : Hdr), s.cmd x.seq = some x → x.phase = .running → decodeCommand .agt x.word = .ok (.agtMapdel hd m.handle) →
      s.maps = [m] → m.asid = csr.asid → s.mapOps = [] → (∀ y ∈ s.transit, ∀ st, y.queue ≠ .stack st) →
      ∃ t y, exec (.mapdelComplete x.seq) s = .next t ∧ t.maps = [] ∧ t.cmd x.seq = some y ∧ y.phase = .finished ∧
        y.result = 0 ∧ t.cores = s.cores) ∧
    (∀ (seg : BitVec 3), let g := m.segs[(⟨seg.toNat, seg.isLt⟩ : Slot)]
      s.maps = [m] → m.live = true → s.mapOps = [] → s.ships = [] → (∀ y ∈ s.transit, ∀ st, y.queue ≠ .stack st) →
      s.segBad m ⟨seg.toNat, seg.isLt⟩ = .none → m.stale (s.mapSeals m) ⟨seg.toNat, seg.isLt⟩ = .none →
      s.awake (m.segPlace ⟨seg.toNat, seg.isLt⟩) = true → g.splitting = none → 0 < g.pending → g.chain g.split = [] →
      ∃ t m', exec (.splitStep m.asid m.handle seg) s = .next t ∧ t.maps = [m'] ∧
        (m'.segs[(⟨seg.toNat, seg.isLt⟩ : Slot)]).pending = g.pending - 1 ∧
        (m'.segs[(⟨seg.toNat, seg.isLt⟩ : Slot)]).split = (if g.split + 1 = 2 ^ g.level then 0 else g.split + 1) ∧
        (m'.segs[(⟨seg.toNat, seg.isLt⟩ : Slot)]).level = (if g.split + 1 = 2 ^ g.level then g.level + 1 else g.level)) ∧
    (∀ (hd : Hdr) (src : BitVec 48) (first count : BitVec 8), s.cmd x.seq = some x → x.phase = .running →
      decodeCommand .agt x.word = .ok (.agtRtload hd src first count) → s.routineQueued first.toNat count.toNat = false →
      ∃ t y, exec (.rtloadTableWrite x.seq) s = .next t ∧ t.cmd x.seq = some y ∧ y.phase = .finished ∧ y.result = 0 ∧
        (∀ r ∈ s.routines, ¬(first.toNat ≤ r.entry.toNat ∧ r.entry.toNat < first.toNat + count.toNat) → r ∈ t.routines) ∧
        ∀ k, k < count.toNat → first.toNat + k < 256 → ∃ r ∈ t.routines, r.entry.toNat = first.toNat + k ∧ r.valid = true)

/-! ## The Claim Unit (spec/08) -/

/-- Spec/08 R176, R178, R182, R183 and R185: claim records the counts of a vector without reserved bits, within the
cluster's totals, of a team that has no claim yet. Of a well-formed request for pages (CLASS 1) that the team has not
mapped and its claim allows, acq and acq.t map the lowest free pages and complete when the banker grants it; when it
does not, acq enters the blocked list and waits, and acq.t writes 1 or 2 and maps nothing. The unit has decided for no
core of a higher number in this cycle (R179; the order's reading is notes/assumptions/1), and no blocked request is to be
granted before it (R178). That the target page of a relocation under way is taken last among the free pages is the model's
choice (notes/assumptions/61). -/
def Obligations.ClaimsAndAcquiresComplete : Prop :=
  ∀ (s : State) (d a : BitVec 5) (k : Slot) (x : Team) (max : Counts),
    let q := clusterOf s.cur
    let v := (s.g a).toNat
    let r := Request.of (s.g a)
    let ruling := s.bankerDecide q k r.counts
    let mine := x.pages ++ pairUp r.base ((s.cl q).takePages r.count)
    s.core.slot = some k → s.team q k = some x → s.claimLate = false →
      (vectorReserved v = false → x.claim = none → (Counts.ofVector v).overTotal = none →
        ∃ t, exec (.claim a) s = .next t ∧ t.team q k = some { x with claim := some (Counts.ofVector v) } ∧
          t.core = s.core.completed (s.pc + 4) s.core.regs s.core.csr ∧ SameMemory s t) ∧
      (malformed (s.g a) = false → r.cls = 1 → r.overlaps x = false → x.claim = some max →
        overClaim (s.allocation q k) r.counts max = none →
        (ruling = 0 →
          (∃ t, exec (.acq a) s = .next t ∧ t.team q k = some { x with pages := mine } ∧
            t.core = s.core.completed (s.pc + 4) s.core.regs s.core.csr ∧ SameMemory s t) ∧
          (∃ t, exec (.acqT d a) s = .next t ∧ t.team q k = some { x with pages := mine } ∧ t.g d = 0 ∧ t.pc = s.pc + 4)) ∧
        (ruling ≠ 0 →
          (∃ t b, exec (.acq a) s = .next t ∧ (t.cl q).blocked = (s.cl q).blocked ++ [b] ∧ b.core = corenoOf s.cur ∧
            b.team = k ∧ b.req = r.counts ∧ t.core.wait = .acquire ∧ t.pc = s.pc ∧ t.core.regs = s.core.regs ∧
            t.team q k = some x) ∧
          (∃ t, exec (.acqT d a) s = .next t ∧ WroteG s.noteDecision t d (.ofNat 64 ruling))))

/-- Spec/08 R172 and R184: with no scratchpad access of the core and no command of the team left, rel of pages that the
team has mapped, none under a board token, unmaps them and starts their zeroing, and relall of a team none of whose
boards is still to be cleared unmaps every page and block; both complete. -/
def Obligations.ReleasesComplete : Prop :=
  ∀ (s : State) (a : BitVec 5) (k : Slot) (y : Team),
    let q := clusterOf s.cur
    let r := Request.of (s.g a)
    s.core.slot = some k → s.team q k = some y → s.core.storesDone .spm = true → s.core.vq = [] → s.cmds = [] → y.saved = [] →
      (malformed (s.g a) = false → r.cls = 1 → r.unheld (s.cl q) k y = false →
        ∃ t z, exec (.rel a) s = .next t ∧ t.team q k = some z ∧
          z.pages = y.pages.filter (fun e => !(decide (r.base ≤ e.1) && decide (e.1 < r.base + r.count))) ∧
          z.blocks = y.blocks ∧ t.core = s.core.completed (s.pc + 4) s.core.regs s.core.csr ∧ SameMemory s t ∧
          (∀ e ∈ y.pages, r.base ≤ e.1 → e.1 < r.base + r.count → .page e.2 ∈ (t.cl q).zeroing)) ∧
      ((∀ g ∈ (s.cl q).groups.toList, (g.holder.any fun h => h.1 == k) = true → g.mode = .data) →
        ∃ t z, exec .relall s = .next t ∧ t.team q k = some z ∧ z.pages = [] ∧ z.blocks = [] ∧
        t.core = s.core.completed (s.pc + 4) s.core.regs s.core.csr ∧ SameMemory s t)

/-- Spec/08 R187 and R188: vclaim of a well-formed pair of limits within the claim, on a core that already holds the
minimum, completes with the core's lanes between the two limits and writes their number; vreneg writes it too, and while
a request of another team is blocked brings the lanes down to the minimum. The unit has decided for no core of a higher
number in this cycle (R179; the order's reading is notes/assumptions/1), and no blocked request is to be granted before it
(R178). -/
def Obligations.LaneClaimsComplete : Prop :=
  ∀ (s : State) (d a b : BitVec 5) (k : Slot) (y : Team) (max : Counts),
    let q := clusterOf s.cur
    let lanes := s.core.csr.vlen.toNat / 8
    s.core.slot = some k → s.team q k = some y → s.core.vq = [] → s.claimLate = false →
      ((s.g a).toNat % 8 = 0 → (s.g b).toNat % 8 = 0 → (s.g a).toNat ≤ (s.g b).toNat → (s.g b).toNat ≤ 64 →
        y.claim = some max → (s.g a).toNat / 8 + s.otherLots s.cur k ≤ max.lane → (s.g a).toNat / 8 ≤ lanes →
        ∃ t, exec (.vclaim d a b) s = .next t ∧ (s.g a).toNat ≤ t.core.csr.vlen.toNat ∧
          t.core.csr.vlen.toNat ≤ (s.g b).toNat ∧ t.core.minLots = (s.g a).toNat / 8 ∧
          t.core.maxLots = (s.g b).toNat / 8 ∧ t.g d = (if d = 0 then 0 else t.core.csr.vlen.setWidth 64) ∧
          (∀ r, r ≠ d → t.g r = s.g r) ∧ t.pc = s.pc + 4 ∧ t = s.noteDecision.setCore t.core) ∧
      (∃ t, exec (.vreneg d) s = .next t ∧ t.g d = (if d = 0 then 0 else t.core.csr.vlen.setWidth 64) ∧
        (∀ r, r ≠ d → t.g r = s.g r) ∧ t.pc = s.pc + 4 ∧ t = s.noteDecision.setCore t.core ∧
        ((∃ e ∈ (s.cl q).blocked, e.team ≠ k) → lanes ≤ 8 → t.core.csr.vlen.toNat = 8 * min lanes s.core.minLots))

/-- Spec/08 R172, R178 and R186: the only blocked acquire of a cluster is granted when the banker allows it: its pages
are mapped and its core goes on. The oldest zeroing ends: its page reads as zero, every other byte is as before. The
oldest relocation under way moves a page's bytes to its target, still free, neither page being zeroed; that the target
is fixed at the start is the model's choice (notes/assumptions/61). -/
def Obligations.ClaimUnitEventsComplete : Prop :=
  ∀ (s : State) (q : ClusterId) (b : Blocked) (w : Word) (x : Team) (p f : Nat) (us : List ZeroUnit)
      (ps : List (Nat × Option Nat)),
    let r := Request.of w
    ((s.cl q).blocked = [b] → b.kind = .units w → r.cls = 1 → s.team q b.team = some x →
      r.overlaps x = false → (∀ max, x.claim = some max → overClaim (s.allocation q b.team) r.counts max = none) →
      s.bankerDecide q b.team b.req = 0 →
      ∃ t, exec (.blockedListRedecide q) s = .next t ∧ (t.cl q).blocked = [] ∧
        t.team q b.team = some { x with pages := x.pages ++ pairUp r.base ((s.cl q).takePages r.count) } ∧
        (t.coreAt (coreOf q b.core)).wait = .ready ∧
        (t.coreAt (coreOf q b.core)).pc = (s.coreAt (coreOf q b.core)).pc + 4) ∧
    ((s.cl q).zeroing = .page p :: us → Memory.wf (s.cl q).spm = true →
      ∃ t, exec (.zeroingDone q) s = .next t ∧ (t.cl q).zeroing = us ∧
        (∀ j, Memory.read (t.cl q).spm j =
          if p * 16384 ≤ j ∧ j < (p + 1) * 16384 then 0 else Memory.read (s.cl q).spm j) ∧
        (t.cl q).acc = (s.cl q).acc ∧ (∀ e, e ≠ q → t.cl e = s.cl e) ∧ t.cores = s.cores ∧ t.mem = s.mem) ∧
    ((s.cl q).reloc = (p, some f) :: ps → (s.cl q).pageFree f = true → f ≠ p → .page f ∉ (s.cl q).zeroing →
      .page p ∉ (s.cl q).zeroing → Memory.wf (s.cl q).spm = true →
      ∃ t, exec (.pageRelocation q) s = .next t ∧ (∀ e ∈ (t.cl q).reloc, e.1 ≠ p) ∧
        (∀ j, j < 16384 → Memory.read (t.cl q).spm (f * 16384 + j) = Memory.read (s.cl q).spm (p * 16384 + j)) ∧
        (t.cl q).acc = (s.cl q).acc ∧ (∀ e, e ≠ q → t.cl e = s.cl e) ∧ t.cores = s.cores ∧ t.mem = s.mem)

/-! ## Barriers (spec/09) -/

/-- The current core, a member of team slot `k` whose team was `x`, completed an instruction on barriers: the team's
bindings are `bars`; all else of the team, the core's registers and every byte of memory are as before. -/
structure BarsAfter (s t : State) (k : Slot) (x : Team) (bars : List Barrier) : Prop where
  team : t.team (clusterOf s.cur) k = some { x with bars := bars }
  core : t.core = s.core.completed (s.pc + 4) s.core.regs s.core.csr
  memory : SameMemory s t

/-- Spec/09 R207, R209 and R211: bar.def unbinds or binds an id that has no arrival pending, to a declared group or to the
team; bar.arrive, bar.sync and bar.drop of a participant that has neither dropped nor arrived, its fence complete, count
its arrival and complete; bar.drop of a core whose arrival is pending only adds it to the dropped. Spec/09 R209, R210 and
R212: bar.wait of an id at which its core has no arrival pending completes and writes nothing; bar.max arrives with its
contribution and waits, and once released writes the released max to f[d] and completes. The phase of a TEAM-bound id that
every participant has reached is released, with the maximum of its contributions or minus infinity, and every core that
waits there goes on, a bar.max with that maximum in its register, unless a wait of the phase ran out in that cycle; a wait
whose time has run out traps with the missing participants. Spec/09 R213: an operation of a core waits while one of a
higher CORENO of its cluster has been decided in that cycle (the order's reading is notes/assumptions/1). Four clauses are
the model's choice, not the spec's: that bar.sync's first word arrives and completes, its wait left to the word behind it
(notes/assumptions/34); that a NaN among the contributions, also a lone one, gives the canonical NaN
(notes/assumptions/15); that bar.def with MEMBERS of absent cores alone binds no participant (`bindParts`); and that any
later bar.max of a core whose earlier one has taken no result is its re-execution (`maxDue`), both of
notes/assumptions/64. -/
def Obligations.BarriersComplete : Prop :=
  (∀ (s : State) (d a b : BitVec 5), s.core.barWait = none → s.barLate = true →
    ∀ i, i = .barDef a b ∨ i = .barArrive a ∨ i = .barSync a ∨ i = .barDrop a ∨ i = .barWait a ∨ i = .barMax d a b →
      exec i s = .next s) ∧
  (∀ (s : State) (a b : BitVec 5) (k : Slot) (x : Team),
    let id := s.barId a
    let n := s.core.csr.tcore.toNat
    let w := s.g b
    let group := if w.getLsbD 28 then some ((w >>> 16).setWidth 8) else none
    let rest := x.bars.filter (·.id != id)
    s.core.slot = some k → s.team (clusterOf s.cur) k = some x → s.core.barWait = none → s.barLate = false →
      ((∀ y, x.bar id = some y → y.arrived = 0) →
        (w.getLsbD 31 = true → ∃ t, exec (.barDef a b) s = .next t ∧ BarsAfter s t k x rest) ∧
        (w.getLsbD 31 = false → (∀ g, group = some g → (s.cl (clusterOf s.cur)).groupEntry k g ≠ none) →
          ∃ t, exec (.barDef a b) s = .next t ∧
            BarsAfter s t k x (newBarrier id group (bindParts w s.core.csr.tsize.toNat) :: rest))) ∧
      (∀ y, x.bar id = some y → inSet y.parts n = true → inSet y.dropped n = false → inSet y.arrived n = false →
        s.barFenced k y = true →
        (∃ t, exec (.barArrive a) s = .next t ∧ BarsAfter s t k x ({ y with arrived := y.arrived ||| 1#8 <<< n } :: rest)) ∧
        (∃ t, exec (.barSync a) s = .next t ∧
          t.team (clusterOf s.cur) k = some { x with bars := { y with arrived := y.arrived ||| 1#8 <<< n } :: rest } ∧
          t.core = { s.core.completed (s.pc + 4) s.core.regs s.core.csr with sync := some (id, false) } ∧ SameMemory s t) ∧
        (∃ t, exec (.barDrop a) s = .next t ∧
          BarsAfter s t k x ({ y with arrived := y.arrived ||| 1#8 <<< n, dropped := y.dropped ||| 1#8 <<< n } :: rest))) ∧
      (∀ y, x.bar id = some y → inSet y.arrived n = true → inSet y.dropped n = false →
        ∃ t, exec (.barDrop a) s = .next t ∧ BarsAfter s t k x ({ y with dropped := y.dropped ||| 1#8 <<< n } :: rest))) ∧
  (∀ (s : State) (d a b : BitVec 5) (k : Slot) (x : Team) (y : Barrier),
    let id := s.barId a
    let n := s.core.csr.tcore.toNat
    let mine := s.bar (clusterOf s.cur) k id
    let z := if s.core.barWait.isSome then s else s.noteBar
    s.core.slot = some k → s.team (clusterOf s.cur) k = some x → mine = some y →
      (s.core.barWait = none → s.barLate = false) →
      (inSet y.arrived n = false → ∃ t, exec (.barWait a) s = .next t ∧ WroteNothing z t (s.pc + 4)) ∧
      (inSet y.maxDue n = false → inSet y.parts n = true → inSet y.dropped n = false → inSet y.arrived n = false →
        s.barFenced k y = true →
        ∃ t, exec (.barMax d a b) s = .next t ∧ t.pc = s.pc ∧ t.core.barWait = some ⟨id, s.now, some d⟩ ∧
          t.core.regs = s.core.regs ∧ t.bar (clusterOf s.cur) k id = some { y with
            arrived := y.arrived ||| 1#8 <<< n, maxDue := y.maxDue ||| 1#8 <<< n,
            contrib := some (joinMax y.contrib ((s.f b).setWidth 32)) } ∧ SameMemory s t) ∧
      (inSet y.maxDue n = true → inSet y.arrived n = false →
        ∃ t, exec (.barMax d a b) s = .next t ∧ t.f d = y.relMax.setWidth 64 ∧ (∀ r, r ≠ d → t.f r = s.f r) ∧
          t.core = s.core.completed (s.pc + 4) { s.core.regs with f := t.core.regs.f } s.core.csr ∧
          t.bar (clusterOf s.cur) k id = some { y with maxDue := y.maxDue &&& ~~~(1#8 <<< n) } ∧ SameMemory s t) ∧
      (y.group = none → y.parts &&& ~~~y.dropped &&& ~~~y.arrived = 0 → y.arrived ≠ 0 →
        y.expired ≠ some s.now →
        ∃ t z, exec (.barrierRelease (clusterOf s.cur) k id) s = .next t ∧ t.bar (clusterOf s.cur) k id = some z ∧
          z = { y with arrived := 0, phase := y.phase + 1, contrib := none, maxDue := z.maxDue,
                       relMax := ((y.contrib.map (joinMax none)).getD 0xFF800000) } ∧ SameMemory s t ∧
          ∀ e ∈ x.cores, ∀ wt, let c := coreOf (clusterOf s.cur) e
            (s.coreAt c).slot = some k → (s.coreAt c).barWait = some wt → wt.id = id → (t.coreAt c).pc = (s.coreAt c).pc + 4 ∧
              (t.coreAt c).wait = .ready ∧ (t.coreAt c).barWait = none ∧
              ∀ r, wt.dst = some r → (t.coreAt c).readF r = z.relMax.setWidth 64) ∧
      (∀ start dst, s.core.barWait = some ⟨id, start, dst⟩ → y.group = none → inSet y.arrived n = true →
        start + max s.core.csr.bto.toNat 1 ≤ s.now → s.core.parked = false → s.core.csr.kstate.intrap = false →
        ∃ t, exec (.barrierTimeout s.cur) s = .next t ∧
          Trapped (s.noteExpiry (clusterOf s.cur) k y) t 0x90 ((y.parts &&& ~~~y.dropped &&& ~~~y.arrived).setWidth 64)))

/-! ## Vector instructions (spec/12, spec/13) -/

/-- Of a vector instruction with these source streams and this destination: the core's earlier vector instruction has
retired and its scratchpad stores are applied, VLEN is not 0, every stream is aligned, and no command covers a lane word
of the accumulators that it reads or writes (R57, R225, R226, R233). -/
structure MayIssue (s : State) (srcs : List Stream) (dst : Option Stream) : Prop where
  drained : s.core.vq = []
  stored : s.core.storesDone .spm = true
  lanes : s.vlen ≠ 0
  aligned : ∀ x ∈ srcs ++ dst.toList, ptrAddr x.1 % 4 = 0
  uncovered : ∀ x ∈ srcs ++ dst.toList, ptrSpace x.1 = .acc → ∀ o ∈ streamOffs x.1 x.2, s.covered s.cur o = false

/-- The vector instruction of `s`, its operands read (which leaves `u`), has issued as `v`: the core goes on, and only
retirement will write. Every pointer of `named` will be stepped, once (R227, R230). -/
structure VecIssued (s u t : State) (v : PendVec) (named : List (BitVec 4)) : Prop where
  core : t.core = { u.core with
    vq := u.core.vq ++ [v], pc := u.core.pc + 4, sync := none, csr := { u.core.csr with mprog := 0 } }
  rest : t = u.setCore t.core
  pc : v.pc = s.pc
  steps : v.steps.Nodup ∧ ∀ x, x ∈ v.steps ↔ x ∈ named

/-- What `v` will write of a destination stream of VLEN lanes (R232, R241): in an active lane, the word whose element
`i`, of `w` bits, is `res` of lane and element; in a lane that is not active zero under the zero policy, else nothing;
and nothing else. -/
structure LanesWritten (s : State) (v : PendVec) (dst : Word) (m : BitVec 3) (zero : Bool) (w : Nat)
    (res : Nat → Nat → Nat) : Prop where
  active : ∀ j, j < s.vlen → s.active m j = true →
    ∃ r, wholeLane dst j r ∈ v.writes ∧ ∀ i, i < 32 / w → slice w i r = res j i % 2 ^ w
  masked : ∀ j, j < s.vlen → s.active m j = false → zero = true → wholeLane dst j 0 ∈ v.writes
  only : ∀ x ∈ v.writes, ∃ j r, j < s.vlen ∧ x = wholeLane dst j r ∧ (s.active m j = true ∨ (zero = true ∧ r = 0))

/-- `fl` holds exactly the flags that the results of the active ones of `n` elements raise (R35, R241). -/
def RaisesExactly (fl : Flags) (n : Nat) (act : Nat → Bool) (raised : Nat → Flags) : Prop :=
  ∀ b, fl.getLsbD b = true ↔ ∃ j, j < n ∧ act j = true ∧ (raised j).getLsbD b = true

/-- The element results of the vector major of floating point, with their flags (R243). -/
def vecFpResult (F : Fmt) (mode : RMode) (fn : Fin 9) (x y z : Nat) : FRes :=
  match fn with
  | 0 => F.add mode x y | 1 => F.sub mode x y | 2 => F.mul mode x y
  | 3 => F.fma mode false false x y z | 4 => F.fma mode true false x y z
  | 5 => F.minMax false x y | 6 => F.minMax true x y
  | 7 => F.signInject x false | 8 => F.signInject x (!F.signOf x)

/-- The element results of the vector majors of integers, of `w` bits (R244, R245). -/
def vecIntResult (w : Nat) (fn : Fin 19) (x y : Nat) : Nat :=
  let i := signedOf w x
  let j := signedOf w y
  let top : Int := 2 ^ (w - 1)
  match fn with
  | 0 => wrapOf w (i + j) | 1 => wrapOf w (i - j) | 2 => wrapOf w (i * j) | 3 => wrapOf w (i * j / 2 ^ w)
  | 4 => wrapOf w (min i j) | 5 => wrapOf w (max i j) | 6 => min x y | 7 => max x y
  | 8 => wrapOf w (max (-top) (min (top - 1) (i + j))) | 9 => wrapOf w (max (-top) (min (top - 1) (i - j)))
  | 10 => wrapOf w i.natAbs | 11 => x &&& y | 12 => x ||| y | 13 => x ^^^ y
  | 14 => x &&& (2 ^ w - 1 - y) | 15 => 2 ^ w - 1 - x | 16 => x * 2 ^ (y % w) | 17 => x / 2 ^ (y % w)
  | _ => wrapOf w (i / 2 ^ (y % w))

/-- Spec/13 R241, R243, R244, R245 and R255: a vector instruction of these families whose operands may be read issues,
and will write exactly the words of its active lanes whose elements are the results of its function (and zeros under the
zero policy); it will raise exactly the flags of the active lanes' elements, the integer families none. `l` holds the lane
words of a, b and d that were read. Shown for every function, in every format of its family, with a stream or a scalar
b. -/
def Obligations.VectorElementsComputed : Prop :=
  ∀ (s u : State) (f : BitVec 3) (d a b : BitVec 4) (m : BitVec 3) (p sc : Bool) (l : List (Nat × Nat × Nat)),
    let n := s.vlen
    let bs := if sc then [] else [b]
    let srcs := (s.p a, n) :: bs.map (fun x => (s.p x, n))
    let at' (j : Nat) := l.getD j (0, 0, 0)
    (∀ (F : Fmt) (fn : Fin 9),
      let unary := fn = 7 ∨ fn = 8
      let usesD := decide (fn = 3 ∨ fn = 4)
      let i : Instr := match fn with
        | 0 => .vaddFp f d a b m p sc | 1 => .vsubFp f d a b m p sc | 2 => .vmulFp f d a b m p sc
        | 3 => .vfma f d a b m p sc | 4 => .vfms f d a b m p sc | 5 => .vminFp f d a b m p sc
        | 6 => .vmaxFp f d a b m p sc | 7 => .vabsFp f d a m p | 8 => .vneg f d a m p
      elemOf f = .fp F → (unary → sc = true) → MayIssue s srcs (some (s.p d, n)) →
        readOperands s (s.p a) (if unary then .none else srcB b sc) (if usesD then some (s.p d) else none) n
          (s.active m) = .ok u l →
        let w := F.width
        let res (j i : Nat) := vecFpResult F s.rmode fn (slice w i (at' j).1) (slice w i (at' j).2.1) (slice w i (at' j).2.2)
        ∃ t v, exec i s = .next t ∧ VecIssued s u t v (a :: d :: bs) ∧ v.freg = none ∧ v.mreg = none ∧
          LanesWritten s v (s.p d) m p w (fun j i => (res j i).1) ∧
          RaisesExactly v.flags (n * (32 / w)) (fun e => s.active m (e / (32 / w))) fun e =>
            (res (e / (32 / w)) (e % (32 / w))).2) ∧
    (∀ (w : Nat) (fn : Fin 19),
      let unary := fn = 10 ∨ fn = 15
      let i : Instr := match fn with
        | 0 => .vaddInt f d a b m p sc | 1 => .vsubInt f d a b m p sc | 2 => .vmulInt f d a b m p sc
        | 3 => .vmulh f d a b m p sc | 4 => .vminInt f d a b m p sc | 5 => .vmaxInt f d a b m p sc
        | 6 => .vminu f d a b m p sc | 7 => .vmaxu f d a b m p sc | 8 => .vadds f d a b m p sc
        | 9 => .vsubs f d a b m p sc | 10 => .vabsInt f d a m p | 11 => .vand f d a b m p sc
        | 12 => .vor f d a b m p sc | 13 => .vxor f d a b m p sc | 14 => .vandn f d a b m p sc
        | 15 => .vnot f d a m p | 16 => .vsll f d a b m p sc | 17 => .vsrl f d a b m p sc | _ => .vsra f d a b m p sc
      elemOf f = .int w → (unary → sc = true) → MayIssue s srcs (some (s.p d, n)) →
        readOperands s (s.p a) (if unary then .none else srcB b sc) none n (s.active m) = .ok u l →
        ∃ t v, exec i s = .next t ∧ VecIssued s u t v (a :: d :: bs) ∧ v.freg = none ∧ v.mreg = none ∧ v.flags = 0 ∧
          LanesWritten s v (s.p d) m p w fun j i =>
            vecIntResult w fn (slice w i (at' j).1) (slice w i (at' j).2.1)) ∧
    (MayIssue s [(s.p a, n)] (some (s.p d, n)) →
      readOperands s (s.p a) .none none n (s.active m) = .ok u l →
      ∃ t v, exec (.vmov f d a m p) s = .next t ∧ VecIssued s u t v [a, d] ∧ v.flags = 0 ∧
        LanesWritten s v (s.p d) m p 32 fun j _ => (at' j).1) ∧
    (MayIssue s [] (some (s.p d, n)) →
      ∃ t v, exec (.vmovScalar f d b m p) s = .next t ∧ VecIssued s s t v [d] ∧ v.flags = 0 ∧
        LanesWritten s v (s.p d) m p 32 fun _ _ => (s.f (b.setWidth 5)).toNat % 2 ^ 32)

/-- Spec/13 R246, R247, R253: a compare issues and will write to its mask register, for every active lane, whether the
comparison holds for every element, and for a lane that is not active the old bit or 0 by policy; bits VLEN and up stay.
vsel will write every lane, from a where the mask bit is 1 and from b where it is 0. A reduction will write f[d] with
the pairwise tree over the elements, those of lanes that are not active replaced by the identity; a sum of integers is
the sum of the active elements modulo 2^32. Spec/13 R248 to R252: a conversion issues and will write, in their own bits,
exactly the target elements of the active lanes (and zeros under the zero policy); vpk3 will write the trit bytes of the
digits of five elements each, and vupk3 of legal trit bytes the elements of their digits. Each will raise exactly the
flags of the elements that it compares, converts, quantises or packs (R35). A byte above 242 makes vupk3
trap, with the lane of the lowest one, and nothing issues. That vsel reads a only in lanes whose mask bit is 1 and b only
where it is 0, R247 naming no such thing, is the model's choice (notes/assumptions/65, DESIGN CHOICE). -/
def Obligations.VectorComparesReductionsAndConversions : Prop :=
  (∀ (s u u' : State) (f c : BitVec 3) (d a b : BitVec 4) (m : BitVec 3) (p sc : Bool) (l : List (Nat × Nat × Nat))
    (la lb : List Nat),
    let n := s.vlen
    let bs := if sc then [] else [b]
    let e := elemOf f
    let srcs := (s.p a, n) :: bs.map (fun x => (s.p x, n))
    let elem (j i : Nat) := (slice e.width i (l.getD j (0, 0, 0)).1, slice e.width i (l.getD j (0, 0, 0)).2.1)
    n ≤ 64 →
    (∀ fn : Fin 4,
      let i : Instr := match fn with
        | 0 => .vceq f c a b m p sc | 1 => .vclt f c a b m p sc | 2 => .vcle f c a b m p sc | 3 => .vcne f c a b m p sc
      let holds (x y : Nat) : Bool := match e, fn with
        | .fp F, 0 => (F.feq x y).1 | .fp F, 1 => (F.flt x y).1 | .fp F, 2 => (F.fle x y).1 | .fp F, 3 => !(F.feq x y).1
        | .int w, 0 => decide (signedOf w x = signedOf w y) | .int w, 1 => decide (signedOf w x < signedOf w y)
        | .int w, 2 => decide (signedOf w x ≤ signedOf w y) | .int w, 3 => decide (signedOf w x ≠ signedOf w y)
      let raised (x y : Nat) : Flags := match e, fn with
        | .fp F, 0 => (F.feq x y).2 | .fp F, 1 => (F.flt x y).2 | .fp F, 2 => (F.fle x y).2 | .fp F, 3 => (F.feq x y).2
        | .int _, _ => 0
      MayIssue s srcs none → readOperands s (s.p a) (srcB b sc) none n (s.active m) = .ok u l →
        ∃ t v r, exec i s = .next t ∧ VecIssued s u t v (a :: bs) ∧ v.writes = [] ∧ v.mreg = some (c, r) ∧
          RaisesExactly v.flags (n * e.perWord) (fun k => s.active m (k / e.perWord)) (fun k =>
            raised (elem (k / e.perWord) (k % e.perWord)).1 (elem (k / e.perWord) (k % e.perWord)).2) ∧
          ∀ j, j < 64 → r.getLsbD j =
            if n ≤ j then (s.m c).getLsbD j
            else if s.active m j then (List.range e.perWord).all (fun i => holds (elem j i).1 (elem j i).2)
            else if p then false else (s.m c).getLsbD j) ∧
    (MayIssue s srcs (some (s.p d, n)) → readStream s (s.p a) n (s.active m) = .ok u la →
      (srcB b sc).read u n (fun j => !s.active m j) = .ok u' lb →
      ∃ t v, exec (.vsel f d a b m sc) s = .next t ∧ VecIssued s u' t v (a :: d :: bs) ∧ v.flags = 0 ∧
        v.writes = (List.range n).map fun j => wholeLane (s.p d) j (if s.active m j then la.getD j 0 else lb.getD j 0)) ∧
    (MayIssue s [(s.p a, n)] none → readStream s (s.p a) n (s.active m) = .ok u la →
      (∀ r : Red,
        let i : Instr := match r with | .sum => .vredsum f d a m | .max => .vredmax f d a m | .min => .vredmin f d a m
        let es := (List.range (n * e.perWord)).map fun k =>
          if s.active m (k / e.perWord) then widenElem e (elemAt e.width la k) else (r.identity e, 0)
        let res := treeReduce (r.op e) (n * e.perWord) es
        ∃ t v, exec i s = .next t ∧ VecIssued s u t v [a] ∧ v.writes = [] ∧ v.mreg = none ∧ v.flags = res.2 ∧
          v.freg = some (d.setWidth 5, .ofNat 32 res.1)) ∧
      (∀ w, e = .int w → ∃ t v x, exec (.vredsum f d a m) s = .next t ∧ t.core.vq = u.core.vq ++ [v] ∧
        v.freg = some (d.setWidth 5, x) ∧
        x = .ofInt 32 (((List.range (n * e.perWord)).map fun k =>
          if s.active m (k / e.perWord) then signedOf w (elemAt w la k) else 0).sum)))) ∧
  (∀ (s u : State) (f g : BitVec 3) (d a b : BitVec 4) (m : BitVec 3) (p : Bool) (la : List Nat),
    let n := s.vlen
    let E := elemOf f
    let nb := (n * E.perWord + 4) / 5
    let digit (i : Nat) : Nat := if i < n * E.perWord then (digitOf E (elemAt E.width la i)).1 else 0
    (∀ quant : Bool,
      let S := if quant then Elem.fp fp32 else elemOf g
      let e := min S.perWord E.perWord
      let reads := fun j => (List.range S.perWord).any fun i => s.active m ((j * S.perWord + i) / e)
      let i : Instr := if quant then .vquant f d a b m p else .vcvt f d a g m p
      let conv (x : Nat) : FRes := if quant then quantElem E (s.fcode (b.setWidth 5) false) x
        else convertElem S E s.rmode x
      MayIssue s [(s.p a, n * e / S.perWord)] (some (s.p d, n * e / E.perWord)) →
        readStream s (s.p a) (n * e / S.perWord) reads = .ok u la →
        ∃ t v, exec i s = .next t ∧ VecIssued s u t v [a, d] ∧ v.freg = none ∧ v.mreg = none ∧
          (∀ x, x ∈ v.writes ↔ ∃ k, k < n * e ∧
            ((s.active m (k / e) = true ∧ x = elemWrite (s.p d) E.width k (conv (elemAt S.width la k)).1) ∨
             (s.active m (k / e) = false ∧ p = true ∧ x = elemWrite (s.p d) E.width k 0))) ∧
          RaisesExactly v.flags (n * e) (fun k => s.active m (k / e)) fun k => (conv (elemAt S.width la k)).2) ∧
    (MayIssue s [(s.p a, n)] (some (s.p d, (nb + 3) / 4)) → readStream s (s.p a) n (fun _ => true) = .ok u la →
      ∃ t v, exec (.vpk3 f d a) s = .next t ∧ VecIssued s u t v [a, d] ∧ v.freg = none ∧ v.mreg = none ∧
        RaisesExactly v.flags (n * E.perWord) (fun _ => true) (fun k => (digitOf E (elemAt E.width la k)).2) ∧
        v.writes = (List.range nb).map fun y => elemWrite (s.p d) 8 y
          (digit (5 * y) + 3 * digit (5 * y + 1) + 9 * digit (5 * y + 2) + 27 * digit (5 * y + 3) + 81 * digit (5 * y + 4))) ∧
    (MayIssue s [(s.p a, (nb + 3) / 4)] (some (s.p d, n)) →
      readStream s (s.p a) ((nb + 3) / 4) (fun _ => true) = .ok u la →
      ((∀ y, y < nb → elemAt 8 la y < 243) →
        ∃ t v, exec (.vupk3 f d a) s = .next t ∧ VecIssued s u t v [a, d] ∧ v.flags = 0 ∧
          v.writes = (List.range (n * E.perWord)).map fun k => elemWrite (s.p d) E.width k
            (digitElem E (elemAt 8 la (k / 5) / 3 ^ (k % 5) % 3))) ∧
      (∀ y, y < nb → 243 ≤ elemAt 8 la y → (∀ z, z < y → elemAt 8 la z < 243) → s.core.csr.kstate.intrap = false →
        ∃ t, exec (.vupk3 f d a) s = .next t ∧ Trapped s t 0x60 (.ofNat 64 (5 * y / E.perWord)))))

/-- Spec/12 R235 and R238, spec/13 R254, R256, R257 and R258: a special function and vtopk enter their cluster's queue,
which has room, and their core waits with pc and registers as before; vgath and vscat issue, and will write the words at
base plus offset to the active lanes' words, or the lanes to those words, in lane order; vfence, and vdrain when no
command of the team covers an accumulator, complete once no vector instruction is left. That vtopk's list lies in
accumulator memory where pd has SPACE 1, with no check of coverage, is the model's choice (notes/assumptions/65). -/
def Obligations.VectorUnitsAndFences : Prop :=
  ∀ (s u u' : State) (f : BitVec 3) (d a b : BitVec 4) (m : BitVec 3) (p : Bool) (la lb lg : List Nat),
    let n := s.vlen
    let q := clusterOf s.cur
    let offs (base : Word) (bs : List Nat) : List (Option Nat) := (List.range n).map fun j =>
      if s.active m j then some ((ptrAddr base + bs.getD j 0) % 2 ^ 21) else none
    (∀ fn : Fin 5,
      let i : Instr := match fn with
        | 0 => .vexp2 d a m p | 1 => .vlog2 d a m p | 2 => .vrcp d a m p | 3 => .vrsqrt d a m p | 4 => .vtanh d a m p
      let g : Nat → FRes := match fn with
        | 0 => sfuExp2 | 1 => sfuLog2 | 2 => sfuRcp | 3 => sfuRsqrt | 4 => sfuTanh
      (s.cl q).sfu.length < 8 → u.cur = s.cur → MayIssue s [(s.p a, n)] (some (s.p d, n)) →
        readStream s (s.p a) n (s.active m) = .ok u la →
        ∃ t v, exec i s = .next t ∧ (t.cl q).sfu = (u.cl q).sfu ++ [⟨corenoOf s.cur, v⟩] ∧
          t.core = { u.core with wait := .unit, sync := none, csr := { u.core.csr with mprog := 0 } } ∧ v.pc = s.pc ∧ v.freg = none ∧
          v.mreg = none ∧ RaisesExactly v.flags n (s.active m) (fun j => (g (la.getD j 0)).2) ∧
          ∀ x, x ∈ v.writes ↔ ∃ j, j < n ∧
            ((s.active m j = true ∧ x = wholeLane (s.p d) j (g (la.getD j 0)).1) ∨
             (s.active m j = false ∧ p = true ∧ x = wholeLane (s.p d) j 0))) ∧
    (MayIssue s [(s.p b, n)] (some (s.p d, n)) → readStream s (s.p b) n (s.active m) = .ok u lb →
      (∀ o ∈ offs (s.p a) lb, ∀ x, o = some x → x % 4 = 0) →
      s.anyCovered (ptrSpace (s.p a)) ((offs (s.p a) lb).filterMap id) = false →
      readLanes u (ptrSpace (s.p a)) (offs (s.p a) lb) = .ok u' lg →
      ∃ t v, exec (.vgath f d a b m p) s = .next t ∧ VecIssued s u' t v [a, b, d] ∧ v.flags = 0 ∧
        ∀ x, x ∈ v.writes ↔ ∃ j, j < n ∧ ((s.active m j = true ∧ x = wholeLane (s.p d) j (lg.getD j 0)) ∨
          (s.active m j = false ∧ p = true ∧ x = wholeLane (s.p d) j 0))) ∧
    (MayIssue s [(s.p a, n), (s.p b, n)] none → readStream s (s.p a) n (s.active m) = .ok u la →
      readStream u (s.p b) n (s.active m) = .ok u' lb →
      ((∀ o ∈ offs (s.p d) lb, ∀ x, o = some x → x % 4 = 0) →
        s.anyCovered (ptrSpace (s.p d)) ((offs (s.p d) lb).filterMap id) = false →
        ∃ t v, exec (.vscat f d a b m) s = .next t ∧ VecIssued s u' t v [a, b, d] ∧ v.flags = 0 ∧
          v.writes = ((List.range n).filter (s.active m)).map fun j =>
            ⟨ptrSpace (s.p d), (ptrAddr (s.p d) + lb.getD j 0) % 2 ^ 21, -1, .ofNat 32 (la.getD j 0)⟩) ∧
      (ptrAddr (s.p d) % 8 = 0 → (s.cl q).topk.length < 8 → u'.cur = s.cur →
        ∃ t e, exec (.vtopk d a b m) s = .next t ∧ (t.cl q).topk = (u'.cl q).topk ++ [e] ∧ e.core = corenoOf s.cur ∧
          e.space = ptrSpace (s.p d) ∧ e.list = ptrAddr (s.p d) ∧
          t.core = { u'.core with wait := .unit, sync := none, csr := { u'.core.csr with mprog := 0 } } ∧
          e.pairs = ((List.range n).filter (s.active m)).map fun j =>
            (.ofNat 32 (la.getD j 0), .ofNat 32 (lb.getD j 0)))) ∧
    (s.core.vq = [] →
      (∃ t, exec .vfence s = .next t ∧ WroteNothing s t (s.pc + 4)) ∧
      ((∀ x ∈ s.teamCmds s.cur, s.cmdCoversAny s.core.slot x = false) →
        ∃ t, exec .vdrain s = .next t ∧ WroteNothing s t (s.pc + 4)))

/-! ## The ends of vector instructions (spec/12) -/

/-- Spec/12 R227, R230, R234, R236 and R239: the oldest vector instruction of a core retires, where it writes lane words
once the core's earlier stores are gone (R57): its lane words are written, each of its pointers steps once, its flags
are raised, and its f and mask registers are written; no other register changes, the counters among them, and of the
control registers only FFLAGS, INSTRET, for an enabled flag the park's, and VLEN at a renegotiation that waited (R188);
FFLAGS' flags of the cycle are noted (R36). A core that waited for it in a unit goes on; one in a wfi, which issues only
where no instruction that may raise an enabled flag is unretired (R234), waits on. A whole lane word of a mapped
granule that is not beyond correction receives its four bytes, and no other byte changes. The heads of the
special-function and top-k queues leave them and retire next, the latter once its core's earlier vector instructions have
retired (R231), and with the first k of the list's entries and the new pairs. R238 puts the list in the scratchpad: that a
list of SPACE 1 is read and written in accumulator memory, and that the offsets of a list past the end of its space wrap,
are the model's choice (notes/assumptions/65). -/
def Obligations.VectorRetirement : Prop :=
  ∀ (s u : State) (c : CoreId) (v : PendVec) (vs : List PendVec) (q : ClusterId),
    let k := u.coreAt c
    ((s.coreAt c).vq = v :: vs → v.writes = [] ∨ v.before = 0 → s.writeLanes c v.writes = some u → v.steps.Nodup →
      k.vq = v :: vs → (k.wait = .event → v.flags &&& k.csr.fenable = 0) →
      ∃ t, exec (.vectorRetire c) s = .next t ∧ (t.coreAt c).vq = vs ∧ t.clusters = u.clusters ∧
        (∀ x, (t.coreAt c).readP x = if x ∈ v.steps then ptrStepped (k.readP x) else k.readP x) ∧
        (∀ x, (t.coreAt c).readF x = (v.freg.elim (k.readF x) fun y => if y.1 = x then y.2.setWidth 64 else k.readF x)) ∧
        (∀ x, (t.coreAt c).readM x =
          (v.mreg.elim (k.readM x) fun y => if y.1 = x ∧ x ≠ 0 then y.2 else k.readM x)) ∧
        (t.coreAt c).regs.g = k.regs.g ∧ (t.coreAt c).regs.c = k.regs.c ∧
        (let y := (t.coreAt c).csr;
          y = { k.csr with fflags := y.fflags, instret := y.instret, vlen := y.vlen, parkinf := y.parkinf, setAt := y.setAt,
                           setFlags := y.setFlags, setFaults := y.setFaults,
                           kstate := { k.csr.kstate with park := y.kstate.park } } ∧
          (v.flags &&& k.csr.fenable = 0 → y.kstate = k.csr.kstate ∧ y.parkinf = k.csr.parkinf) ∧
          (k.reneg = false → y.vlen = k.csr.vlen)) ∧
        (t.coreAt c).csr.fflags = k.csr.fflags ||| v.flags ∧
        (t.coreAt c).csr.instret = k.csr.instret + 1 ∧
        (v.unit = true → (t.coreAt c).wait = .ready ∧ (t.coreAt c).pc = k.pc + 4) ∧
        (v.unit = false → (t.coreAt c).wait = k.wait ∧ (t.coreAt c).pc = k.pc) ∧
        ∀ e, e ≠ c → t.coreAt e = u.coreAt e) ∧
    (∀ w o, (s.coreAt c).vq = v :: vs → v.before = 0 → v.writes = [w] → w.mask = -1 → s.place c w.space w.off = .ok o →
      ((s.cl (clusterOf c)).bad w.space).contains (o / 32) = false →
      Memory.wf ((s.cl (clusterOf c)).space w.space) = true →
      ∃ t, exec (.vectorRetire c) s = .next t ∧
        (∀ j, Memory.read ((t.cl (clusterOf c)).space w.space) j =
          if o ≤ j ∧ j < o + 4 then (w.data >>> (8 * (j - o))).setWidth 8
          else Memory.read ((s.cl (clusterOf c)).space w.space) j) ∧
        (∀ sp, sp ≠ w.space → (t.cl (clusterOf c)).space sp = (s.cl (clusterOf c)).space sp) ∧
        (∀ e, e ≠ clusterOf c → t.cl e = s.cl e) ∧ t.mem = s.mem) ∧
    (∀ e es, (s.cl q).sfu = e :: es →
      ∃ t, exec (.sfuExecute q) s = .next t ∧ t.cl q = { s.cl q with sfu := es } ∧
        t.coreAt (coreOf q e.core) = { s.coreAt (coreOf q e.core) with
          wait := .retiring, vq := (s.coreAt (coreOf q e.core)).vq ++
            [{ e.vec with before := (s.coreAt (coreOf q e.core)).stores.length }] } ∧
        ∀ d, d ≠ coreOf q e.core → t.coreAt d = s.coreAt d) ∧
    (∀ e es hd u1 u2 l,
      let d := coreOf q e.core
      let n := min (hd % 512) 256
      (s.cl q).topk = e :: es → (s.coreAt d).vq = [] → s.merging q = false → s.readWords d e.space e.list 1 = some (u1, [hd]) →
        (∀ i, i ≤ 2 * n → s.granuleBad d e.space ((e.list + 4 * i) % 2 ^ 21) = false) → u1 = s →
        (s.setCl q { s.cl q with topk := es }).readWords d e.space (e.list + 8) (2 * n) = some (u2, l) →
        ∃ t w, exec (.topkMerge q) s = .next t ∧ (t.cl q).topk = es ∧ (t.coreAt d).wait = (u2.coreAt d).wait ∧
          (t.coreAt d).vq = (u2.coreAt d).vq ++ [w] ∧ w.steps = e.vec.steps ∧
          w.writes = pairWrites e.space (e.list + 8)
            ((sortPairs (toPairs l ++ e.pairs.filter fun x => !(fp32.unpack x.1.toNat).isNan)).take n))

/-! ## Array, copy and tier commands (spec/14, spec/15, spec/17) -/

/-- Spec/15 R284 to R295: an array command that may start, with its acquire performed and no earlier held command on its
boards, does its part. arr.mkboard of a board slot whose group holds data starts the conversion, with the width and
table of the command; of a slot that is no board's it faults with BOARD_STATE. arr.clrboard of a board that no command
uses starts its clearing, and of data it is finished. arr.mmt with its boards and scale tables found runs. arr.acmout
that is not blocked runs; of each granule of a row that it reads it keeps the codes in the output format until an output
granule or the row is whole, and then writes them (R64), and with every row done it is finished with the number of
outlying results. -/
def Obligations.ArrayCommandsComplete : Prop :=
  ∀ (s : State) (x : Cmd) (hd : Hdr) (slot : BitVec 3),
    let k := clusterOf x.core
    let b := slot.toNat
    s.cmd s.cmdRef = some x →
      (s.mayStart x = true → s.acquired x = true → s.behindHeld x [b] = false →
        (∀ (width : BitVec 13) (wscale : BitVec 21) (g : Nat), s.boardGroup x b = some g →
          ((s.cl k).group g).mode = .data → (s.cl k).groupBusy g = false →
          ∃ t y, exec (.arrMkboard hd slot width wscale) s = .next t ∧
            (t.cl k).group g = { (s.cl k).group g with
              mode := .converting, width := width.toNat, wscale := wscale.toNat, cmd := some x.seq } ∧
            (t.cl k).spm = (s.cl k).spm ∧ t.cmd x.seq = some y ∧ y.phase = .running ∧ y.place = .gone) ∧
        (∀ (width : BitVec 13) (wscale : BitVec 21), s.boardGroup x b = none →
          ∃ t y, exec (.arrMkboard hd slot width wscale) s = .next t ∧ t.cmd x.seq = some y ∧ y.phase = .finished ∧
            y.fault = some (0x64, .ofNat 64 b) ∧ t.clusters = s.clusters) ∧
        (∀ g, s.boardGroup x b = some g →
          (((s.cl k).group g).mode = .board → s.boardInUse x b = false →
            ∃ t y, exec (.arrClrboard hd slot) s = .next t ∧ (t.cl k).group g = { (s.cl k).group g with
              mode := .clearing, cmd := none } ∧ t.cmd x.seq = some y ∧ y.phase = .running) ∧
          (((s.cl k).group g).mode = .data →
            ∃ t y, exec (.arrClrboard hd slot) s = .next t ∧ t.clusters = s.clusters ∧ t.cmd x.seq = some y ∧
              y.phase = .finished ∧ y.fault = x.fault))) ∧
      (∀ (kchain accum : Bool) (rowptr stride ascale accbase : BitVec 21) (lead : BitVec 19) (m : BitVec 9)
          (fmt : BitVec 2) (mask : BitVec 8) (gs : List Nat) (u u' : State) (as ws : List Nat),
        s.mayStart x = true → s.acquired x = true → x.phase ≠ .stopped → s.behindHeld x (maskBits mask) = false →
        takeBoards s x (maskBits mask) = .ok gs → (∀ g ∈ gs, ∀ g' ∈ gs, ((s.cl k).group g).width = ((s.cl k).group g').width) →
        engReads s x.core .spm 4 (ascaleOffs ascale.toNat (if kchain then gs.length else 1) m.toNat) = .ok u as →
        engReads u x.core .spm 4 (gs.flatMap fun g => ((s.cl k).group g).scaleOffs) = .ok u' ws →
        u'.cmd x.seq = some x → gs ≠ [] → x.row < m.toNat →
        ∃ t y, exec (.arrMmt hd kchain accum rowptr stride ascale accbase lead m fmt mask) s = .next t ∧
          t.cmd x.seq = some y ∧ y.phase = .running ∧ y.boards = mask ∧ y.ascales = as.map (.ofNat 32 ·) ∧
          y.wscales = ws.map (.ofNat 32 ·) ∧ t.clusters = u'.clusters) ∧
      (∀ (clear scl : Bool) (accbase : BitVec 21) (lead : BitVec 19) (dst dstride : BitVec 21) (cols : BitVec 16)
          (rows : BitVec 9) (rscale : BitVec 32) (ofmt : BitVec 2),
        let i : Instr := .arrAcmout hd clear scl accbase lead dst dstride cols rows rscale ofmt
        let F := if ofmt = 1 then bf16 else if ofmt = 2 then e4m3 else fp32
        let off := accbase.toNat + 4 * (x.row * lead.toNat + 8 * x.byte)
        (x.phase = .queued → s.mayStart x = true → s.acquired x = true → x.row = 0 → rows ≠ 0 → cols ≠ 0 →
          acmoutBlocked s x accbase.toNat lead.toNat cols.toNat rows.toNat = false →
          ∃ t y, exec i s = .next t ∧ t.cmd x.seq = some y ∧ y.phase = .running ∧ t.clusters = s.clusters) ∧
        (x.phase = .running → x.row = rows.toNat →
          ∃ t y, exec i s = .next t ∧ t.cmd x.seq = some y ∧ y.phase = .finished ∧ y.result = .ofNat 64 x.count ∧
            t.clusters = s.clusters) ∧
        (∀ u v, x.phase = .running → x.row ≠ rows.toNat → s.acmoutGoes x = true → clear = false →
          engRead s x.core .acc off 32 = .ok u v → u.cmd x.seq = some x →
          let size := F.width / 8
          let codes := x.fetched ++ (List.range 8).map fun e =>
            (acmoutValue F (if scl then some rscale.toNat else none) (v / 2 ^ (32 * e) % 2 ^ 32)).1
          let full := 8 * (x.byte + 1) * size % 32 = 0 ∨ cols.toNat ≤ 8 * (x.byte + 1)
          let on (y : Cmd) := (y.row, y.byte) =
            if cols.toNat ≤ 8 * (x.byte + 1) then (x.row + 1, 0) else (x.row, x.byte + 1)
          (¬full → ∃ t y, exec i s = .next t ∧ t.clusters = u.clusters ∧ t.cores = u.cores ∧ t.cmd x.seq = some y ∧
            y.fetched = codes ∧ on y) ∧
          (∀ w, full → w.cmd x.seq = some x →
            u.writeTeam x.core .spm ((dst.toNat + x.row * dstride.toNat + (8 * x.byte - x.fetched.length) * size) % 2 ^ 21)
              (codes.flatMap (leBytes size)) = some w →
            ∃ t y, exec i s = .next t ∧ t.clusters = w.clusters ∧ t.cores = w.cores ∧ t.cmd x.seq = some y ∧
              y.fetched = [] ∧ on y)))

/-- Spec/14 R261 to R274 and spec/03 R61 to R63: a conversion of legal trit bytes ends with its group a board and its
command finished, one that meets an illegal byte with its group data again and TRIT_BYTE_ILLEGAL at the lowest such
byte; a clearing ends with its group data. A granted row queues a drain beat for every eight columns, and the command is
one row further. The oldest drain beat writes its accumulators and no other byte of accumulator memory. A finished
command whose writes are performed, and that no stop of its team saves (an arr.mmt with every row granted, R277; which of
several it saves is the model's choice: notes/assumptions/76), is gone, its counter one lower, its core woken, its fault
recorded in EFAULT, and its reply in the register that waits for it. -/
def Obligations.ArrayEventsComplete : Prop :=
  ∀ (s : State) (k : ClusterId) (g : Slot) (x : Cmd),
    let grp := (s.cl k).group g.val
    (grp.mode = .converting → grp.cmd = some x.seq → s.cmd x.seq = some x →
      (illegalTrit (s.cl k).spm g.val grp.width = none →
        ∃ t y, exec (.boardConversionDone k g) s = .next t ∧
          (t.cl k).group g.val = { grp with mode := .board, cmd := none } ∧ (t.cl k).spm = (s.cl k).spm ∧
          t.cmd x.seq = some y ∧ y.phase = .finished ∧ y.fault = x.fault) ∧
      (∀ o, o < 64 * grp.width → 243 ≤ (Memory.read (s.cl k).spm (g.val * 262144 + o)).toNat →
        (∀ o', o' < o → (Memory.read (s.cl k).spm (g.val * 262144 + o')).toNat < 243) →
        Memory.wf (s.cl k).spm = true →
        ∃ t y, exec (.boardConversionDone k g) s = .next t ∧ ((t.cl k).group g.val).mode = .data ∧
          (t.cl k).spm = (s.cl k).spm ∧ t.cmd x.seq = some y ∧ y.phase = .finished ∧
          y.fault = some (0x60, .ofNat 64 o))) ∧
    (grp.mode = .clearing → s.clears k g.val x = true → s.cmd x.seq = some x →
      ∃ t y, exec (.boardClearDone k g) s = .next t ∧
        (t.cl k).group g.val = { grp with mode := .data, width := 0, wscale := 0, cmd := none } ∧
        (t.cl k).spm = (s.cl k).spm ∧ t.cmd x.seq = some y ∧ y.phase = .finished) ∧
    (∀ mm n l u,
      let c := coreOf k n
      let gs := s.boardGroups x
      let job : RowJob := { cmd := x, mm := mm, row := x.row, gs := gs, width := x.width,
                            elems := rowElems mm.fmt (x.fetched ++ l) }
      s.throttled = false → (∀ n', n' ≠ n → s.eligible (coreOf k n') = none) → s.eligible c = some (x, mm) → x.core = c →
      s.cmd x.seq = some x → (s.coreAt c).credit ≠ 0 → badBoard (s.cl k) x.width (gs.filterMap id) = none →
      engReads ((s.granted k n).noteReleased x) c .spm 32 ((mm.rowOffs x.row gs.length).drop x.fetched.length) = .ok u l →
        ∃ t y, exec (.rowGrant k) s = .next t ∧ (t.cl k).drain = (u.cl k).drain ++ job.beats (u.cl k).spm ∧
          (t.coreAt c).credit = (s.coreAt c).credit - 1 ∧ (t.cl k).acc = (u.cl k).acc ∧ (t.cl k).spm = (u.cl k).spm ∧
          (u.cmd x.seq = some x → t.cmd x.seq = some y ∧ y.row = x.row + 1 ∧
            y.phase = if mm.m ≤ x.row + 1 then .finished else x.phase)) ∧
    (∀ b bs p v,
      (s.cl k).drain = b :: bs → s.cmd b.seq = some x → clusterOf x.core = k → s.place x.core .acc b.off = .ok p →
      (s.cl k).badAcc.contains (p / 32) = false → Memory.wf (s.cl k).acc = true →
      v = Memory.readNat (s.cl k).acc p 32 →
        let r := (applyDrains b.drains ((List.range 8).map fun i => v / 2 ^ (32 * i) % 2 ^ 32)).1
        ∃ t, exec (.drainBeat k) s = .next t ∧ (t.cl k).drain = bs ∧ (t.cl k).spm = (s.cl k).spm ∧
          ∀ j, Memory.read (t.cl k).acc j =
            if p ≤ j ∧ j < p + 4 * b.lanes then .ofNat 8 (r.getD ((j - p) / 4) 0 / 2 ^ (8 * ((j - p) % 4)))
            else Memory.read (s.cl k).acc j) ∧
    (s.cmd x.seq = some x → x.phase = .finished → s.released x = true → s.collTurn x = true →
      (s.goesOn x = true ∨ s.savesGranted x = false) →
      let w := s.coreAt x.core
      ∃ t, exec (.commandComplete x.seq) s = .next t ∧ t.cmds = s.cmds.filter (·.seq != x.seq) ∧
        (t.coreAt x.core).readC x.counter = (if w.readC x.counter = 0 then 0 else w.readC x.counter - 1) ∧
        (∀ c, c ≠ x.counter → (t.coreAt x.core).readC c = w.readC c) ∧ (t.coreAt x.core).wake = true ∧
        (t.coreAt x.core).csr.efault = (if x.fault.isSome then w.csr.efault ||| 1 <<< x.counter.toNat else w.csr.efault) ∧
        (∀ d, w.wait = .enqReply x.seq d →
          (t.coreAt x.core).readG d = (if d = 0 then 0 else if x.fault.isSome then -1 else x.result) ∧
          (t.coreAt x.core).pc = w.pc + 4 ∧ (t.coreAt x.core).wait = .ready) ∧
        ((∀ d, w.wait ≠ .enqReply x.seq d) → (t.coreAt x.core).regs.g = w.regs.g ∧ (t.coreAt x.core).pc = w.pc) ∧
        ∀ e, e ≠ x.core → t.coreAt e = s.coreAt e)

/-- Whether row `r` of a copy or fill writes the byte at an unwrapped address (R304). -/
def rowWrites (j : CopyJob) (r : Nat) (q : Int) : Bool :=
  let d := q - (j.dst + r * j.dstride)
  let d := if j.dacc then d else d % 2 ^ 48
  decide (0 ≤ d) && decide (d < j.rowBytes)

/-- The first address of the granule of an address. -/
def granuleBase (a : Int) : Int := a - a % 32

/-- The bytes of a granule, counted from its base, that rows from `r` on of a copy or fill write. -/
def rowsCover (j : CopyJob) (r : Nat) (base : Int) : List Nat :=
  (List.range 32).filter fun i => (List.range j.rows).any fun n => decide (r ≤ n) && rowWrites j n (base + i)

/-- Whether a row before row `r` writes into the granule of byte `b` of row `r`. -/
def SharedBefore (j : CopyJob) (r b : Nat) : Prop :=
  ∃ n i, n < r ∧ i < 32 ∧ rowWrites j n (granuleBase (j.dst + r * j.dstride + b) + (i : Nat)) = true

/-- Spec/17 R300 to R316: the copy engine's commands and events, and the tier manager's, complete. cpy.copy and cpy.fill
that may start run, or are finished when there is nothing to do. A running one, with no command before it in the round
robin that can be granted (R300), is granted its next granule: what was read, or of a fill its pattern, is outstanding
behind it for every row that writes the granule (R64), and the command goes on with the first later granule that no row
before writes, or has only writes left; the second granule of a whole line joins the first, whose write is one access
(R125). The oldest granule of a command that waits for no other one, if for TCM or the scratchpads, is
written there, and no other byte of that memory changes; one for translated space joins the queue on its way, of a gateway
or a host port, as a store does (R135, R308), or, with none on its way, its stack awake and its line free, is written at
its home, merged into a line that is in no error and under its seal, or in place of the line. cpy.pref runs, skips a page that is staged, counts one that is
absent, asks for the migration of one that lies in another tier, and after its last page is finished with its counts;
cpy.tierq is finished with the page's tier. A tier manager without a free frame gives the page up; with the page's
shootdown done it moves the page's bytes to the frame, records it, and counts it, nothing being on its way to the old
page any more (R66). The model's readings and choices, not the rules': a granule that several rows write is granted once,
at its first row and with the bytes of all; the first granule of a whole line waits for the second and is passed by; a
granted granule leaves through the queues on its way as a store does (notes/assumptions/68). -/
def Obligations.CopyCommandsComplete : Prop :=
  ∀ (s u : State) (x : Cmd) (hd : Hdr) (src dst : BitVec 48) (cvt sacc dacc : Bool) (len : BitVec 20) (rows : BitVec 12)
      (ss ds pattern : BitVec 32),
    let c := s.coreAt x.core
    (s.cmd s.cmdRef = some x → s.mayStart x = true → s.acquired x = true →
      ∀ i, i = .cpyCopy hd cvt src sacc dst dacc len rows ss ds ∨ i = .cpyFill hd pattern dst dacc len rows ds →
        ∃ t y, exec i s = .next t ∧ t.cmd x.seq = some y ∧ t.cores = s.cores ∧ t.clusters = s.clusters ∧ t.mem = s.mem ∧
          y.phase = (if len = 0 ∨ rows.toNat ≤ x.row then .finished else .running) ∧ y.row = x.row ∧ y.result =
          (if len = 0 ∨ rows.toNat ≤ x.row then 0 else x.result)) ∧
    (∀ j g, let a : Int := j.dst + x.row * j.dstride + x.byte
      let n := min (j.rowBytes - x.byte) (32 - (a % 32).toNat)
      let base := granuleBase a
      s.cmd x.seq = some x → x.phase = .running → s.goesOn x = true → s.outstanding (clusterOf x.core) < 64 →
      (∀ y ∈ s.cmds, y.seq ≠ x.seq → y.engine = .cpy → clusterOf y.core = clusterOf x.core →
        copyBefore (s.cl (clusterOf x.core)).copyLast y x = true → s.copyGrant y = none) →
      x.copyJob = some j →
      (grantBytes s x j = .ok u g → u.cmd x.seq = some x →
        ∃ t y, exec (.copyGranuleGrant x.seq) s = .next t ∧
          t.granules = u.granules.filter (fun (h : Granule) =>
            !(h.half && h.seq == x.seq && h.va.toNat / 64 == g.va.toNat / 64)) ++ [g] ∧ t.cmd x.seq = some y ∧
          t.mem = u.mem ∧ t.cores = u.cores ∧ (∀ e, e ≠ clusterOf x.core → t.cl e = u.cl e) ∧
          t.cl (clusterOf x.core) = { u.cl (clusterOf x.core) with copyLast := some ((corenoOf x.core).val, x.seq) } ∧
          (y.row < j.rows → y.phase = .running ∧ y.byte < j.rowBytes ∧ ¬SharedBefore j y.row y.byte) ∧
          (j.rows ≤ y.row → y.phase = .finished) ∧
          (∀ r b, r < j.rows → b < j.rowBytes → (x.row < r ∨ (r = x.row ∧ x.byte + n ≤ b)) →
            (r < y.row ∨ (r = y.row ∧ b < y.byte)) → SharedBefore j r b)) ∧
      (∀ p h, j.pattern = some p →
        s.granules.find? (fun (q : Granule) => q.half && q.seq == x.seq && q.va.toNat / 64 == winAddr a / 64) = some h →
        let bytes : List Byte := (rowsCover j x.row base).map fun (i : Nat) =>
          (p >>> (8 * ((base + (i : Int)) % 4).toNat)).setWidth 8
        ∃ g', grantBytes s x j = .ok s g' ∧ g'.whole = true ∧ g'.half = false ∧
          g'.cells.map (·.2) = if a % 64 < 32 then bytes ++ h.cells.map (·.2) else h.cells.map (·.2) ++ bytes) ∧
      (∀ p, j.pattern = some p → j.dacc = false → s.halfOf x a = none → 0x80000 ≤ winAddr a → winAddr a < 0xB0000 →
        ∃ h, grantBytes s x j = .ok s h ∧ h.space = .tcm ∧ h.cells = (rowsCover j x.row base).map fun i =>
          (winAddr base - 0x80000 + i, (p >>> (8 * ((base + i) % 4).toNat)).setWidth 8))) ∧
    (∀ (pre : List Granule) g gs o bs, let k := clusterOf g.core
      s.granules = pre ++ g :: gs → (∀ h ∈ pre, h.seq = g.seq → s.awaitsOther h = true) → s.awaitsOther g = false → g.cells = (List.range bs.length).map (fun i => (o + i, bs.getD i 0)) → bs ≠ [] →
      (g.space = .tcm → Memory.wf (s.coreAt g.core).tcm = true →
        ∃ t, exec (.copyGranuleWrite g.seq) s = .next t ∧ t.granules = pre ++ gs ∧
          (∀ q, Memory.read (t.coreAt g.core).tcm q =
            if o ≤ q ∧ q < o + bs.length then bs.getD (q - o) 0 else Memory.read (s.coreAt g.core).tcm q) ∧
          (∀ e, e ≠ g.core → t.coreAt e = s.coreAt e) ∧ t.clusters = s.clusters ∧ t.mem = s.mem) ∧
      (∀ p, g.space = .spm → s.place g.core .spm o = .ok p → (s.cl k).badSpm.contains (p / 32) = false →
        Memory.wf (s.cl k).spm = true →
        ∃ t, exec (.copyGranuleWrite g.seq) s = .next t ∧ t.granules = pre ++ gs ∧
          (∀ q, Memory.read (t.cl k).spm q =
            if p ≤ q ∧ q < p + bs.length then bs.getD (q - p) 0 else Memory.read (s.cl k).spm q) ∧
          (t.cl k).acc = (s.cl k).acc ∧ (∀ e, e ≠ k → t.cl e = s.cl e) ∧ t.cores = s.cores ∧ t.mem = s.mem) ∧
      (g.space = .phys →
        (∀ q, wayQueue g.core o = some q →
          ∃ t y, exec (.copyGranuleWrite g.seq) s = .next t ∧ t.granules = pre ++ gs ∧ t.transit = s.transit ++ [y] ∧ y.queue = q ∧
            y.item = .copy g (s.sealFor g.buf) ∧ t.mem = s.mem ∧ t.cores = s.cores ∧ t.clusters = s.clusters) ∧
        (wayQueue g.core o = none → s.stackQueue o = none → s.lineHeld o = false → Memory.wf s.mem = true →
          (g.whole = false → s.lineFault o (s.sealFor g.buf) = none) →
          ∃ t, exec (.copyGranuleWrite g.seq) s = .next t ∧ t.granules = pre ++ gs ∧ t.transit = s.transit ∧
            (∀ q, Memory.read t.mem q = if o ≤ q ∧ q < o + bs.length then bs.getD (q - o) 0 else Memory.read s.mem q) ∧
            t.cores = s.cores ∧ t.clusters = s.clusters))) ∧
    (∀ (addr : BitVec 48) (count : BitVec 16), let page := addr.toNat / 65536 + x.row
      let kind := (leafKind s c.csr.asid c.csr.ptbase page).2
      s.cmd s.cmdRef = some x →
      (x.phase = .queued → s.mayStart x = true → s.acquired x = true →
        ∃ t y, exec (.cpyPref hd addr count) s = .next t ∧ t.cmd x.seq = some y ∧ y.phase = .running ∧ t.mem = s.mem) ∧
      (x.phase = .running → (∀ m ∈ s.migrations, m.seq ≠ x.seq) →
        (count.toNat ≤ x.row →
          ∃ t y, exec (.cpyPref hd addr count) s = .next t ∧ t.cmd x.seq = some y ∧ y.phase = .finished ∧
            y.result = .ofNat 64 (x.unstaged % 2 ^ 16 * 2 ^ 48 + x.skipped % 2 ^ 16 * 2 ^ 32 + x.count % 2 ^ 32)) ∧
        (x.row < count.toNat → s.goesOn x = true → s.migrating c.csr.asid page = false → kind ≠ .wait →
          ∃ t y, exec (.cpyPref hd addr count) s = .next t ∧ t.cmd x.seq = some y ∧ y.row = x.row + 1 ∧
            (kind = .skip → y.skipped = x.skipped + 1 ∧ t.migrations = s.migrations) ∧
            (kind = .absent → y.unstaged = x.unstaged + 1 ∧ t.migrations = s.migrations) ∧
            (∀ l, kind = .migrate l → ∃ m, t.migrations = s.migrations ++ [m] ∧ m.vpage = page ∧ m.asid = c.csr.asid ∧
              m.phase = .queued ∧ m.seq = x.seq ∧ m.die = dieOfCore x.core)))) ∧
    (∀ (addr : BitVec 48) (e : TlbEntry), s.cmd s.cmdRef = some x → s.mayStart x = true → s.acquired x = true →
      lookup s (clusterOf x.core) c.csr.asid c.csr.ptbase addr.toNat = (u, .ok e) → u.cmd x.seq = some x →
      ∃ t y, exec (.cpyTierq hd addr) s = .next t ∧ t.cmd x.seq = some y ∧ y.phase = .finished ∧
        y.result = tierReply (s.tenant c.csr.asid).epoch
          (u.migrations.any fun m => m.phase != .queued && m.asid == c.csr.asid && m.vpage == addr.toNat / 65536) e) ∧
    (∀ (d : DieId) (m : Migration), let r := s.dies[d]
      s.migrations = [m] → m.die = d → s.cmd m.seq = some x →
      (m.phase = .queued → r.doneFull = false → s.shoots = [] → r.tmfhead = r.tmftail →
        s.homeBusy (r.tmfbase.toNat + 8 * r.tmftail.toNat) 8 = false →
        ∃ t y, exec (.tierMigration d) s = .next t ∧ t.migrations = [] ∧ t.cmd m.seq = some y ∧
          y.unstaged = x.unstaged + 1 ∧ t.mem = s.mem ∧ (t.dies[d]).tmfhead = r.tmfhead ∧ (t.dies[d]).tmftail = r.tmftail) ∧
      (m.phase = .copying → s.pageBusy m.oldPage = false → Memory.wf s.mem = true →
        (∀ a, a = 65536 * m.oldPage ∨ a = 65536 * m.newPage → s.stackQueue a = none) →
        s.homeBusy (r.tmdbase.toNat + 16 * r.tmdhead.toNat) 16 = false →
        let ring := r.tmdbase.toNat + 16 * r.tmdhead.toNat
        ∃ t y, exec (.tierMigration d) s = .next t ∧ t.migrations = [] ∧ t.cmd m.seq = some y ∧ y.count = x.count + 1 ∧
          (t.dies[d]).tmdhead = r.tmdhead + 1 ∧
          (∀ o, o < 65536 → ¬(ring ≤ m.newPage * 65536 + o ∧ m.newPage * 65536 + o < ring + 16) →
            Memory.read t.mem (m.newPage * 65536 + o) = Memory.read s.mem (m.oldPage * 65536 + o)) ∧
          (∀ a, a / 65536 ≠ m.newPage → ¬(ring ≤ a ∧ a < ring + 16) → Memory.read t.mem a = Memory.read s.mem a)))

/-! ## Collectives (spec/09) -/

/-- The left fold over ranks of the tiles of one offset, element by element (R200). -/
def tileReduced (op fmt : Nat) (l : List (List Byte)) : List Byte :=
  let w := if fmt = 1 then 2 else 4
  let elem (t : List Byte) (i : Nat) := leNat ((t.drop (w * i)).take w)
  let F := if fmt = 1 then bf16 else fp32
  let join (a b : Nat) : Nat :=
    if fmt = 2 then
      (if op = 0 then a + b else if op = 2 then (if signedOf 32 a < signedOf 32 b then b else a)
        else if signedOf 32 a < signedOf 32 b then a else b)
    else if op = 0 then (F.add .rne a b).1 else (F.minMax (decide (op = 2)) a b).1
  (List.range ((l.headD []).length / w)).flatMap fun i =>
    leBytes w (l.tail.foldl (fun a t => join a (elem t i) % 2 ^ (8 * w)) (elem (l.headD []) i))

/-- What the tile of rank `q` at an offset, beside those received before, makes a member's command write, and where in its
destination (R199): col.allgather and col.alltoall the tile in the block of its source, col.bcast the tile, a reduction
the fold once the tiles of every rank are there. -/
def tileGives (y : Cmd) (j : CollJob) (n q off : Nat) (bs : List Byte) : Option (Nat × List Byte) :=
  if j.opc = 3 ∨ j.opc = 5 then some (q * j.bytes + off, bs)
  else if j.opc = 6 then some (off, bs)
  else (gathered (y.got ++ [(q, off, bs)]) n off).map fun l => (off, tileReduced j.op j.fmt l)

/-- The destination bytes from `o` on, as many as `v` has, are mapped, each at its own place `P`, in no granule beyond
correction, and no granule of them overlaps the source (R48, R199, R281). -/
structure MayLand (s : State) (y : Cmd) (j : CollJob) (n r o : Nat) (v : List Byte) (P : Nat → Nat) : Prop where
  tile : v.length ≤ 256
  mapped : ∀ i, i < v.length → s.place y.core (collSpace j.dst) (collOff j.dst + o + i) = .ok (P i)
  apart : ∀ i i', i < v.length → i' < v.length → P i = P i' → i = i'
  good : ∀ i, i < v.length → ((s.cl (clusterOf y.core)).bad (collSpace j.dst)).contains (P i / 32) = false
  clear : ∀ i m, 0 < m → i + m ≤ v.length → j.undefinedAt n r (collOff j.dst + o + i) m = false
  canonical : Memory.wf ((s.cl (clusterOf y.core)).space (collSpace j.dst)) = true

/-- Exactly the bytes `v` are written, at `P`, and nothing else of any cluster, core or of memory changes. -/
structure Landed (s t : State) (y : Cmd) (j : CollJob) (v : List Byte) (P : Nat → Nat) : Prop where
  written : ∀ i, i < v.length → Memory.read ((t.cl (clusterOf y.core)).space (collSpace j.dst)) (P i) = v.getD i 0
  kept : ∀ a, (∀ i, i < v.length → P i ≠ a) → Memory.read ((t.cl (clusterOf y.core)).space (collSpace j.dst)) a =
    Memory.read ((s.cl (clusterOf y.core)).space (collSpace j.dst)) a
  spaces : ∀ sp, sp ≠ collSpace j.dst → (t.cl (clusterOf y.core)).space sp = (s.cl (clusterOf y.core)).space sp
  clusters : ∀ e, e ≠ clusterOf y.core → t.cl e = s.cl e
  rest : t.cores = s.cores ∧ t.mem = s.mem

/-- The command that was `y` has received a tile: it is counted, kept by a reduction, and the value that col.maxbar wrote
is its reply. -/
structure TileCounted (t : State) (y z : Cmd) (j : CollJob) (n q off : Nat) (bs : List Byte) : Prop where
  cmd : t.cmd y.seq = some z
  count : z.written = y.written + 1
  got : z.got = if j.opc = 4 ∨ j.opc = 8 then y.got ++ [(q, off, bs)] else y.got
  result : z.result = if j.opc = 8 then
    ((tileGives y j n q off bs).map fun w => BitVec.ofNat 64 (leNat w.2)).getD y.result else y.result

/-- Spec/09 R192 to R205: collective commands and their events complete. A declaration of a free group number that names
its own cluster enters the group table, with position 0 and the command's team; one of no members frees the team's own
entry and answers its discards. A data command of the declared turn takes the next position, records its own match, and
sends its match packet along the chain of the group's other ports; of an undeclared group it faults. When every member's
match is there and every command waits, the command is matched; where the parameters differ it faults. The barrier's
matched command sends, and receives its own tile, changing no memory. A packet for the current turn is recorded, for one
of the next seven it is held, for any other it is counted as discarded, and it goes on along its chain. A tile of the
current turn for a matched command is received: of col.allgather, col.alltoall and col.bcast its bytes are written at
their place of the destination, of col.redscat and col.maxbar the fold over ranks once the tile of every member is there,
and no other byte of any memory changes; so a member receives its own tile when its source is one tile (R199, R200). -/
def Obligations.CollectiveCommandsComplete : Prop :=
  ∀ (s : State) (x : Cmd) (hd : Hdr) (gid : BitVec 12) (k : ClusterId) (tm : Slot),
    let csr := (s.coreAt x.core).csr
    let gnum : BitVec 8 := (gid >>> 4).setWidth 8
    let turn : BitVec 4 := gid.setWidth 4
    clusterOf x.core = k → (s.coreAt x.core).slot = some tm →
      (∀ (mem : BitVec 128) (fab : BitVec 32) (i : Instr), i = .colDecl hd gid mem fab ∨ i = .colDeclT hd gid mem fab →
        s.cmd s.cmdRef = some x → s.mayStart x = true →
        (s.collEntry k csr.asid gnum = none → mem ≠ 0 →
          (s.namesSelf k mem fab = true → (s.cl k).coll.length < 64 →
            s.turnAborted csr.asid gnum turn (s.logicalId k).toNat = false →
            ∃ t y e, exec i s = .next t ∧ t.collEntry k csr.asid gnum = some e ∧ e.team = tm ∧ e.mem = mem ∧ e.fab = fab ∧
              e.turn = turn ∧ e.pos = 0 ∧ e.records = [] ∧ e.aborted = false ∧ t.cmd x.seq = some y ∧
              y.phase = .finished ∧ y.result = gid.setWidth 64 ∧ t.cores = s.cores ∧ t.mem = s.mem) ∧
          (s.namesSelf k mem fab = false →
            ∃ t y, exec i s = .next t ∧ t.clusters = s.clusters ∧ t.cmd x.seq = some y ∧
              y.fault = some (0x95, gid.setWidth 64))) ∧
        (∀ e, s.collEntry k csr.asid gnum = some e → e.team = tm → mem = 0 →
          ∃ t y, exec i s = .next t ∧ t.collEntry k csr.asid gnum = none ∧ t.cmd x.seq = some y ∧ y.phase = .finished ∧
            y.result = .ofNat 64 (e.discards % 2 ^ 32 * 2 ^ 32 + gid.toNat))) ∧
      (∀ (src dst : BitVec 22) (bytes : BitVec 21) (op fmt : BitVec 2) (root : BitVec 12) (fn : Fin 6) (j : CollJob),
        let i : Instr := match fn with
          | 0 => .colAllgather hd gid src dst bytes | 1 => .colRedscat hd gid src dst bytes op fmt
          | 2 => .colAlltoall hd gid src dst bytes | 3 => .colBcast hd gid src dst bytes root
          | 4 => .colBarrier hd gid | 5 => .colMaxbar hd gid src dst
        let me := (s.cl k).logical.getD 0
        s.cmd s.cmdRef = some x → s.mayStart x = true → decodeCommand .col x.word = .ok i → x.collJob = some j → j.gid = gid →
        (∀ e, (s.cl k).groupEntry tm gnum = some e → e.turn = turn → j.root < (s.entryMembers e).length → e.aborted = false →
          e.gnum = gnum → e.asid = csr.asid →
          (fn = 3 → (s.rankIn e me).getD 0 = root.toNat → src.toNat % 32 = 0) →
          ∃ t y e' r, exec i s = .next t ∧ t.cmd x.seq = some y ∧ y.phase = .running ∧ y.pos = e.pos ∧ y.turn = turn ∧
            t.collEntry k csr.asid gnum = some e' ∧ e'.pos = e.pos + 1 ∧ e'.records = e.records ++ [r] ∧ r.pos = e.pos ∧
            r.rank = (s.rankIn e me).getD 0 ∧ r.params = j.params (s.entryMembers e).length ∧
            (s.otherPorts e me = [] → t.packets = s.packets) ∧
            (∀ d ds, s.otherPorts e me = d :: ds → ∃ p, t.packets = s.packets ++ [p] ∧ p.src = me ∧ p.dst = d ∧
              p.chain = ds ∧ p.pos = e.pos ∧ p.turn = turn ∧ p.body = .matching r.params) ∧ t.mem = s.mem) ∧
        ((s.cl k).groupEntry tm gnum = none →
          ∃ t y, exec i s = .next t ∧ t.cmd x.seq = some y ∧ y.phase = .finished ∧ y.fault = some (0x95, gid.setWidth 64) ∧
            t.clusters = s.clusters ∧ t.packets = s.packets)) ∧
      (∀ (j : CollJob) (e : CollEntry), let n := (s.entryMembers e).length
        s.cmd x.seq = some x → x.phase = .running → x.sent = false → x.collJob = some j → j.gid = gid →
        (s.cl k).groupEntry tm gnum = some e → e.turn = x.turn →
        (x.matched = false → s.openBefore k e x.pos = false →
          (s.mismatched k e x.pos (j.params n) = false → s.hasAll k e x.pos = true → s.allMatched k e x.pos = true →
            (s.cmds.map (·.seq)).Nodup → s.collCmd k e x.pos = some x →
            (∃ m ∈ s.entryMembers e, s.peerEntry e m = some (k, e)) →
            ∃ t y, exec (.collectiveMatch x.seq) s = .next t ∧ t.cmd x.seq = some y ∧ y.matched = true ∧
              y.count = j.dueTiles n ∧ y.mixed = s.masksDiffer k e ∧ t.mem = s.mem ∧ t.clusters = s.clusters ∧ t.packets = s.packets) ∧
          (s.mismatched k e x.pos (j.params n) = true →
            ∃ t y, exec (.collectiveMatch x.seq) s = .next t ∧ t.cmd x.seq = some y ∧ y.phase = .finished ∧
              y.fault = some (0x95, gid.setWidth 64))) ∧
        (x.matched = true → j.opc = 7 → s.acquired x = true → s.sendsFirst x = false → x.mixed = false →
          ∃ t y, exec (.collectiveMatch x.seq) s = .next t ∧ t.cmd x.seq = some y ∧ y.sent = true ∧
            y.written = x.written + 1 ∧ t.clusters = s.clusters ∧ t.cores = s.cores ∧ t.mem = s.mem) ∧
        (∀ (u : State) (src bs : List Byte) (r : Nat),
          s.rankIn e (s.logicalId k) = some r → x.matched = true → j.opc ≠ 7 → (j.opc = 6 → r = j.root) →
          s.acquired x = true → s.sendsFirst x = false → x.mixed = false →
          readSrc s x j 0 (j.srcBytes n r) = .ok u src → u.cmd x.seq = some x → j.tilesFor r src = [(0, bs)] →
          (∀ o v P, tileGives x j n r 0 bs = some (o, v) → MayLand u x j n r o v P →
            (j.opc = 4 ∨ j.opc = 8 → bs.length % 4 = 0 ∧ ∀ b ∈ x.got, b.2.2.length % 4 = 0) →
            ∃ t z, exec (.collectiveMatch x.seq) s = .next t ∧ z.sent = true ∧ Landed u t x j v P ∧
              TileCounted t x z j n r 0 bs) ∧
          (tileGives x j n r 0 bs = none →
            ∃ t z, exec (.collectiveMatch x.seq) s = .next t ∧ z.sent = true ∧ t.clusters = u.clusters ∧
              t.cores = u.cores ∧ TileCounted t x z j n r 0 bs))) ∧
      (∀ (p : Packet) (ps : List Packet), s.packets = p :: ps → s.holderOf p.dst.toNat = some k →
        (p.isTile = true → p.hop ≠ p.dst → s.chainSlots p.dst < 32) →
        let go (t : State) := (p.chain = [] → t.packets = ps) ∧ t.cmds = s.cmds ∧ t.cores = s.cores ∧ t.mem = s.mem ∧
          ∀ d ds, p.chain = d :: ds → t.packets = { p with hop := p.dst, dst := d, chain := ds } :: ps
        (s.collEntry k p.asid p.gnum = none →
          ∃ t, exec (.collectivePacketArrival 0) s = .next t ∧ go t ∧ t.clusters = s.clusters) ∧
        (∀ e, s.collEntry k p.asid p.gnum = some e →
          (∀ q r, p.turn = e.turn → p.body = .matching q → s.rankIn e p.src = some r →
            ∃ t e', exec (.collectivePacketArrival 0) s = .next t ∧ go t ∧ t.collEntry k p.asid p.gnum = some e' ∧
              e'.records = e.records ++ [⟨p.pos, r, q⟩] ∧ e'.pos = e.pos) ∧
          (∀ (y : Cmd) (j : CollJob) (off q r : Nat) (bs : List Byte), let n := (s.entryMembers e).length
            p.turn = e.turn → p.body = .tile off bs → s.collCmd k e p.pos = some y → s.cmd y.seq = some y →
            y.matched = true → y.collJob = some j → j.opc ≠ 7 → s.rankIn e p.src = some q →
            s.rankIn e (s.logicalId k) = some r →
            (∀ o v P, tileGives y j n q off bs = some (o, v) → MayLand s y j n r o v P →
              (j.opc = 4 ∨ j.opc = 8 → bs.length % 4 = 0 ∧ ∀ b ∈ y.got, b.2.2.length % 4 = 0) →
              ∃ t z, exec (.collectivePacketArrival 0) s = .next t ∧ Landed s t y j v P ∧ TileCounted t y z j n q off bs) ∧
            (tileGives y j n q off bs = none →
              ∃ t z, exec (.collectivePacketArrival 0) s = .next t ∧ t.clusters = s.clusters ∧ t.cores = s.cores ∧
                t.mem = s.mem ∧ TileCounted t y z j n q off bs)) ∧
          (0 < (p.turn - e.turn).toNat → (p.turn - e.turn).toNat < 8 → (s.cl k).held.length < 16 →
            ∃ t, exec (.collectivePacketArrival 0) s = .next t ∧ go t ∧ t.collEntry k p.asid p.gnum = some e ∧
              (t.cl k).held = (s.cl k).held ++ [{ p with hop := p.dst, chain := [] }]) ∧
          (8 ≤ (p.turn - e.turn).toNat →
            ∃ t e', exec (.collectivePacketArrival 0) s = .next t ∧ go t ∧ t.collEntry k p.asid p.gnum = some e' ∧
              e'.discards = e.discards + 1 ∧ e'.records = e.records)))

/-! ## Launch (spec/22) -/

/-- Spec/22 R362 to R365: grid of a packet in TCM, its fence complete, completes. A packet that passes its checks
becomes the last grid of its queue, a child of the issuing grid, and g[d] receives its id; one that fails a check, or a
queue number above 31, writes bit 63 and the status and changes nothing else. Two clauses are the model's choice, not
the spec's (notes/assumptions/56): the order of the packet's checks, and the priority limit of 3 where the issuing grid
is unknown. -/
def Obligations.GridSubmitsAChild : Prop :=
  ∀ (s : State) (d a b : BitVec 5),
    let w := (s.g a).toNat
    let bs := childPacket (Memory.readBytes s.core.tcm (w - 0x80000) 64) s.core.csr.gridid
    let most := ((s.grid s.core.csr.gridid).map (·.pkt.prio)).getD 3
    w % 64 = 0 → 0x80000 ≤ w → w + 64 ≤ 0xB0000 → s.packageFenced s.cur = true →
      (31 < (s.g b).toNat → ∃ t, exec (.grid d a b) s = .next t ∧ WroteG s t d 0x8000000000000006) ∧
      (∀ n : Fin 32, (s.g b).toNat = n.val → let q : Fin 64 := ⟨32 + n.val, by omega⟩
        (s.packetStatus q bs false most ≠ 0 →
          ∃ t, exec (.grid d a b) s = .next t ∧ WroteG s t d (.ofNat 64 (2 ^ 63 + s.packetStatus q bs false most))) ∧
        (s.packetStatus q bs false most = 0 →
          ∃ t g, exec (.grid d a b) s = .next t ∧ t.grids = s.grids ++ [g] ∧ (s.grids.length < 2 ^ 32 → ∀ h ∈ s.grids, h.id ≠ g.id) ∧
            t.queues[q] = s.queues[q] ++ [g.id] ∧ (∀ r, r ≠ q → t.queues[r] = s.queues[r]) ∧ g.asid = s.core.csr.asid ∧
            g.pkt = packetOf bs ∧ g.pkt.parent = some s.core.csr.gridid ∧ g.placed = 0 ∧ t.nextGrid = g.id + 1 ∧
            t.g d = (if d = 0 then 0 else g.id.setWidth 64) ∧ (∀ r, r ≠ d → t.g r = s.g r) ∧
            t.core = s.core.completed (s.pc + 4) { s.core.regs with g := t.core.regs.g } s.core.csr ∧ SameMemory s t))

/-- Spec/22 R366 to R375: the launch unit's events. A decision about the only grid, served, places its next team on the
best cluster: its lowest usable cores start as TCORE 0 up, with the team's registers, its tenant's table among them (R385).
One that cannot place it marks its
victim, which is pre-empted, its threads asked. A starting team of a cluster that is not lost (R19), whose images are read
through that table, begins at its entry, the image in
the TCM of every thread, zeros behind it, and the handler in its 256 bytes from offset 1,024 (R317). A core of a victim
that has handed over is freed. A team that is over leaves its slot and cores and is counted in its grid, and a grid that is
over, its record written, is gone. The handler's bytes are free values (notes/assumptions/9); that a freed core's INSTRET is
recorded (notes/assumptions/37) and that the time of pre-emption is that of the request (notes/assumptions/22) are the
model's readings. -/
def Obligations.LaunchEventsComplete : Prop :=
  ∀ (s : State) (g : Grid) (k : ClusterId) (x : Team) (tm : Slot),
    (s.nextResume = none → s.grids = [g] → s.served g = true →
      (∀ u, let cores := (s.usableCores k g.id).take g.pkt.cores
        s.bestCluster g = some k → g.pkt.teams = g.placed + 1 → s.freeBank k (cores.headD 0) = some tm →
        s.placeOn g k = some u →
        ∃ t y, exec .schedulingDecision s = .next t ∧ t.team k tm = some y ∧ y.cores = cores ∧ y.grid = g.id ∧
          y.teamid = .ofNat 16 g.placed ∧ y.asid = g.asid ∧ y.status = .starting ∧ y.placedAt = s.now ∧
          t.grid g.id = some { g with placed := g.placed + 1 } ∧
          ∀ i n, cores[i]? = some n → let c := t.coreAt (coreOf k n)
            c.slot = some tm ∧ c.run = .starting ∧ c.csr.tcore = .ofNat 3 i ∧ c.csr.tsize = .ofNat 4 cores.length ∧
            c.csr.teamid = .ofNat 16 g.placed ∧ c.csr.gridid = g.id ∧ c.csr.asid = g.asid ∧ c.csr.ptbase = (s.tenant g.asid).pt ∧
            c.regs = Regs.reset) ∧
      (∀ v, s.bestCluster g = none → g.placed < g.pkt.teams → (∀ r ∈ s.reservations, r.grid ≠ g.id) →
        s.allEnded v.cluster v.slot v.team = false → s.markVictims g (s.victims g.pkt.prio) [] = some [v] → s.team v.cluster v.slot = some v.team →
        ∃ t, exec .schedulingDecision s = .next t ∧ t.team v.cluster v.slot = some { v.team with
            status := .preempting, preemptedAt := s.now } ∧
          (∀ e ∈ s.coresOf v.cluster v.slot v.team, (s.coreAt e.2).run ≠ .ended →
            (t.coreAt e.2).preempt = some g.pkt.prio) ∧ t.mem = s.mem)) ∧
    (∀ s1 s2 spm tcm, let pt := x.ptbase
      s.team k tm = some x → x.status = .starting → (s.cl k).status ≠ .lost → s.unitsReady k tm x = true → s.grid x.grid = some g → x.cores.Nodup →
      readImage s k x.asid pt (g.pkt.slen / 64 + 2) g.pkt.spmimg.toNat g.pkt.slen = .ok s1 spm →
      readImage s1 k x.asid pt (g.pkt.tlen / 64 + 2) g.pkt.image.toNat g.pkt.tlen = .ok s2 tcm →
      s2.team k tm = some x →
      ∃ t y, exec (.threadStart k tm) s = .next t ∧ t.team k tm = some y ∧ y = { x with status := .running } ∧
        ∀ n ∈ x.cores, (t.coreAt (coreOf k n)).run = .running ∧ (t.coreAt (coreOf k n)).pc = .ofNat 64 (0x80000 + g.pkt.entry) ∧
          (t.coreAt (coreOf k n)).itcm = (t.coreAt (coreOf k n)).tcm ∧
          ∀ j, Memory.read (t.coreAt (coreOf k n)).tcm j =
            if 1024 ≤ j ∧ j < 1280 then Config.handlerByte (j - 1024) else tcm.getD j 0) ∧
    (∀ c, clusterOf c = k → (s.coreAt c).slot = some tm → s.team k tm = some x → s.victimReady k tm x c = true →
      ∃ t, exec (.coreFreed c) s = .next t ∧ (t.coreAt c).slot = none ∧ (t.coreAt c).run = .idle ∧
        (t.coreAt c).csr.vlen = 0 ∧ (t.coreAt c).inbox = [] ∧
        ((∃ e, e ≠ c ∧ e ∈ (s.coresOf k tm x).map (·.2)) → (∀ e, e ≠ c → t.coreAt e = s.coreAt e) ∧
          ∃ y, t.team k tm = some y ∧ y.status = .preempting ∧
          y.lanes = x.lanes ++ [⟨(s.coreAt c).csr.tcore.toNat, (s.coreAt c).minLots, (s.coreAt c).maxLots,
            (s.coreAt c).lots, (s.coreAt c).csr.instret⟩])) ∧
    (s.team k tm = some x → s.teamOver k tm x = true → s.grid x.grid = some g →
      ∃ t h, exec (.teamEnd k tm) s = .next t ∧ t.team k tm = none ∧ t.grid x.grid = some h ∧ h.ended = g.ended + 1 ∧
        (∀ e ∈ s.coresOf k tm x, (t.coreAt e.2).slot = none ∧ (t.coreAt e.2).run = .idle) ∧
        (x.fatal = none → h.bad = g.bad ∧ h.status = g.status) ∧
        (∀ cause aux, x.fatal = some (cause, aux) → h.bad = g.bad + 1 ∧ (g.bad = 0 → h.status = cause ∧ h.aux = aux))) ∧
    (s.grid g.id = some g → s.gridOver g = true → (∀ t ∈ s.transit, t.item.asid ≠ some g.asid) →
      (g.pkt.compl = 0 →
        ∃ t, exec (.gridComplete g.id) s = .next t ∧ t.grids = s.grids.filter (·.id != g.id) ∧ t.mem = s.mem) ∧
      (∀ s1 s2 p q, g.pkt.compl ≠ 0 → g.abandoned = false →
        recordPlace s g.asid g.pkt.compl.toNat = (s1, .ok p) →
        recordPlace s1 g.asid (g.pkt.compl.toNat + 8) = (s2, .ok q) →
        ∃ t u, exec (.gridComplete g.id) s = .next t ∧ t.grids = s.grids.filter (·.id != g.id) ∧ t.mem = u.mem ∧
          u = (s2.writePart p.1 (leBytes 8 (2 ^ 63 + g.bad % 2 ^ 16 * 2 ^ 32 + g.status.toNat)) (s2.sealFor p.2)).writePart
            q.1 (leBytes 8 g.aux.toNat) (s2.sealFor q.2)))

/-! ## Host, registers and buffers (spec/23) -/

/-- The register space is up for a requester and it holds a semaphore. -/
def MayWrite (s : State) (who : Requester) (n : Fin 64) : Prop :=
  s.power = .running ∧ (∀ p, who = .port p → s.hostLinks[p] = true) ∧ s.hsem[n] = some who

/-- Spec/01 R20, spec/23 R377 to R382 and R386, spec/17 R309: writes of the package's registers by a requester that
holds the guarding semaphore. A tenant's table base, a die's TMSTAT (of a service core alone), FABID, PWRCAP within 400
to 1,800, SPCTL, BUFCTL with GO, and the end of its assignment with the buffer's new owner and version. Without the
semaphore a guarded write changes nothing but CFGREJ, which counts it, and, of a host port, its completion, a Completer
Abort; so does BUFCTL while BUSY. CFGREJ_CLEAR, AFFMISS_CLEAR and FRZCMD_WRITE need none. The model's choices: the die
whose CFGREJ counts (the register's, die 0 for the package's own, and that of the service core), that HP0 writes the
rows without a requester, and that a port's write of a tier manager's register is discarded although it holds the
semaphore (notes/assumptions/40); owner and version stay until BUSY clears (notes/assumptions/41). -/
def Obligations.ConfigurationWritesAct : Prop :=
  ∀ (s : State) (who : Requester) (v : Word) (a : BitVec 12) (d : DieId),
    let up := s.power = .running ∧ ∀ p, who = .port p → s.hostLinks[p] = true
    let hp0 := s.power = .running ∧ s.hostLinks[(0 : Fin 2)] = true
    let u := s.completing who
    let z := s.completing (.port 0)
    let one (e : DieId) : DieRegs := { s.dies[e] with
        cfgrej := if (s.dies[e]).cfgrej = 0xFFFFFFFF then 0xFFFFFFFF else (s.dies[e]).cfgrej + 1, rejAt := some s.now }
    let counted (t : State) (d : DieId) := t = { s with dies := t.dies, hostAbort := t.hostAbort } ∧
      (∀ p : Fin 2, t.hostAbort[p] = if who = .port p then true else s.hostAbort[p]) ∧
      ∀ e : DieId, (e = d ∨ (∃ c : ServiceId, who = .service c ∧ e.val = c.val / 4) → t.dies[e] = one e) ∧
        (e ≠ d → (∀ c : ServiceId, who = .service c → e.val ≠ c.val / 4) → t.dies[e] = s.dies[e])
    let ptw : Instr := .configRegisterWrite who (.ofNat 26 (0x310000 + 8 * a.toNat)) 8 v
    (MayWrite s who 2 →
      (∃ t, exec ptw s = .next t ∧ (t.tenant a) = { s.tenant a with pt := v &&& 0x0000FFFFFFFFF800 } ∧
        (∀ b, b ≠ a → t.tenant b = s.tenant b) ∧ t = { u with tenants := t.tenants }) ∧
      (s.bufctl.busy = true → ∃ t, exec (.bufctlGo who v) s = .next t ∧ t = { u with dies := t.dies } ∧
        t.dies[(0 : DieId)] = one 0 ∧ ∀ e : DieId, e ≠ 0 → t.dies[e] = s.dies[e]) ∧
      (s.bufctl.busy = false → (v >>> 52).setWidth 12 ∉ s.bufctl.dead →
        (s.buffer ((v >>> 52).setWidth 12)).version ≠ 0xFFFFFFFF →
        ∃ t, exec (.bufctlGo who v) s = .next t ∧ t = { u with bufctl := t.bufctl } ∧ t.bufctl.busy = true ∧
          t.bufctl.buf = (v >>> 52).setWidth 12 ∧ t.bufctl.asid = (v >>> 32).setWidth 12 ∧ t.bufctl.since = s.tick)) ∧
    (s.bufctl.busy = true → s.bufferBusy s.bufctl.buf s.bufctl.since = false →
      ∃ t, exec .bufferAssignDone s = .next t ∧ t.bufctl = { s.bufctl with busy := false } ∧
        t.buffer s.bufctl.buf = ⟨s.bufctl.asid, (s.buffer s.bufctl.buf).version + 1⟩ ∧
        (∀ b, b ≠ s.bufctl.buf → t.buffer b = s.buffer b) ∧ t = { s with bufctl := t.bufctl, buffers := t.buffers }) ∧
    (MayWrite s who 1 → (∃ c, who = .service c) →
      ∃ t, exec (.tmstatClear who d v) s = .next t ∧ t = { s with dies := t.dies } ∧
        t.dies[d] = { s.dies[d] with tmstat := (s.dies[d]).tmstat &&& ~~~v } ∧ ∀ e, e ≠ d → t.dies[e] = s.dies[e]) ∧
    (MayWrite s who 3 → (∀ x ∈ s.clusters.toList, ∀ e ∈ x.coll, e.fab = 0) →
      ∃ t, exec (.fabidWrite who v) s = .next t ∧ t = { u with fabid := v.setWidth 5 }) ∧
    (MayWrite s who 4 →
      (∃ t, exec (.pwrcapWrite who v) s = .next t ∧ t = { u with
        pwrcap := .ofNat 11 (max 400 (min 1800 (v.toNat % 2048))) }) ∧
      (∃ t, exec (.spctlWrite who v) s = .next t ∧ t.spctl = v.getLsbD 0 ∧ t.cores = s.cores ∧ t.mem = s.mem)) ∧
    (up → s.hsem[(2 : Fin 64)] ≠ some who →
      (∃ t, exec ptw s = .next t ∧ counted t 0) ∧ (∃ t, exec (.bufctlGo who v) s = .next t ∧ counted t 0)) ∧
    (up → s.hsem[(1 : Fin 64)] ≠ some who ∨ (∃ p, who = .port p) →
      ∃ t, exec (.tmstatClear who d v) s = .next t ∧ counted t d) ∧
    (hp0 →
      (v.getLsbD 63 = true → ∃ t, exec (.cfgrejClear d v) s = .next t ∧ t = { z with dies := t.dies } ∧
        t.dies[d] = { s.dies[d] with cfgrej := if (s.dies[d]).rejAt = some s.now then 1 else 0 } ∧ ∀ e, e ≠ d → t.dies[e] = s.dies[e]) ∧
      (∃ t, exec (.affmissClear v) s = .next t ∧ t = { z with affmiss := s.affmiss &&& ~~~v }) ∧
      (v.getLsbD 0 = true →
        ∃ t, exec (.frzcmdWrite v) s = .next t ∧ t = { z with freezeAsked := some (s.freezeAsked.getD s.now) }))

/-- Spec/23 R378, R379 and R384: the doorbell of an idle queue stores its address and sets BUSY, of a busy one sets LOST
alone; the check of the packet, no earlier doorbell of the other queue of its service core waiting, accepts it as the
last grid of its queue, or refuses it with its status, and BUSY clears. A take of a free semaphore gives it to its only
taker, of a held one changes nothing; a release by its holder frees it, by another changes nothing; a port whose link
goes down, and a service core that resets, lose all they hold. A host access in one line of an open window reads or
writes the line it translates to; through a closed one a read is poison and a write is discarded. The model's choices:
where a doorbell's address lies (notes/assumptions/25), that HP0 writes it (notes/assumptions/40), and that a window is
closed, too, while its link is down or the package does not run (notes/assumptions/58). The model's reading: the order of
the checks, which decides the status where several fail (`packetStatus`, notes/assumptions/56, DEDUCED). -/
def Obligations.HostEventsComplete : Prop :=
  ∀ (s : State) (q : BitVec 5) (v : Word) (n : BitVec 6) (who : Requester),
    let h := s.hostq[(⟨q.toNat, q.isLt⟩ : Fin 32)]
    let hsem (t : State) := t.hsem[(⟨n.toNat, n.isLt⟩ : Fin 64)]
    (s.power = .running → s.hostLinks[(0 : Fin 2)] = true →
      ∃ t, exec (.hostDoorbell q v) s = .next t ∧ t = { s.completing (.port 0) with hostq := t.hostq } ∧
        (∀ r : Fin 32, r.val ≠ q.toNat → t.hostq[r] = s.hostq[r]) ∧
        t.hostq[(⟨q.toNat, q.isLt⟩ : Fin 32)] = if h.busy then { h with lost := true }
          else { h with door := v &&& 0x0000FFFFFFFFFFC0, rung := s.tick, busy := true, lost := false }) ∧
    (∀ ok, h.busy = true → (∀ r : Fin 32, r.val ≠ q.toNat → r.val / 2 = q.toNat / 2 →
        (s.hostq[r]).busy = true → h.rung ≤ (s.hostq[r]).rung) →
      let pa := 2 ^ 47 + h.door.toNat % 2 ^ 47
      let bs := Memory.readBytes s.mem pa 64
      let st := if ok && !s.lineBad pa then s.packetStatus ⟨q.toNat, by omega⟩ bs true 3 else 2
      (st ≠ 0 → ∃ t, exec (.hostPacketCheck q ok) s = .next t ∧ t = { s with hostq := t.hostq } ∧
        t.hostq[(⟨q.toNat, q.isLt⟩ : Fin 32)] = { h with busy := false, refused := true, result := .ofNat 32 st }) ∧
      (st = 0 → ∃ t g, exec (.hostPacketCheck q ok) s = .next t ∧ t.grids = s.grids ++ [g] ∧ g.pkt = packetOf bs ∧
        g.asid = h.asid ∧ g.queue = q.toNat ∧
        t.queues[(⟨q.toNat, by omega⟩ : Fin 64)] = s.queues[(⟨q.toNat, by omega⟩ : Fin 64)] ++ [g.id] ∧
        t.hostq[(⟨q.toNat, q.isLt⟩ : Fin 32)] = { h with busy := false, refused := false, result := g.id } ∧
        t.cores = s.cores ∧ t.mem = s.mem)) ∧
    (s.answers who 0x100000 = true →
      (∀ r, ∃ t, exec (.hsemTake n [who]) s = .next t ∧
        (hsem s = none → hsem t = some who) ∧ (hsem s = some r → hsem t = some r) ∧ t.cores = s.cores ∧
        ∀ m : Fin 64, m.val ≠ n.toNat → t.hsem[m] = s.hsem[m]) ∧
      (∃ t, exec (.hsemRelease n who) s = .next t ∧ t = { s with hsem := t.hsem } ∧
        (hsem s = some who → hsem t = none) ∧ (hsem s ≠ some who → hsem t = hsem s) ∧
        ∀ m : Fin 64, m.val ≠ n.toNat → t.hsem[m] = s.hsem[m])) ∧
    (∀ p : Fin 2, ∃ t, exec (.hostLinkDown p) s = .next t ∧ t = { s with hsem := t.hsem, hostLinks := t.hostLinks } ∧
      t.hostLinks[p] = false ∧ (∀ r, r ≠ p → t.hostLinks[r] = s.hostLinks[r]) ∧
      ∀ m : Fin 64, t.hsem[m] = if s.hsem[m] = some (.port p) then none else s.hsem[m]) ∧
    (∀ c : ServiceId, ∃ t, exec (.serviceCoreReset c) s = .next t ∧ t = { s with hsem := t.hsem } ∧
      ∀ m : Fin 64, t.hsem[m] = if s.hsem[m] = some (.service c) then none else s.hsem[m]) ∧
    (∀ (p : Fin 2) (off : BitVec 40) (bytes : List Byte),
      (s.window p off = none →
        (∃ t, exec (.hostWindowRead p off bytes.length) s = .next t ∧ t = { s with hostReply := some none }) ∧
        (∃ t, exec (.hostWindowWrite p off bytes) s = .next t ∧ t = s)) ∧
      (∀ w va pa buf, s.window p off = some (w, va) → 0 < bytes.length → bytes.length + va % 64 ≤ 64 →
        let walked (a : Access) (z : State) := windowPlace s w.asid va a = (z, .ok (pa, buf)) ∧
          z.lineFault pa (z.sealFor buf) = none
        (∀ z, walked .read z →
          ∃ t, exec (.hostWindowRead p off bytes.length) s = .next t ∧ t.mem = s.mem ∧
            t.hostReply = some (some (Memory.readBytes s.mem pa bytes.length)) ∧ t.cores = s.cores) ∧
        (∀ z, walked .write z → Memory.wf s.mem = true →
          ∃ t, exec (.hostWindowWrite p off bytes) s = .next t ∧ t.cores = s.cores ∧
            ∀ a, Memory.read t.mem a =
              if pa ≤ a ∧ a < pa + bytes.length then bytes.getD (a - pa) 0 else Memory.read s.mem a)))

/-! ## Security, freeze, and resilience (spec/23) -/

/-- Spec/23 R388, R389, R393 and R394: a mailbox command acts, one that is under way or one of the holder of semaphore 2
while none is. Attest counts the report and leaves it in the buffer: its magic number, the nonce of the buffer before,
and the counter. Key load and key clear give an ASID without live teams its key set, or report why not; without the
semaphore, or while another command is under way, nothing happens but a count of CFGREJ. A freeze is asked for by FRZ_N,
an earlier request standing; its point, the next multiple of 16, stops every clock, drops the links, and leaves every
stack asleep. The Rannen port's codes capture the identity, the map address, the word at that address, zero before
freeze, or the bypass bit. The model's choices: the bypass bit is 0 (notes/assumptions/27); the report holds the counter
after its increment, status 2 is decided before the key is looked at, and the ASID is the low 12 bits of its field
(notes/assumptions/42); the count is at die 0's CFGREJ (notes/assumptions/40); whether a key unwraps, and to which key
set, is a free function of what the buffer holds (notes/assumptions/10). -/
def Obligations.SecurityAndFreezeAct : Prop :=
  ∀ (s : State) (who : Requester) (c : CoreId) (r : BitVec 5),
    let a := s.keyAsid
    let holds := s.answers who 0x400000 = true ∧ s.hsem[(2 : Fin 64)] = some who
    let acts (code : BitVec 2) := s.mailbox.busy = some code ∨ (holds ∧ s.mailbox.busy = none)
    let only (t : State) := t = { s with mailbox := t.mailbox, hostAbort := t.hostAbort } ∧ t.mailbox.busy = none
    let refused (t : State) (st : BitVec 8) := only t ∧
      t.mailbox = { s.mailbox with status := st, busy := none, image := t.mailbox.image }
    let keyed (t : State) (k : Option Nat) := t.tenant a = { s.tenant a with keys := k } ∧
      (∀ b, b ≠ a → t.tenant b = s.tenant b) ∧ t.mailbox.status = 0 ∧ t.mailbox.busy = none ∧ t.mem = s.mem ∧
      t.cores = s.cores
    (acts 1 → Memory.wf s.mailbox.buffer = true → ∃ t, exec (.attest who) s = .next t ∧ only t ∧
        t.mailbox.reports = s.mailbox.reports + 1 ∧ t.mailbox.status = 0 ∧
        Memory.readNat t.mailbox.buffer 0 4 = 0x34415453 ∧
        (∀ i, i < 32 → Memory.read t.mailbox.buffer (0x70 + i) = Memory.read s.mailbox.buffer i) ∧
        Memory.readNat t.mailbox.buffer 0x90 8 = (s.mailbox.reports + 1).toNat ∧
        ∀ i, 3756 ≤ i → Memory.read t.mailbox.buffer i = Memory.read s.mailbox.buffer i) ∧
    (s.liveTeams a = true →
      (acts 2 → ∃ t, exec (.keyLoad who) s = .next t ∧ refused t 2) ∧
      (acts 3 → ∃ t, exec (.keyClear who) s = .next t ∧ refused t 2)) ∧
    (s.liveTeams a = false →
      (acts 3 → ∃ t, exec (.keyClear who) s = .next t ∧ keyed t none) ∧
      (acts 2 → let sealed := s.mailbox.bytes 8 1088
        let wrapped := s.mailbox.bytes 0x448 104
        ∃ t, exec (.keyLoad who) s = .next t ∧
          (Config.keyLoads sealed wrapped = true → keyed t (some (Config.keySet sealed wrapped))) ∧
          (Config.keyLoads sealed wrapped = false → refused t 1))) ∧
    (s.answers who 0x400000 = true → ¬ holds ∨ s.mailbox.busy ≠ none →
      ∀ i code, (i = .attest who ∧ code = 1) ∨ (i = .keyLoad who ∧ code = 2) ∨ (i = .keyClear who ∧ code = 3) →
        s.mailbox.busy ≠ some code →
        ∃ t, exec i s = .next t ∧ t = { s with dies := t.dies, hostAbort := t.hostAbort } ∧
          (∀ p : Fin 2, t.hostAbort[p] = if who = .port p then !decide (s.hsem[(2 : Fin 64)] = some who)
            else s.hostAbort[p]) ∧
          ((s.dies[(0 : DieId)]).cfgrej ≠ 0xFFFFFFFF → (t.dies[(0 : DieId)]).cfgrej = (s.dies[(0 : DieId)]).cfgrej + 1)) ∧
    (∃ t, exec .frzPin s = .next t ∧ t = { s with freezeAsked := some (s.freezeAsked.getD s.now) }) ∧
    (∀ f, s.freezeAsked = some f → s.frozen = false →
      ∃ t, exec .freeze s = .next t ∧ t.frozen = true ∧ t.now % 16 = 0 ∧ f < t.now ∧ t.now ≤ f + 16 ∧
        t.hostLinks = .replicate 2 false ∧ t.peerLinks = .replicate 8 false ∧
        (∀ st : StackId, ((t.hbm[st]).asleepSince).isSome = true) ∧ t.cores = s.cores ∧ t.clusters = s.clusters ∧
        t.mem = s.mem) ∧
    (∃ t, exec .idcode s = .next t ∧ t = { s with tap := { s.tap with ir := 0x01, dataOut := 0x153400A3 } }) ∧
    (∃ t, exec .fmaddr s = .next t ∧ t = { s with tap := { s.tap with
      ir := 0x10, dataOut := s.tap.fmaddr, fmaddr := s.tap.dataIn } }) ∧
    (∃ t, exec .fmdata s = .next t ∧ t = { s with tap := { s.tap with
        ir := 0x11, dataOut := t.tap.dataOut, fmaddr := s.tap.fmaddr + 1 } } ∧
      (s.frozen = false → t.tap.dataOut = 0) ∧
      (s.frozen = true → s.tap.fmaddr = .ofNat 64 (2 ^ 56 + c.val * 256 + r.toNat) →
        t.tap.dataOut = (s.coreAt c).readG r)) ∧
    (∃ t, exec .bypass s = .next t ∧ t = { s with tap := { s.tap with ir := 0xFF, dataOut := 0 } })

/-- Spec/01 R18 and R19, spec/19 R333 and R334, spec/23 R390 to R393: failures, spares, sleep and throttling. An active
cluster that fails is lost, its teams fatal with CLUSTER_LOST, their cores to take it; a spare that has passed its test
is active under the lowest lost id of its die (the model's choice, notes/assumptions/77), one that has not is lost. A bank that fails is rebuilt onto its group's
spare, and done; where the spare is in use, or taken by a rebuild under way, its cluster is lost. A channel that fails
is copied onto a spare channel, and retired, or is narrowed where none is left, and withdrawn where it is narrowed: every
line of its frames, those of its agent, is then beyond correction. A
stack sleeps, is reported once after 1 ms, and wakes, which is reported too; throttling starts and ends; a peer link
goes down. The model's choices: the page policy changes nothing that the model holds (notes/assumptions/16), nor does a
peer link that goes down (notes/assumptions/17); with SPCTL 0 a failed bank or channel waits, and its copy ends only
once SPCTL is 1, and the frames of a channel are those that have a line in it (notes/assumptions/38). -/
def Obligations.ResilienceEventsAct : Prop :=
  ∀ (s : State) (k : ClusterId) (grp bank : Slot) (st : StackId) (ch : BitVec 5) (link : BitVec 3),
    let x := s.cl k
    let g := x.group grp.val
    let y := s.hbm[st]
    let inbox := s.svc[serviceOfStack st]
    let note (w : Nat) : SvcEntry := { word := .ofNat 64 w, kind := 2, asid := 0, src := 0, arrived := true }
    let told (es : List SvcEntry) := inbox.filter (·.arrived) ++ es ++ inbox.filter (!·.arrived)
    (x.status = .active → ∃ t, exec (.clusterFailure k) s = .next t ∧ (t.cl k).status = .lost ∧
      (∀ (m : Slot) (z : Team), s.team k m = some z →
        t.team k m = some { z with fatal := some (0xB1, (x.logical.getD 0).setWidth 64) }) ∧
      (∀ n : Slot, (s.coreAt (coreOf k n)).slot.isSome = true →
        (t.coreAt (coreOf k n)).lost = some ((x.logical.getD 0).setWidth 64)) ∧
      (∀ c, clusterOf c ≠ k → t.coreAt c = s.coreAt c) ∧ t.mem = s.mem) ∧
    (x.status = .testing → x.testSince + Config.spareTestCycles ≤ s.now →
      (∀ l ls, s.lostIds (dieOfCluster k) = l :: ls →
        ∃ t, exec (.spareTestDone k true) s = .next t ∧ (t.cl k).status = .active ∧ (t.cl k).logical = some (.ofNat 7 l) ∧
          (∀ n : Slot, t.coreAt (coreOf k n) = Core.reset) ∧ ∀ e, e ≠ k → t.cl e = s.cl e) ∧
      (∃ t, exec (.spareTestDone k false) s = .next t ∧ (t.cl k).status = .lost ∧ t.cores = s.cores ∧ t.mem = s.mem)) ∧
    (x.status = .active →
      (g.spare = none → g.rebuilding = [] →
        ∃ t, exec (.bankRebuildStart k grp bank) s = .next t ∧
          (t.cl k).group grp.val = { g with rebuilding := [bank] } ∧ (t.cl k).spm = x.spm ∧ t.cores = s.cores) ∧
      (bank ∉ g.rebuilding → g.spare ≠ none ∨ (s.spctl = true ∧ g.rebuilding ≠ []) →
        ∃ t, exec (.bankRebuildStart k grp bank) s = .next t ∧ (t.cl k).status = .lost ∧ t.mem = s.mem) ∧
      (∀ l, g.rebuilding = bank :: l → s.spctl = true →
        ∃ t, exec (.bankRebuilt k grp) s = .next t ∧
          (t.cl k).group grp.val = { g with rebuilding := [], spare := some bank } ∧ (t.cl k).spm = x.spm ∧
          t.cores = s.cores)) ∧
    (ch ∉ y.failing → ch ∉ y.withdrawn →
      (y.failing.length < y.spares → ∃ t, exec (.channelFailure st ch) s = .next t ∧
        t.hbm[st] = { y with failing := y.failing ++ [ch] } ∧ t.mem = s.mem) ∧
      (y.spares ≤ y.failing.length → ∃ t, exec (.channelFailure st ch) s = .next t ∧ t.mem = s.mem ∧ t.hbm[st] =
        (if ch ∈ y.narrowed then { y with withdrawn := ch :: y.withdrawn } else { y with narrowed := ch :: y.narrowed }) ∧
        ∀ pa, ch ∈ y.narrowed → homeOf pa = .t1 st → pa / 2 ^ 16 % 4 = ch.toNat / 8 → t.lineBad pa = true)) ∧
    (∀ rest, y.failing = ch :: rest → s.spctl = true →
      ∃ t, exec (.channelRetired st) s = .next t ∧ t.mem = s.mem ∧ t.hbm[st] = { y with
        failing := rest, retired := ch :: y.retired.filter (· != ch), spares := y.spares - 1 } ∧
        ∀ h ∈ t.grids, h.pkt.fullch = true → h.placed < h.pkt.teams → h.abandoned = true) ∧
    (y.asleepSince = none → ∃ t, exec (.stackSelfRefresh st) s = .next t ∧ t = { s with hbm := t.hbm } ∧
      t.hbm[st] = { y with asleepSince := some s.now, reported := false }) ∧
    (∀ since, y.asleepSince = some since →
      (y.reported = false → since + Config.stallReportCycles ≤ s.now → inbox.length < 64 →
        ∃ t, exec (.memoryStall st) s = .next t ∧ t.hbm[st] = { y with reported := true } ∧
          t.svc[serviceOfStack st] = told [note st.val]) ∧
      (∃ t, exec (.stackWake st) s = .next t ∧ t.hbm[st] = { y with asleepSince := none, reported := false } ∧
        t.mem = s.mem ∧
        (y.reported = false → s.now < since + Config.stallReportCycles → t = { s with hbm := t.hbm }) ∧
        (y.reported = false → since + Config.stallReportCycles ≤ s.now → inbox.length < 63 →
          t.svc[serviceOfStack st] = told [note st.val, note (256 + st.val)]) ∧
        (y.reported = true → inbox.length < 64 → t.svc[serviceOfStack st] = told [note (256 + st.val)]))) ∧
    (∃ t, exec (.pagePrecharge st) s = .next t ∧ t = s) ∧
    (∃ t, exec .powerThrottle s = .next t ∧ t = { s with throttled := true }) ∧
    (∃ t, exec .throttleEnd s = .next t ∧ t = { s with throttled := false }) ∧
    (∃ t, exec (.peerLinkDown link) s = .next t ∧ t = { s with peerLinks := t.peerLinks } ∧
      t.peerLinks[(⟨link.toNat, link.isLt⟩ : Fin 8)] = false)

/-! ## Grants and barrier traps, as their rules state them -/

/-- Spec/08 R185: an acq of n pages or n blocks that is granted takes the n lowest-numbered free units of its class and
maps them in ascending order to the team indices from BASE on. A page is free when no team maps it and its group is not
pinned, a block when no team maps it; whether either is still being zeroed does not matter. That the target of a
relocation under way is taken after every other free page is the model's choice (notes/assumptions/61). -/
def Obligations.GrantsTakeTheLowestUnits : Prop :=
  ∀ (s : State) (a : BitVec 5) (k : Slot) (x : Team) (max : Counts),
    let q := clusterOf s.cur
    let r := Request.of (s.g a)
    let old := if r.cls = 1 then x.pages else x.blocks
    let unmapped (u : Nat) := ∀ m y, s.team q m = some y → ∀ e ∈ (if r.cls = 1 then y.pages else y.blocks), e.2 ≠ u
    let free (u : Nat) := if r.cls = 1 then u < 128 ∧ unmapped u ∧ ((s.cl q).group (u / 16)).holder = none
      else u < 256 ∧ unmapped u
    let kept (u : Nat) := r.cls = 1 ∧ ∃ e ∈ (s.cl q).reloc, e.2 = some u
    s.claimLate = false → s.core.slot = some k → s.team q k = some x → malformed (s.g a) = false → r.cls ≠ 2 → r.overlaps x = false →
      x.claim = some max → overClaim (s.allocation q k) r.counts max = none → s.bankerDecide q k r.counts = 0 →
      (∃ l : List Nat, l.Nodup ∧ l.length = r.count ∧ ∀ u ∈ l, free u) →
        ∃ t us y, exec (.acq a) s = .next t ∧ t.team q k = some y ∧
          (if r.cls = 1 then y.pages else y.blocks) = old ++ us ∧
          us.map (·.1) = (List.range r.count).map (r.base + ·) ∧ (us.map (·.2)).Pairwise (· < ·) ∧
          (∀ e ∈ us, free e.2) ∧ ∀ u, free u → u ∉ us.map (·.2) → ∀ e ∈ us,
            (e.2 < u ∧ (kept e.2 → kept u)) ∨ (kept u ∧ ¬ kept e.2)

/-- Spec/09 R219: an arrival at an unbound id takes BARRIER_UNBOUND; one of a core that is no participant, has dropped,
or has an arrival pending takes BARRIER_OVERARRIVAL, before any fence (a bar.max that re-executes, and a bar.drop behind
an arrival, are none); bar.def of an id with an arrival pending takes BARRIER_REBIND. Each, at its turn (R213), changes no
barrier state but the record of that turn, no register but those of the trap, and no memory (`Trapped`). -/
def Obligations.BarrierTrapsChangeNothing : Prop :=
  ∀ (s : State) (d a b : BitVec 5) (k : Slot) (x : Team),
    let id := s.barId a
    let n := s.core.csr.tcore.toNat
    let z := if s.core.barWait.isSome then s else s.noteBar
    let traps (i : Instr) (cause : BitVec 8) := ∃ t, exec i s = .next t ∧ Trapped z t cause (id.setWidth 64) ∧
      t.clusters = z.clusters ∧ ∀ q m, t.team q m = s.team q m
    (s.core.barWait = none → s.barLate = false) → s.core.csr.kstate.intrap = false → s.core.slot = some k → s.team (clusterOf s.cur) k = some x →
      (x.bar id = none → traps (.barArrive a) 0x92 ∧ traps (.barSync a) 0x92 ∧ traps (.barDrop a) 0x92 ∧
        traps (.barMax d a b) 0x92 ∧ (s.core.sync ≠ some (id, true) → traps (.barWait a) 0x92)) ∧
      (∀ y, x.bar id = some y →
        (inSet y.parts n = false ∨ inSet y.dropped n = true ∨ inSet y.arrived n = true →
          traps (.barArrive a) 0x91 ∧ traps (.barSync a) 0x91 ∧
          (inSet y.maxDue n = false → traps (.barMax d a b) 0x91)) ∧
        (inSet y.dropped n = true ∨ (inSet y.parts n = false ∧ inSet y.arrived n = false) → traps (.barDrop a) 0x91) ∧
        (y.arrived ≠ 0 → traps (.barDef a b) 0x93))

/-! ## Encoding and decoding -/

/-- Instruction words written out from the spec's encodings, one or more of every family, decode to their instructions;
a word of an unassigned major is illegal. -/
def Obligations.WrittenWordsDecode : Prop :=
  decodeNat 0x04891001 = .ok (.sub 4 9 2) ∧ decodeNat 0x18A2FFEC = .ok (.slti 5 2 0xFFEC) ∧
  decodeNat 0x2CE11004 = .ok (.div 7 1 2) ∧ decodeNat 0x3C48FFFA = .ok (.ldhu 2 8 0xFFFA) ∧
  decodeNat 0x8BE00008 = .ok (.jal 31 8) ∧ decodeNat 0x90611400 = .ok (.fadd 3 1 2 true) ∧
  decodeNat 0x948110C0 = .ok (.fmadd 4 1 2 3 false) ∧ decodeNat 0x98000002 = .ok .eret ∧
  decodeNat 0xA8611005 = .ok (.barMax 3 1 2) ∧ decodeNat 0xC002802A = .ok (.vaddFp 1 4 0 1 2 true false) ∧
  decodeNat 0xC48C6240 = .ok (.vadds 6 3 1 2 0 false false) ∧
  decodeNat 0xDC000000 = .ok .vfence ∧ decodeNat 0xDC100000 = .ok .vdrain ∧
  decodeTap 0x01 = .idcode ∧ decodeTap 0x77 = .bypass ∧
  ∀ w : BitVec 32, (w.toNat / 2 ^ 26 = 0 ∨ 56 ≤ w.toNat / 2 ^ 26) → decode w = .error .illegal

/-- Spec/04 R79 to R86, spec/07, spec/13: decoding gives back every well-formed instruction of the core from its word,
with every operand. -/
def Obligations.WordsDecodeBack : Prop :=
  ∀ (i : Instr) (w : Nat), i.wf = true → encodeNat i = some w → w < 2 ^ 32 ∧ decodeNat w = .ok i

/-- Spec/04 R84 to R86: a word that decodes holds a well-formed instruction and is the only word of it: no bit of a
decodable word is ignored. -/
def Obligations.WordsHaveOneMeaning : Prop :=
  ∀ (i : Instr) (w : BitVec 32), decode w = .ok i → i.wf = true ∧ encodeNat i = some w.toNat

/-- Spec/04 R87 and R88, spec/14 R282, spec/23 R394: decoding gives back every well-formed command from its command
word, for the engine that its word names, and from the word's 32 bytes; and every instruction of the Rannen port from
its code. -/
def Obligations.CommandsDecodeBack : Prop :=
  (∀ (i : Instr) (c : CmdWord), i.wf = true → encodeCommand i = some c →
    CmdWord.ofBytes c.bytes = c ∧ ∃ e, commandEngine i = some e ∧ decodeCommand e c = .ok i) ∧
  ∀ (i : Instr) (ir : BitVec 8), encodeTap i = some ir → decodeTap ir = i

/-! ## The step -/

/-- Spec/04 R78 and R84: with no freeze due, the step of a running core that stands at a boundary with nothing pending,
on an aligned pc in TCM, executes the instruction whose word the four bytes at its pc hold, the lowest first; the step
of an engine executes the command of its word; a step of another agent is that row's event; and the Rannen port's code
is executed. Around it the step only takes its entry from the agenda and counts time (notes/assumptions/1 and 2). -/
def Obligations.StepRunsTheDecodedInstruction : Prop :=
  ∀ (s : State) (i : Instr) (rest : List Input),
    let u : State := { s with tick := s.tick + 1, agenda := rest, now := s.nextNow }
    s.frozen = false → s.freezeDue = false →
      (∀ c, (s.agenda = .run c :: rest ∨ (s.agenda = [] ∧ rest = [] ∧ c = s.cur)) →
        let k := s.coreAt c
        let o := k.pc.toNat - 0x80000
        s.teamStopped c = false → k.run = .running → k.parked = false → k.wait = .ready → k.parkDue = none →
        k.preempt = none → k.lost = none → k.vq = [] → k.atHandler = false →
        0x80000 ≤ k.pc.toNat → k.pc.toNat < 0xB0000 → k.pc.toNat % 4 = 0 →
        decode (Memory.read k.itcm (o + 3) ++ Memory.read k.itcm (o + 2) ++ Memory.read k.itcm (o + 1) ++
          Memory.read k.itcm o) = .ok i →
        step s = exec i { u with cur := c }) ∧
      (∀ x, s.agenda = .start x.seq :: rest → s.cmd x.seq = some x → decodeCommand x.engine x.word = .ok i →
        step s = exec i { u with cmdRef := x.seq }) ∧
      (s.agenda = .event i :: rest → isEvent i = true → step s = exec i u) ∧
      (∀ ir data, s.agenda = .tap ir data :: rest →
        step s = exec (decodeTap ir) { u with tap := { s.tap with dataIn := data } })

/-- Spec/23 R393 and R394: a frozen machine always takes a step, and whatever the entry, a step that is no reset changes
nothing but the Rannen port and what the agenda holds: only the port's instructions read the machine, and only reset
leaves freeze. -/
def Obligations.FrozenMachineStays : Prop :=
  ∀ (s : State), s.frozen = true →
    ∃ t, step s = .next t ∧
      ((∃ ok, s.entry = .event (.reset ok)) ∨
       (t = { s with tick := s.tick + 1, agenda := s.agenda.tail, tap := t.tap } ∧
        ((∀ ir data, s.entry ≠ .tap ir data) → t.tap = s.tap)))

/-! ## Reset and the invariant of memories -/

/-- Spec/05 R102 and R103, spec/17 R309, spec/19 R333, spec/23 R379, R382, R390 and R392: the values that the spec gives
for reset. The package is in bring-up; every core is at user level in no trap, not parked, with IE set, TRAPV 0x80000,
BTO 2^20 and WRRW 1, and its flags, enables, rounding mode and fault registers are 0; each die has 32 active clusters
with their logical ids and two spares; each stack has two spare channels; semaphores and queues are free, PWRCAP is
1,800, SPCTL 1 and PGIDLE 256. That the active clusters of a die are physical clusters 0 to 31, in the order of its ids,
and 32 and 33 its spares, R9 not saying which, is the model's choice (notes/assumptions/77, DESIGN CHOICE). RESET puts the machine there, running where the image holds and in recovery where it does
not, and keeps the host's own memory (the model's choice, notes/assumptions/43); every memory of reset is canonical
(notes/assumptions/4). -/
def Obligations.ResetValues : Prop :=
  State.reset.power = .bringUp ∧ State.reset.frozen = false ∧ State.reset.MemoriesWf ∧
  (∀ c : CoreId, let r := State.reset.coreAt c
    r.csr.kstate.pack = 0x400 ∧ r.csr.trapc = ⟨false, false, 0⟩ ∧ r.csr.trappc = 0 ∧ r.csr.trapaux = 0 ∧
    r.csr.trapv = 0x80000 ∧ r.csr.trapsave = 0 ∧ r.csr.fflags = 0 ∧ r.csr.fenable = 0 ∧ r.csr.fround = 0 ∧
    r.csr.parkinf = 0 ∧ r.csr.spflag = 0 ∧ r.csr.spaddr = 0 ∧ r.csr.mprog = 0 ∧ r.csr.pmprog = 0 ∧ r.csr.vlen = 0 ∧
    r.csr.instret = 0 ∧ r.csr.efault = 0 ∧ r.csr.engfc = 0 ∧ r.csr.engfa = 0 ∧ r.csr.shoot.pack = 0 ∧ r.csr.bto = 0x100000 ∧ r.csr.wrrw = 1 ∧ r.readM 0 = -1) ∧
  (∀ k : ClusterId, let x := State.reset.cl k
    (k.val % 34 < 32 → x.status = .active ∧ x.logical = some (.ofNat 7 (k.val / 34 * 32 + k.val % 34))) ∧
    (32 ≤ k.val % 34 → x.status = .spare ∧ x.logical = none)) ∧
  (∀ st : StackId, (State.reset.hbm[st]).spares = 2) ∧ (∀ n : Fin 64, State.reset.hsem[n] = none) ∧
  State.reset.pwrcap = 1800 ∧ State.reset.spctl = true ∧ (∀ d : DieId, (State.reset.dies[d]).pgidle0 = 256 ∧ (State.reset.dies[d]).pgidle1 = 256) ∧
  ∀ (s : State) (ok : Bool), ∃ t, exec (.reset ok) s = .next t ∧ t.power = (if ok then .running else .recovery) ∧
    t.cores = State.reset.cores ∧ t.clusters = State.reset.clusters ∧ t.cmds = [] ∧ t.grids = [] ∧ t.frozen = false ∧
    ∀ a, Memory.read t.mem a = if 2 ^ 47 ≤ a then Memory.read s.mem a else 0

/-- Every step keeps every memory of the package in its canonical form, whatever the state: no access of a core, an
engine, an agent or the host leaves a memory whose equal contents are unequal data (notes/assumptions/4). -/
def Obligations.StepKeepsMemoriesCanonical : Prop :=
  ∀ s t : State, s.MemoriesWf → step s = .next t → t.MemoriesWf
end

