-- ==== Sys2Proof/Laws/Memory.lean ====
section
/-! SUPPORT. The laws of memory: a byte read after a write, and that every operation keeps the canonical form. -/

namespace Sys2Proof.Machine

theorem Memory.above_mono {lo lo' : Nat} (h : lo ≤ lo') : ∀ {m : Mem}, Memory.above lo' m = true → Memory.above lo m = true
  | [], _ => rfl
  | (a, b) :: t, hm => by
    simp only [Memory.above, Bool.and_eq_true, decide_eq_true_eq] at hm ⊢
    exact ⟨⟨by omega, hm.1.2⟩, hm.2⟩

/-- A read below every listed address gives 0. -/
theorem Memory.read_below {lo a : Nat} (h : a < lo) : ∀ {m : Mem}, Memory.above lo m = true → Memory.read m a = 0
  | [], _ => rfl
  | (k, b) :: t, hm => by
    simp only [Memory.above, Bool.and_eq_true, decide_eq_true_eq] at hm
    simp [Memory.read, show a < k by omega]

theorem Memory.above_write {a lo : Nat} (v : Byte) (h : lo ≤ a) :
    ∀ {m : Mem}, Memory.above lo m = true → Memory.above lo (Memory.write m a v) = true
  | [], _ => by
    by_cases hv : v = 0
    · simp [Memory.write, hv, Memory.above]
    · have : (v != 0) = true := by simpa using hv
      simp only [Memory.write, if_neg hv, Memory.above, Bool.and_eq_true, decide_eq_true_eq, Bool.and_true]
      exact ⟨h, this⟩
  | (k, b) :: t, hm => by
    have hm' := hm
    simp only [Memory.above, Bool.and_eq_true, decide_eq_true_eq] at hm'
    obtain ⟨⟨hk, hb⟩, ht⟩ := hm'
    unfold Memory.write
    by_cases hv : v = 0
    · by_cases h1 : a < k
      · simp only [if_pos h1, if_pos hv]; exact hm
      · by_cases h2 : a = k
        · simp only [if_neg h1, if_pos h2, if_pos hv]; exact Memory.above_mono (by omega) ht
        · simp only [if_neg h1, if_neg h2, Memory.above, Bool.and_eq_true, decide_eq_true_eq]
          exact ⟨⟨hk, hb⟩, Memory.above_write v (by omega) ht⟩
    · have hv' : (v != 0) = true := by simpa using hv
      by_cases h1 : a < k
      · simp only [if_pos h1, if_neg hv, Memory.above, Bool.and_eq_true, decide_eq_true_eq]
        exact ⟨⟨h, hv'⟩, ⟨by omega, hb⟩, ht⟩
      · by_cases h2 : a = k
        · simp only [if_neg h1, if_pos h2, if_neg hv, Memory.above, Bool.and_eq_true, decide_eq_true_eq]
          subst h2
          exact ⟨⟨hk, hv'⟩, ht⟩
        · simp only [if_neg h1, if_neg h2, Memory.above, Bool.and_eq_true, decide_eq_true_eq]
          exact ⟨⟨hk, hb⟩, Memory.above_write v (by omega) ht⟩

/-- A write keeps the canonical form. -/
theorem Memory.wf_write {m : Mem} (a : Nat) (v : Byte) (h : Memory.wf m = true) : Memory.wf (Memory.write m a v) = true :=
  Memory.above_write v (Nat.zero_le a) h

/-- A byte read after a write gives the value written, and every other byte is as before. -/
theorem Memory.read_write_above (v : Byte) (a x : Nat) :
    ∀ {m : Mem} {lo : Nat}, Memory.above lo m = true →
      Memory.read (Memory.write m a v) x = if x = a then v else Memory.read m x
  | [], _, _ => by
    by_cases hv : v = 0
    · simp [Memory.write, hv, Memory.read]
    · simp only [Memory.write, if_neg hv, Memory.read]
      by_cases h1 : x < a
      · simp [h1, show x ≠ a by omega]
      · simp [h1]
  | (k, b) :: t, lo, hm => by
    have hm' := hm
    simp only [Memory.above, Bool.and_eq_true, decide_eq_true_eq] at hm'
    obtain ⟨⟨hk, hb⟩, ht⟩ := hm'
    unfold Memory.write
    by_cases h1 : a < k
    · by_cases hv : v = 0
      · simp only [if_pos h1, if_pos hv]
        by_cases hx : x = a
        · subst hx; simp [Memory.read, h1, hv]
        · simp [hx]
      · simp only [if_pos h1, if_neg hv, Memory.read]
        by_cases hx : x < a
        · simp [hx, show x ≠ a by omega, show x < k by omega]
        · by_cases hx' : x = a
          · simp [hx']
          · simp [hx, hx']
    · by_cases h2 : a = k
      · subst h2
        by_cases hv : v = 0
        · simp only [if_neg h1, if_pos hv, if_true]
          by_cases hx : x < a
          · simp [Memory.read, hx, show x ≠ a by omega, Memory.read_below (show x < a + 1 by omega) ht]
          · by_cases hx' : x = a
            · subst hx'; simp [Memory.read_below (Nat.lt_succ_self x) ht, hv]
            · simp [Memory.read, hx, hx']
        · simp only [if_neg h1, if_neg hv, if_true, Memory.read]
          by_cases hx : x < a
          · simp [hx, show x ≠ a by omega]
          · by_cases hx' : x = a
            · simp [hx']
            · simp [hx, hx']
      · simp only [if_neg h1, if_neg h2, Memory.read]
        by_cases hx : x < k
        · simp [hx, show x ≠ a by omega]
        · by_cases hx' : x = k
          · subst hx'
            simp [show x ≠ a by omega]
          · simp only [if_neg hx, if_neg hx']
            exact Memory.read_write_above v a x ht

theorem Memory.read_write {m : Mem} (h : Memory.wf m = true) (a x : Nat) (v : Byte) :
    Memory.read (Memory.write m a v) x = if x = a then v else Memory.read m x :=
  Memory.read_write_above v a x h

@[simp] theorem Memory.read_write_self {m : Mem} (h : Memory.wf m = true) (a : Nat) (v : Byte) :
    Memory.read (Memory.write m a v) a = v := by
  simp [Memory.read_write h]

theorem Memory.read_write_ne {m : Mem} (h : Memory.wf m = true) {a x : Nat} (v : Byte) (hx : x ≠ a) :
    Memory.read (Memory.write m a v) x = Memory.read m x := by
  simp [Memory.read_write h, hx]

/-- Writing bytes keeps the canonical form. -/
theorem Memory.wf_writeBytes : ∀ (bs : List Byte) {m : Mem} (a : Nat), Memory.wf m = true →
    Memory.wf (Memory.writeBytes m a bs) = true
  | [], _, _, h => h
  | b :: bs, _, a, h => Memory.wf_writeBytes bs (a + 1) (Memory.wf_write a b h)

theorem Memory.wf_writeNat {m : Mem} (a n v : Nat) (h : Memory.wf m = true) : Memory.wf (Memory.writeNat m a n v) = true :=
  Memory.wf_writeBytes _ _ h

theorem Memory.wf_writeCells : ∀ (cs : List Host.Cell) {m : Mem}, Memory.wf m = true →
    Memory.wf (Memory.writeCells m cs) = true
  | [], _, h => h
  | (a, b) :: cs, _, h => Memory.wf_writeCells cs (Memory.wf_write a b h)

/-- Bytes outside those written read as before. -/
theorem Memory.read_writeBytes_outside : ∀ (bs : List Byte) {m : Mem} (a x : Nat), Memory.wf m = true →
    (x < a ∨ a + bs.length ≤ x) → Memory.read (Memory.writeBytes m a bs) x = Memory.read m x
  | [], _, _, _, _, _ => rfl
  | b :: bs, m, a, x, h, hx => by
    simp only [List.length_cons] at hx
    rw [Memory.writeBytes, Memory.read_writeBytes_outside bs (a + 1) x (Memory.wf_write a b h) (by omega),
      Memory.read_write_ne h b (by omega)]

/-- The bytes written read back. -/
theorem Memory.read_writeBytes_inside : ∀ (bs : List Byte) {m : Mem} (a i : Nat), Memory.wf m = true →
    (hi : i < bs.length) → Memory.read (Memory.writeBytes m a bs) (a + i) = bs[i]
  | b :: bs, m, a, 0, h, _ => by
    rw [show a + 0 = a from rfl, Memory.writeBytes,
      Memory.read_writeBytes_outside bs (a + 1) a (Memory.wf_write a b h) (by omega), Memory.read_write_self h]
    rfl
  | b :: bs, m, a, i + 1, h, hi => by
    have hi' : i < bs.length := by simpa using hi
    have := Memory.read_writeBytes_inside bs (m := Memory.write m a b) (a + 1) i (Memory.wf_write a b h) hi'
    simp only [Memory.writeBytes, List.getElem_cons_succ]
    rw [show a + (i + 1) = a + 1 + i by omega]
    exact this

/-- Cells written away from an address leave it as it was. -/
theorem Memory.read_writeCells_outside : ∀ (cs : List Host.Cell) {m : Mem} (x : Nat), Memory.wf m = true →
    (∀ c ∈ cs, c.1 ≠ x) → Memory.read (Memory.writeCells m cs) x = Memory.read m x
  | [], _, _, _, _ => rfl
  | (a, b) :: cs, _, x, h, hx => by
    rw [Memory.writeCells, Memory.read_writeCells_outside cs x (Memory.wf_write a b h) fun c hc => hx c (by simp [hc]),
      Memory.read_write_ne h b (hx (a, b) (by simp)).symm]

/-- Cells of consecutive addresses are bytes written from the first on. -/
theorem Memory.writeCells_consecutive : ∀ (bs : List Byte) (m : Mem) (a : Nat),
    Memory.writeCells m ((List.range bs.length).map fun i => (a + i, bs.getD i 0)) = Memory.writeBytes m a bs
  | [], _, _ => rfl
  | b :: bs, m, a => by
    rw [List.length_cons, List.range_succ_eq_map, List.map_cons, List.map_map, Memory.writeBytes,
      ← Memory.writeCells_consecutive bs (Memory.write m a b) (a + 1)]
    simp [Memory.writeCells, Function.comp_def, Nat.add_assoc, Nat.add_comm 1]

/-- Cells of bytes are in canonical form from their address on. -/
theorem Memory.above_cells : ∀ (bs : List Byte) {a lo : Nat}, lo ≤ a → Memory.above lo (Memory.cells a bs) = true
  | [], _, _, _ => rfl
  | b :: bs, a, lo, h => by
    unfold Memory.cells
    by_cases hb : b = 0
    · rw [if_pos hb]; exact Memory.above_cells bs (by omega)
    · have hb' : (b != 0) = true := by simpa using hb
      rw [if_neg hb]
      simp only [Memory.above, Bool.and_eq_true, decide_eq_true_eq]
      exact ⟨⟨h, hb'⟩, Memory.above_cells bs (Nat.le_refl _)⟩

theorem Memory.wf_cells (a : Nat) (bs : List Byte) : Memory.wf (Memory.cells a bs) = true :=
  Memory.above_cells bs (Nat.zero_le a)

theorem Memory.above_filter (p : Host.Cell → Bool) : ∀ {m : Mem} {lo : Nat}, Memory.above lo m = true →
    Memory.above lo (m.filter p) = true
  | [], _, _ => rfl
  | (a, b) :: t, lo, hm => by
    simp only [Memory.above, Bool.and_eq_true, decide_eq_true_eq] at hm
    have ih := Memory.above_filter p hm.2
    by_cases hp : p (a, b) = true
    · rw [List.filter_cons_of_pos hp]
      simp only [Memory.above, Bool.and_eq_true, decide_eq_true_eq]
      exact ⟨hm.1, ih⟩
    · rw [List.filter_cons_of_neg hp]
      exact Memory.above_mono (by omega) ih

/-- Zeroing a range keeps the canonical form. -/
theorem Memory.wf_zero {m : Mem} (lo hi : Nat) (h : Memory.wf m = true) : Memory.wf (Memory.zero m lo hi) = true :=
  Memory.above_filter _ h

theorem Memory.above_append : ∀ {m m' : Mem} {lo mid : Nat}, lo ≤ mid → Memory.above lo m = true →
    (∀ c ∈ m, c.1 < mid) → Memory.above mid m' = true → Memory.above lo (m ++ m') = true
  | [], _, _, _, hlo, _, _, h' => Memory.above_mono hlo h'
  | (a, b) :: t, m', lo, mid, _, hm, hc, h' => by
    simp only [Memory.above, Bool.and_eq_true, decide_eq_true_eq] at hm
    have ha : a < mid := hc (a, b) (List.mem_cons_self ..)
    simp only [List.cons_append, Memory.above, Bool.and_eq_true, decide_eq_true_eq]
    exact ⟨hm.1, Memory.above_append (by omega) hm.2 (fun c h => hc c (List.mem_cons_of_mem _ h)) h'⟩

theorem Memory.cells_below : ∀ (bs : List Byte) (a : Nat), ∀ c ∈ Memory.cells a bs, c.1 < a + bs.length
  | [], _, _, h => by simp [Memory.cells] at h
  | b :: bs, a, c, h => by
    have key : ∀ c ∈ Memory.cells (a + 1) bs, c.1 < a + (b :: bs).length := fun c hc => by
      have := Memory.cells_below bs (a + 1) c hc
      simp only [List.length_cons]; omega
    unfold Memory.cells at h
    by_cases hb : b = 0
    · rw [if_pos hb] at h; exact key c h
    · rw [if_neg hb] at h
      rcases List.mem_cons.mp h with rfl | h
      · simp
      · exact key c h

theorem Memory.above_filter_ge (mid : Nat) : ∀ {m : Mem} {lo : Nat}, Memory.above lo m = true →
    Memory.above mid (m.filter (fun c => decide (mid ≤ c.1))) = true
  | [], _, _ => rfl
  | (a, b) :: t, lo, hm => by
    have hm' := hm
    simp only [Memory.above, Bool.and_eq_true, decide_eq_true_eq] at hm'
    by_cases hp : mid ≤ a
    · rw [List.filter_cons_of_pos (by simpa using hp)]
      simp only [Memory.above, Bool.and_eq_true, decide_eq_true_eq]
      exact ⟨⟨hp, hm'.1.2⟩, Memory.above_filter _ hm'.2⟩
    · rw [List.filter_cons_of_neg (by simpa using hp)]
      exact Memory.above_filter_ge mid hm'.2

/-- Replacing a range of bytes keeps the canonical form. -/
theorem Memory.wf_splice {m : Mem} (a : Nat) (bs : List Byte) (h : Memory.wf m = true) :
    Memory.wf (Memory.splice m a bs) = true := by
  unfold Memory.splice
  refine Memory.above_append (Nat.zero_le a) (Memory.above_filter _ h) ?_ ?_
  · intro c hc
    simpa using (List.mem_filter.mp hc).2
  · exact Memory.above_append (Nat.le_add_right a bs.length) (Memory.above_cells bs (Nat.le_refl _))
      (Memory.cells_below bs a) (Memory.above_filter_ge _ h)

end Sys2Proof.Machine
end

