-- ==== Sys2Proof/Laws/State.lean ====
section
/-! SUPPORT. The small lemmas of the state's updates: each field of each update, and reads after writes. -/

namespace Sys2Proof.Machine

/-! ## `State.setCoreAt` -/

@[simp] theorem State.setCoreAt_now (s : State) (c : CoreId) (k : Core) : (s.setCoreAt c k).now = s.now := rfl
@[simp] theorem State.setCoreAt_tick (s : State) (c : CoreId) (k : Core) : (s.setCoreAt c k).tick = s.tick := rfl
@[simp] theorem State.setCoreAt_agenda (s : State) (c : CoreId) (k : Core) : (s.setCoreAt c k).agenda = s.agenda := rfl
@[simp] theorem State.setCoreAt_cur (s : State) (c : CoreId) (k : Core) : (s.setCoreAt c k).cur = s.cur := rfl
@[simp] theorem State.setCoreAt_cmdRef (s : State) (c : CoreId) (k : Core) : (s.setCoreAt c k).cmdRef = s.cmdRef := rfl
@[simp] theorem State.setCoreAt_nextSeq (s : State) (c : CoreId) (k : Core) : (s.setCoreAt c k).nextSeq = s.nextSeq := rfl
@[simp] theorem State.setCoreAt_power (s : State) (c : CoreId) (k : Core) : (s.setCoreAt c k).power = s.power := rfl
@[simp] theorem State.setCoreAt_freezeAsked (s : State) (c : CoreId) (k : Core) : (s.setCoreAt c k).freezeAsked = s.freezeAsked := rfl
@[simp] theorem State.setCoreAt_frozen (s : State) (c : CoreId) (k : Core) : (s.setCoreAt c k).frozen = s.frozen := rfl
@[simp] theorem State.setCoreAt_throttled (s : State) (c : CoreId) (k : Core) : (s.setCoreAt c k).throttled = s.throttled := rfl
@[simp] theorem State.setCoreAt_clusters (s : State) (c : CoreId) (k : Core) : (s.setCoreAt c k).clusters = s.clusters := rfl
@[simp] theorem State.setCoreAt_cmds (s : State) (c : CoreId) (k : Core) : (s.setCoreAt c k).cmds = s.cmds := rfl
@[simp] theorem State.setCoreAt_granules (s : State) (c : CoreId) (k : Core) : (s.setCoreAt c k).granules = s.granules := rfl
@[simp] theorem State.setCoreAt_packets (s : State) (c : CoreId) (k : Core) : (s.setCoreAt c k).packets = s.packets := rfl
@[simp] theorem State.setCoreAt_left (s : State) (c : CoreId) (k : Core) : (s.setCoreAt c k).left = s.left := rfl
@[simp] theorem State.setCoreAt_uses (s : State) (c : CoreId) (k : Core) : (s.setCoreAt c k).uses = s.uses := rfl
@[simp] theorem State.setCoreAt_abortedTurns (s : State) (c : CoreId) (k : Core) : (s.setCoreAt c k).abortedTurns = s.abortedTurns := rfl
@[simp] theorem State.setCoreAt_mem (s : State) (c : CoreId) (k : Core) : (s.setCoreAt c k).mem = s.mem := rfl
@[simp] theorem State.setCoreAt_poison (s : State) (c : CoreId) (k : Core) : (s.setCoreAt c k).poison = s.poison := rfl
@[simp] theorem State.setCoreAt_seals (s : State) (c : CoreId) (k : Core) : (s.setCoreAt c k).seals = s.seals := rfl
@[simp] theorem State.setCoreAt_transit (s : State) (c : CoreId) (k : Core) : (s.setCoreAt c k).transit = s.transit := rfl
@[simp] theorem State.setCoreAt_ships (s : State) (c : CoreId) (k : Core) : (s.setCoreAt c k).ships = s.ships := rfl
@[simp] theorem State.setCoreAt_mapOps (s : State) (c : CoreId) (k : Core) : (s.setCoreAt c k).mapOps = s.mapOps := rfl
@[simp] theorem State.setCoreAt_maps (s : State) (c : CoreId) (k : Core) : (s.setCoreAt c k).maps = s.maps := rfl
@[simp] theorem State.setCoreAt_routines (s : State) (c : CoreId) (k : Core) : (s.setCoreAt c k).routines = s.routines := rfl
@[simp] theorem State.setCoreAt_tenants (s : State) (c : CoreId) (k : Core) : (s.setCoreAt c k).tenants = s.tenants := rfl
@[simp] theorem State.setCoreAt_buffers (s : State) (c : CoreId) (k : Core) : (s.setCoreAt c k).buffers = s.buffers := rfl
@[simp] theorem State.setCoreAt_bufctl (s : State) (c : CoreId) (k : Core) : (s.setCoreAt c k).bufctl = s.bufctl := rfl
@[simp] theorem State.setCoreAt_fabid (s : State) (c : CoreId) (k : Core) : (s.setCoreAt c k).fabid = s.fabid := rfl
@[simp] theorem State.setCoreAt_affmiss (s : State) (c : CoreId) (k : Core) : (s.setCoreAt c k).affmiss = s.affmiss := rfl
@[simp] theorem State.setCoreAt_pwrcap (s : State) (c : CoreId) (k : Core) : (s.setCoreAt c k).pwrcap = s.pwrcap := rfl
@[simp] theorem State.setCoreAt_spctl (s : State) (c : CoreId) (k : Core) : (s.setCoreAt c k).spctl = s.spctl := rfl
@[simp] theorem State.setCoreAt_hsem (s : State) (c : CoreId) (k : Core) : (s.setCoreAt c k).hsem = s.hsem := rfl
@[simp] theorem State.setCoreAt_hsemOrder (s : State) (c : CoreId) (k : Core) : (s.setCoreAt c k).hsemOrder = s.hsemOrder := rfl
@[simp] theorem State.setCoreAt_hostq (s : State) (c : CoreId) (k : Core) : (s.setCoreAt c k).hostq = s.hostq := rfl
@[simp] theorem State.setCoreAt_queues (s : State) (c : CoreId) (k : Core) : (s.setCoreAt c k).queues = s.queues := rfl
@[simp] theorem State.setCoreAt_grids (s : State) (c : CoreId) (k : Core) : (s.setCoreAt c k).grids = s.grids := rfl
@[simp] theorem State.setCoreAt_nextGrid (s : State) (c : CoreId) (k : Core) : (s.setCoreAt c k).nextGrid = s.nextGrid := rfl
@[simp] theorem State.setCoreAt_reservations (s : State) (c : CoreId) (k : Core) : (s.setCoreAt c k).reservations = s.reservations := rfl
@[simp] theorem State.setCoreAt_svc (s : State) (c : CoreId) (k : Core) : (s.setCoreAt c k).svc = s.svc := rfl
@[simp] theorem State.setCoreAt_heldMsgs (s : State) (c : CoreId) (k : Core) : (s.setCoreAt c k).heldMsgs = s.heldMsgs := rfl
@[simp] theorem State.setCoreAt_svcStatus (s : State) (c : CoreId) (k : Core) : (s.setCoreAt c k).svcStatus = s.svcStatus := rfl
@[simp] theorem State.setCoreAt_hdm (s : State) (c : CoreId) (k : Core) : (s.setCoreAt c k).hdm = s.hdm := rfl
@[simp] theorem State.setCoreAt_hostReply (s : State) (c : CoreId) (k : Core) : (s.setCoreAt c k).hostReply = s.hostReply := rfl
@[simp] theorem State.setCoreAt_hostAbort (s : State) (c : CoreId) (k : Core) : (s.setCoreAt c k).hostAbort = s.hostAbort := rfl
@[simp] theorem State.setCoreAt_regReply (s : State) (c : CoreId) (k : Core) : (s.setCoreAt c k).regReply = s.regReply := rfl
@[simp] theorem State.setCoreAt_dies (s : State) (c : CoreId) (k : Core) : (s.setCoreAt c k).dies = s.dies := rfl
@[simp] theorem State.setCoreAt_migrations (s : State) (c : CoreId) (k : Core) : (s.setCoreAt c k).migrations = s.migrations := rfl
@[simp] theorem State.setCoreAt_shoots (s : State) (c : CoreId) (k : Core) : (s.setCoreAt c k).shoots = s.shoots := rfl
@[simp] theorem State.setCoreAt_hbm (s : State) (c : CoreId) (k : Core) : (s.setCoreAt c k).hbm = s.hbm := rfl
@[simp] theorem State.setCoreAt_mailbox (s : State) (c : CoreId) (k : Core) : (s.setCoreAt c k).mailbox = s.mailbox := rfl
@[simp] theorem State.setCoreAt_tap (s : State) (c : CoreId) (k : Core) : (s.setCoreAt c k).tap = s.tap := rfl
@[simp] theorem State.setCoreAt_hostLinks (s : State) (c : CoreId) (k : Core) : (s.setCoreAt c k).hostLinks = s.hostLinks := rfl
@[simp] theorem State.setCoreAt_peerLinks (s : State) (c : CoreId) (k : Core) : (s.setCoreAt c k).peerLinks = s.peerLinks := rfl

/-! ## `State.setCore` -/

@[simp] theorem State.setCore_now (s : State) (k : Core) : (s.setCore k).now = s.now := rfl
@[simp] theorem State.setCore_tick (s : State) (k : Core) : (s.setCore k).tick = s.tick := rfl
@[simp] theorem State.setCore_agenda (s : State) (k : Core) : (s.setCore k).agenda = s.agenda := rfl
@[simp] theorem State.setCore_cur (s : State) (k : Core) : (s.setCore k).cur = s.cur := rfl
@[simp] theorem State.setCore_cmdRef (s : State) (k : Core) : (s.setCore k).cmdRef = s.cmdRef := rfl
@[simp] theorem State.setCore_nextSeq (s : State) (k : Core) : (s.setCore k).nextSeq = s.nextSeq := rfl
@[simp] theorem State.setCore_power (s : State) (k : Core) : (s.setCore k).power = s.power := rfl
@[simp] theorem State.setCore_freezeAsked (s : State) (k : Core) : (s.setCore k).freezeAsked = s.freezeAsked := rfl
@[simp] theorem State.setCore_frozen (s : State) (k : Core) : (s.setCore k).frozen = s.frozen := rfl
@[simp] theorem State.setCore_throttled (s : State) (k : Core) : (s.setCore k).throttled = s.throttled := rfl
@[simp] theorem State.setCore_clusters (s : State) (k : Core) : (s.setCore k).clusters = s.clusters := rfl
@[simp] theorem State.setCore_cmds (s : State) (k : Core) : (s.setCore k).cmds = s.cmds := rfl
@[simp] theorem State.setCore_granules (s : State) (k : Core) : (s.setCore k).granules = s.granules := rfl
@[simp] theorem State.setCore_packets (s : State) (k : Core) : (s.setCore k).packets = s.packets := rfl
@[simp] theorem State.setCore_left (s : State) (k : Core) : (s.setCore k).left = s.left := rfl
@[simp] theorem State.setCore_uses (s : State) (k : Core) : (s.setCore k).uses = s.uses := rfl
@[simp] theorem State.setCore_abortedTurns (s : State) (k : Core) : (s.setCore k).abortedTurns = s.abortedTurns := rfl
@[simp] theorem State.setCore_mem (s : State) (k : Core) : (s.setCore k).mem = s.mem := rfl
@[simp] theorem State.setCore_poison (s : State) (k : Core) : (s.setCore k).poison = s.poison := rfl
@[simp] theorem State.setCore_seals (s : State) (k : Core) : (s.setCore k).seals = s.seals := rfl
@[simp] theorem State.setCore_transit (s : State) (k : Core) : (s.setCore k).transit = s.transit := rfl
@[simp] theorem State.setCore_ships (s : State) (k : Core) : (s.setCore k).ships = s.ships := rfl
@[simp] theorem State.setCore_mapOps (s : State) (k : Core) : (s.setCore k).mapOps = s.mapOps := rfl
@[simp] theorem State.setCore_maps (s : State) (k : Core) : (s.setCore k).maps = s.maps := rfl
@[simp] theorem State.setCore_routines (s : State) (k : Core) : (s.setCore k).routines = s.routines := rfl
@[simp] theorem State.setCore_tenants (s : State) (k : Core) : (s.setCore k).tenants = s.tenants := rfl
@[simp] theorem State.setCore_buffers (s : State) (k : Core) : (s.setCore k).buffers = s.buffers := rfl
@[simp] theorem State.setCore_bufctl (s : State) (k : Core) : (s.setCore k).bufctl = s.bufctl := rfl
@[simp] theorem State.setCore_fabid (s : State) (k : Core) : (s.setCore k).fabid = s.fabid := rfl
@[simp] theorem State.setCore_affmiss (s : State) (k : Core) : (s.setCore k).affmiss = s.affmiss := rfl
@[simp] theorem State.setCore_pwrcap (s : State) (k : Core) : (s.setCore k).pwrcap = s.pwrcap := rfl
@[simp] theorem State.setCore_spctl (s : State) (k : Core) : (s.setCore k).spctl = s.spctl := rfl
@[simp] theorem State.setCore_hsem (s : State) (k : Core) : (s.setCore k).hsem = s.hsem := rfl
@[simp] theorem State.setCore_hsemOrder (s : State) (k : Core) : (s.setCore k).hsemOrder = s.hsemOrder := rfl
@[simp] theorem State.setCore_hostq (s : State) (k : Core) : (s.setCore k).hostq = s.hostq := rfl
@[simp] theorem State.setCore_queues (s : State) (k : Core) : (s.setCore k).queues = s.queues := rfl
@[simp] theorem State.setCore_grids (s : State) (k : Core) : (s.setCore k).grids = s.grids := rfl
@[simp] theorem State.setCore_nextGrid (s : State) (k : Core) : (s.setCore k).nextGrid = s.nextGrid := rfl
@[simp] theorem State.setCore_reservations (s : State) (k : Core) : (s.setCore k).reservations = s.reservations := rfl
@[simp] theorem State.setCore_svc (s : State) (k : Core) : (s.setCore k).svc = s.svc := rfl
@[simp] theorem State.setCore_heldMsgs (s : State) (k : Core) : (s.setCore k).heldMsgs = s.heldMsgs := rfl
@[simp] theorem State.setCore_svcStatus (s : State) (k : Core) : (s.setCore k).svcStatus = s.svcStatus := rfl
@[simp] theorem State.setCore_hdm (s : State) (k : Core) : (s.setCore k).hdm = s.hdm := rfl
@[simp] theorem State.setCore_hostReply (s : State) (k : Core) : (s.setCore k).hostReply = s.hostReply := rfl
@[simp] theorem State.setCore_hostAbort (s : State) (k : Core) : (s.setCore k).hostAbort = s.hostAbort := rfl
@[simp] theorem State.setCore_regReply (s : State) (k : Core) : (s.setCore k).regReply = s.regReply := rfl
@[simp] theorem State.setCore_dies (s : State) (k : Core) : (s.setCore k).dies = s.dies := rfl
@[simp] theorem State.setCore_migrations (s : State) (k : Core) : (s.setCore k).migrations = s.migrations := rfl
@[simp] theorem State.setCore_shoots (s : State) (k : Core) : (s.setCore k).shoots = s.shoots := rfl
@[simp] theorem State.setCore_hbm (s : State) (k : Core) : (s.setCore k).hbm = s.hbm := rfl
@[simp] theorem State.setCore_mailbox (s : State) (k : Core) : (s.setCore k).mailbox = s.mailbox := rfl
@[simp] theorem State.setCore_tap (s : State) (k : Core) : (s.setCore k).tap = s.tap := rfl
@[simp] theorem State.setCore_hostLinks (s : State) (k : Core) : (s.setCore k).hostLinks = s.hostLinks := rfl
@[simp] theorem State.setCore_peerLinks (s : State) (k : Core) : (s.setCore k).peerLinks = s.peerLinks := rfl

/-! ## `State.setCl` -/

@[simp] theorem State.setCl_now (s : State) (i : ClusterId) (x : Cluster) : (s.setCl i x).now = s.now := rfl
@[simp] theorem State.setCl_tick (s : State) (i : ClusterId) (x : Cluster) : (s.setCl i x).tick = s.tick := rfl
@[simp] theorem State.setCl_agenda (s : State) (i : ClusterId) (x : Cluster) : (s.setCl i x).agenda = s.agenda := rfl
@[simp] theorem State.setCl_cur (s : State) (i : ClusterId) (x : Cluster) : (s.setCl i x).cur = s.cur := rfl
@[simp] theorem State.setCl_cmdRef (s : State) (i : ClusterId) (x : Cluster) : (s.setCl i x).cmdRef = s.cmdRef := rfl
@[simp] theorem State.setCl_nextSeq (s : State) (i : ClusterId) (x : Cluster) : (s.setCl i x).nextSeq = s.nextSeq := rfl
@[simp] theorem State.setCl_power (s : State) (i : ClusterId) (x : Cluster) : (s.setCl i x).power = s.power := rfl
@[simp] theorem State.setCl_freezeAsked (s : State) (i : ClusterId) (x : Cluster) : (s.setCl i x).freezeAsked = s.freezeAsked := rfl
@[simp] theorem State.setCl_frozen (s : State) (i : ClusterId) (x : Cluster) : (s.setCl i x).frozen = s.frozen := rfl
@[simp] theorem State.setCl_throttled (s : State) (i : ClusterId) (x : Cluster) : (s.setCl i x).throttled = s.throttled := rfl
@[simp] theorem State.setCl_cores (s : State) (i : ClusterId) (x : Cluster) : (s.setCl i x).cores = s.cores := rfl
@[simp] theorem State.setCl_cmds (s : State) (i : ClusterId) (x : Cluster) : (s.setCl i x).cmds = s.cmds := rfl
@[simp] theorem State.setCl_granules (s : State) (i : ClusterId) (x : Cluster) : (s.setCl i x).granules = s.granules := rfl
@[simp] theorem State.setCl_packets (s : State) (i : ClusterId) (x : Cluster) : (s.setCl i x).packets = s.packets := rfl
@[simp] theorem State.setCl_left (s : State) (i : ClusterId) (x : Cluster) : (s.setCl i x).left = s.left := rfl
@[simp] theorem State.setCl_uses (s : State) (i : ClusterId) (x : Cluster) : (s.setCl i x).uses = s.uses := rfl
@[simp] theorem State.setCl_abortedTurns (s : State) (i : ClusterId) (x : Cluster) : (s.setCl i x).abortedTurns = s.abortedTurns := rfl
@[simp] theorem State.setCl_mem (s : State) (i : ClusterId) (x : Cluster) : (s.setCl i x).mem = s.mem := rfl
@[simp] theorem State.setCl_poison (s : State) (i : ClusterId) (x : Cluster) : (s.setCl i x).poison = s.poison := rfl
@[simp] theorem State.setCl_seals (s : State) (i : ClusterId) (x : Cluster) : (s.setCl i x).seals = s.seals := rfl
@[simp] theorem State.setCl_transit (s : State) (i : ClusterId) (x : Cluster) : (s.setCl i x).transit = s.transit := rfl
@[simp] theorem State.setCl_ships (s : State) (i : ClusterId) (x : Cluster) : (s.setCl i x).ships = s.ships := rfl
@[simp] theorem State.setCl_mapOps (s : State) (i : ClusterId) (x : Cluster) : (s.setCl i x).mapOps = s.mapOps := rfl
@[simp] theorem State.setCl_maps (s : State) (i : ClusterId) (x : Cluster) : (s.setCl i x).maps = s.maps := rfl
@[simp] theorem State.setCl_routines (s : State) (i : ClusterId) (x : Cluster) : (s.setCl i x).routines = s.routines := rfl
@[simp] theorem State.setCl_tenants (s : State) (i : ClusterId) (x : Cluster) : (s.setCl i x).tenants = s.tenants := rfl
@[simp] theorem State.setCl_buffers (s : State) (i : ClusterId) (x : Cluster) : (s.setCl i x).buffers = s.buffers := rfl
@[simp] theorem State.setCl_bufctl (s : State) (i : ClusterId) (x : Cluster) : (s.setCl i x).bufctl = s.bufctl := rfl
@[simp] theorem State.setCl_fabid (s : State) (i : ClusterId) (x : Cluster) : (s.setCl i x).fabid = s.fabid := rfl
@[simp] theorem State.setCl_affmiss (s : State) (i : ClusterId) (x : Cluster) : (s.setCl i x).affmiss = s.affmiss := rfl
@[simp] theorem State.setCl_pwrcap (s : State) (i : ClusterId) (x : Cluster) : (s.setCl i x).pwrcap = s.pwrcap := rfl
@[simp] theorem State.setCl_spctl (s : State) (i : ClusterId) (x : Cluster) : (s.setCl i x).spctl = s.spctl := rfl
@[simp] theorem State.setCl_hsem (s : State) (i : ClusterId) (x : Cluster) : (s.setCl i x).hsem = s.hsem := rfl
@[simp] theorem State.setCl_hsemOrder (s : State) (i : ClusterId) (x : Cluster) : (s.setCl i x).hsemOrder = s.hsemOrder := rfl
@[simp] theorem State.setCl_hostq (s : State) (i : ClusterId) (x : Cluster) : (s.setCl i x).hostq = s.hostq := rfl
@[simp] theorem State.setCl_queues (s : State) (i : ClusterId) (x : Cluster) : (s.setCl i x).queues = s.queues := rfl
@[simp] theorem State.setCl_grids (s : State) (i : ClusterId) (x : Cluster) : (s.setCl i x).grids = s.grids := rfl
@[simp] theorem State.setCl_nextGrid (s : State) (i : ClusterId) (x : Cluster) : (s.setCl i x).nextGrid = s.nextGrid := rfl
@[simp] theorem State.setCl_reservations (s : State) (i : ClusterId) (x : Cluster) : (s.setCl i x).reservations = s.reservations := rfl
@[simp] theorem State.setCl_svc (s : State) (i : ClusterId) (x : Cluster) : (s.setCl i x).svc = s.svc := rfl
@[simp] theorem State.setCl_heldMsgs (s : State) (i : ClusterId) (x : Cluster) : (s.setCl i x).heldMsgs = s.heldMsgs := rfl
@[simp] theorem State.setCl_svcStatus (s : State) (i : ClusterId) (x : Cluster) : (s.setCl i x).svcStatus = s.svcStatus := rfl
@[simp] theorem State.setCl_hdm (s : State) (i : ClusterId) (x : Cluster) : (s.setCl i x).hdm = s.hdm := rfl
@[simp] theorem State.setCl_hostReply (s : State) (i : ClusterId) (x : Cluster) : (s.setCl i x).hostReply = s.hostReply := rfl
@[simp] theorem State.setCl_hostAbort (s : State) (i : ClusterId) (x : Cluster) : (s.setCl i x).hostAbort = s.hostAbort := rfl
@[simp] theorem State.setCl_regReply (s : State) (i : ClusterId) (x : Cluster) : (s.setCl i x).regReply = s.regReply := rfl
@[simp] theorem State.setCl_dies (s : State) (i : ClusterId) (x : Cluster) : (s.setCl i x).dies = s.dies := rfl
@[simp] theorem State.setCl_migrations (s : State) (i : ClusterId) (x : Cluster) : (s.setCl i x).migrations = s.migrations := rfl
@[simp] theorem State.setCl_shoots (s : State) (i : ClusterId) (x : Cluster) : (s.setCl i x).shoots = s.shoots := rfl
@[simp] theorem State.setCl_hbm (s : State) (i : ClusterId) (x : Cluster) : (s.setCl i x).hbm = s.hbm := rfl
@[simp] theorem State.setCl_mailbox (s : State) (i : ClusterId) (x : Cluster) : (s.setCl i x).mailbox = s.mailbox := rfl
@[simp] theorem State.setCl_tap (s : State) (i : ClusterId) (x : Cluster) : (s.setCl i x).tap = s.tap := rfl
@[simp] theorem State.setCl_hostLinks (s : State) (i : ClusterId) (x : Cluster) : (s.setCl i x).hostLinks = s.hostLinks := rfl
@[simp] theorem State.setCl_peerLinks (s : State) (i : ClusterId) (x : Cluster) : (s.setCl i x).peerLinks = s.peerLinks := rfl

/-! ## `State.setTeam` -/

@[simp] theorem State.setTeam_now (s : State) (i : ClusterId) (t : Slot) (x : Option Team) : (s.setTeam i t x).now = s.now := rfl
@[simp] theorem State.setTeam_tick (s : State) (i : ClusterId) (t : Slot) (x : Option Team) : (s.setTeam i t x).tick = s.tick := rfl
@[simp] theorem State.setTeam_agenda (s : State) (i : ClusterId) (t : Slot) (x : Option Team) : (s.setTeam i t x).agenda = s.agenda := rfl
@[simp] theorem State.setTeam_cur (s : State) (i : ClusterId) (t : Slot) (x : Option Team) : (s.setTeam i t x).cur = s.cur := rfl
@[simp] theorem State.setTeam_cmdRef (s : State) (i : ClusterId) (t : Slot) (x : Option Team) : (s.setTeam i t x).cmdRef = s.cmdRef := rfl
@[simp] theorem State.setTeam_nextSeq (s : State) (i : ClusterId) (t : Slot) (x : Option Team) : (s.setTeam i t x).nextSeq = s.nextSeq := rfl
@[simp] theorem State.setTeam_power (s : State) (i : ClusterId) (t : Slot) (x : Option Team) : (s.setTeam i t x).power = s.power := rfl
@[simp] theorem State.setTeam_freezeAsked (s : State) (i : ClusterId) (t : Slot) (x : Option Team) : (s.setTeam i t x).freezeAsked = s.freezeAsked := rfl
@[simp] theorem State.setTeam_frozen (s : State) (i : ClusterId) (t : Slot) (x : Option Team) : (s.setTeam i t x).frozen = s.frozen := rfl
@[simp] theorem State.setTeam_throttled (s : State) (i : ClusterId) (t : Slot) (x : Option Team) : (s.setTeam i t x).throttled = s.throttled := rfl
@[simp] theorem State.setTeam_cores (s : State) (i : ClusterId) (t : Slot) (x : Option Team) : (s.setTeam i t x).cores = s.cores := rfl
@[simp] theorem State.setTeam_cmds (s : State) (i : ClusterId) (t : Slot) (x : Option Team) : (s.setTeam i t x).cmds = s.cmds := rfl
@[simp] theorem State.setTeam_granules (s : State) (i : ClusterId) (t : Slot) (x : Option Team) : (s.setTeam i t x).granules = s.granules := rfl
@[simp] theorem State.setTeam_packets (s : State) (i : ClusterId) (t : Slot) (x : Option Team) : (s.setTeam i t x).packets = s.packets := rfl
@[simp] theorem State.setTeam_left (s : State) (i : ClusterId) (t : Slot) (x : Option Team) : (s.setTeam i t x).left = s.left := rfl
@[simp] theorem State.setTeam_uses (s : State) (i : ClusterId) (t : Slot) (x : Option Team) : (s.setTeam i t x).uses = s.uses := rfl
@[simp] theorem State.setTeam_abortedTurns (s : State) (i : ClusterId) (t : Slot) (x : Option Team) : (s.setTeam i t x).abortedTurns = s.abortedTurns := rfl
@[simp] theorem State.setTeam_mem (s : State) (i : ClusterId) (t : Slot) (x : Option Team) : (s.setTeam i t x).mem = s.mem := rfl
@[simp] theorem State.setTeam_poison (s : State) (i : ClusterId) (t : Slot) (x : Option Team) : (s.setTeam i t x).poison = s.poison := rfl
@[simp] theorem State.setTeam_seals (s : State) (i : ClusterId) (t : Slot) (x : Option Team) : (s.setTeam i t x).seals = s.seals := rfl
@[simp] theorem State.setTeam_transit (s : State) (i : ClusterId) (t : Slot) (x : Option Team) : (s.setTeam i t x).transit = s.transit := rfl
@[simp] theorem State.setTeam_ships (s : State) (i : ClusterId) (t : Slot) (x : Option Team) : (s.setTeam i t x).ships = s.ships := rfl
@[simp] theorem State.setTeam_mapOps (s : State) (i : ClusterId) (t : Slot) (x : Option Team) : (s.setTeam i t x).mapOps = s.mapOps := rfl
@[simp] theorem State.setTeam_maps (s : State) (i : ClusterId) (t : Slot) (x : Option Team) : (s.setTeam i t x).maps = s.maps := rfl
@[simp] theorem State.setTeam_routines (s : State) (i : ClusterId) (t : Slot) (x : Option Team) : (s.setTeam i t x).routines = s.routines := rfl
@[simp] theorem State.setTeam_tenants (s : State) (i : ClusterId) (t : Slot) (x : Option Team) : (s.setTeam i t x).tenants = s.tenants := rfl
@[simp] theorem State.setTeam_buffers (s : State) (i : ClusterId) (t : Slot) (x : Option Team) : (s.setTeam i t x).buffers = s.buffers := rfl
@[simp] theorem State.setTeam_bufctl (s : State) (i : ClusterId) (t : Slot) (x : Option Team) : (s.setTeam i t x).bufctl = s.bufctl := rfl
@[simp] theorem State.setTeam_fabid (s : State) (i : ClusterId) (t : Slot) (x : Option Team) : (s.setTeam i t x).fabid = s.fabid := rfl
@[simp] theorem State.setTeam_affmiss (s : State) (i : ClusterId) (t : Slot) (x : Option Team) : (s.setTeam i t x).affmiss = s.affmiss := rfl
@[simp] theorem State.setTeam_pwrcap (s : State) (i : ClusterId) (t : Slot) (x : Option Team) : (s.setTeam i t x).pwrcap = s.pwrcap := rfl
@[simp] theorem State.setTeam_spctl (s : State) (i : ClusterId) (t : Slot) (x : Option Team) : (s.setTeam i t x).spctl = s.spctl := rfl
@[simp] theorem State.setTeam_hsem (s : State) (i : ClusterId) (t : Slot) (x : Option Team) : (s.setTeam i t x).hsem = s.hsem := rfl
@[simp] theorem State.setTeam_hsemOrder (s : State) (i : ClusterId) (t : Slot) (x : Option Team) : (s.setTeam i t x).hsemOrder = s.hsemOrder := rfl
@[simp] theorem State.setTeam_hostq (s : State) (i : ClusterId) (t : Slot) (x : Option Team) : (s.setTeam i t x).hostq = s.hostq := rfl
@[simp] theorem State.setTeam_queues (s : State) (i : ClusterId) (t : Slot) (x : Option Team) : (s.setTeam i t x).queues = s.queues := rfl
@[simp] theorem State.setTeam_grids (s : State) (i : ClusterId) (t : Slot) (x : Option Team) : (s.setTeam i t x).grids = s.grids := rfl
@[simp] theorem State.setTeam_nextGrid (s : State) (i : ClusterId) (t : Slot) (x : Option Team) : (s.setTeam i t x).nextGrid = s.nextGrid := rfl
@[simp] theorem State.setTeam_reservations (s : State) (i : ClusterId) (t : Slot) (x : Option Team) : (s.setTeam i t x).reservations = s.reservations := rfl
@[simp] theorem State.setTeam_svc (s : State) (i : ClusterId) (t : Slot) (x : Option Team) : (s.setTeam i t x).svc = s.svc := rfl
@[simp] theorem State.setTeam_heldMsgs (s : State) (i : ClusterId) (t : Slot) (x : Option Team) : (s.setTeam i t x).heldMsgs = s.heldMsgs := rfl
@[simp] theorem State.setTeam_svcStatus (s : State) (i : ClusterId) (t : Slot) (x : Option Team) : (s.setTeam i t x).svcStatus = s.svcStatus := rfl
@[simp] theorem State.setTeam_hdm (s : State) (i : ClusterId) (t : Slot) (x : Option Team) : (s.setTeam i t x).hdm = s.hdm := rfl
@[simp] theorem State.setTeam_hostReply (s : State) (i : ClusterId) (t : Slot) (x : Option Team) : (s.setTeam i t x).hostReply = s.hostReply := rfl
@[simp] theorem State.setTeam_hostAbort (s : State) (i : ClusterId) (t : Slot) (x : Option Team) : (s.setTeam i t x).hostAbort = s.hostAbort := rfl
@[simp] theorem State.setTeam_regReply (s : State) (i : ClusterId) (t : Slot) (x : Option Team) : (s.setTeam i t x).regReply = s.regReply := rfl
@[simp] theorem State.setTeam_dies (s : State) (i : ClusterId) (t : Slot) (x : Option Team) : (s.setTeam i t x).dies = s.dies := rfl
@[simp] theorem State.setTeam_migrations (s : State) (i : ClusterId) (t : Slot) (x : Option Team) : (s.setTeam i t x).migrations = s.migrations := rfl
@[simp] theorem State.setTeam_shoots (s : State) (i : ClusterId) (t : Slot) (x : Option Team) : (s.setTeam i t x).shoots = s.shoots := rfl
@[simp] theorem State.setTeam_hbm (s : State) (i : ClusterId) (t : Slot) (x : Option Team) : (s.setTeam i t x).hbm = s.hbm := rfl
@[simp] theorem State.setTeam_mailbox (s : State) (i : ClusterId) (t : Slot) (x : Option Team) : (s.setTeam i t x).mailbox = s.mailbox := rfl
@[simp] theorem State.setTeam_tap (s : State) (i : ClusterId) (t : Slot) (x : Option Team) : (s.setTeam i t x).tap = s.tap := rfl
@[simp] theorem State.setTeam_hostLinks (s : State) (i : ClusterId) (t : Slot) (x : Option Team) : (s.setTeam i t x).hostLinks = s.hostLinks := rfl
@[simp] theorem State.setTeam_peerLinks (s : State) (i : ClusterId) (t : Slot) (x : Option Team) : (s.setTeam i t x).peerLinks = s.peerLinks := rfl

/-! ## `State.setG` -/

@[simp] theorem State.setG_now (s : State) (n : BitVec 5) (v : Word) : (s.setG n v).now = s.now := rfl
@[simp] theorem State.setG_tick (s : State) (n : BitVec 5) (v : Word) : (s.setG n v).tick = s.tick := rfl
@[simp] theorem State.setG_agenda (s : State) (n : BitVec 5) (v : Word) : (s.setG n v).agenda = s.agenda := rfl
@[simp] theorem State.setG_cur (s : State) (n : BitVec 5) (v : Word) : (s.setG n v).cur = s.cur := rfl
@[simp] theorem State.setG_cmdRef (s : State) (n : BitVec 5) (v : Word) : (s.setG n v).cmdRef = s.cmdRef := rfl
@[simp] theorem State.setG_nextSeq (s : State) (n : BitVec 5) (v : Word) : (s.setG n v).nextSeq = s.nextSeq := rfl
@[simp] theorem State.setG_power (s : State) (n : BitVec 5) (v : Word) : (s.setG n v).power = s.power := rfl
@[simp] theorem State.setG_freezeAsked (s : State) (n : BitVec 5) (v : Word) : (s.setG n v).freezeAsked = s.freezeAsked := rfl
@[simp] theorem State.setG_frozen (s : State) (n : BitVec 5) (v : Word) : (s.setG n v).frozen = s.frozen := rfl
@[simp] theorem State.setG_throttled (s : State) (n : BitVec 5) (v : Word) : (s.setG n v).throttled = s.throttled := rfl
@[simp] theorem State.setG_clusters (s : State) (n : BitVec 5) (v : Word) : (s.setG n v).clusters = s.clusters := rfl
@[simp] theorem State.setG_cmds (s : State) (n : BitVec 5) (v : Word) : (s.setG n v).cmds = s.cmds := rfl
@[simp] theorem State.setG_granules (s : State) (n : BitVec 5) (v : Word) : (s.setG n v).granules = s.granules := rfl
@[simp] theorem State.setG_packets (s : State) (n : BitVec 5) (v : Word) : (s.setG n v).packets = s.packets := rfl
@[simp] theorem State.setG_left (s : State) (n : BitVec 5) (v : Word) : (s.setG n v).left = s.left := rfl
@[simp] theorem State.setG_uses (s : State) (n : BitVec 5) (v : Word) : (s.setG n v).uses = s.uses := rfl
@[simp] theorem State.setG_abortedTurns (s : State) (n : BitVec 5) (v : Word) : (s.setG n v).abortedTurns = s.abortedTurns := rfl
@[simp] theorem State.setG_mem (s : State) (n : BitVec 5) (v : Word) : (s.setG n v).mem = s.mem := rfl
@[simp] theorem State.setG_poison (s : State) (n : BitVec 5) (v : Word) : (s.setG n v).poison = s.poison := rfl
@[simp] theorem State.setG_seals (s : State) (n : BitVec 5) (v : Word) : (s.setG n v).seals = s.seals := rfl
@[simp] theorem State.setG_transit (s : State) (n : BitVec 5) (v : Word) : (s.setG n v).transit = s.transit := rfl
@[simp] theorem State.setG_ships (s : State) (n : BitVec 5) (v : Word) : (s.setG n v).ships = s.ships := rfl
@[simp] theorem State.setG_mapOps (s : State) (n : BitVec 5) (v : Word) : (s.setG n v).mapOps = s.mapOps := rfl
@[simp] theorem State.setG_maps (s : State) (n : BitVec 5) (v : Word) : (s.setG n v).maps = s.maps := rfl
@[simp] theorem State.setG_routines (s : State) (n : BitVec 5) (v : Word) : (s.setG n v).routines = s.routines := rfl
@[simp] theorem State.setG_tenants (s : State) (n : BitVec 5) (v : Word) : (s.setG n v).tenants = s.tenants := rfl
@[simp] theorem State.setG_buffers (s : State) (n : BitVec 5) (v : Word) : (s.setG n v).buffers = s.buffers := rfl
@[simp] theorem State.setG_bufctl (s : State) (n : BitVec 5) (v : Word) : (s.setG n v).bufctl = s.bufctl := rfl
@[simp] theorem State.setG_fabid (s : State) (n : BitVec 5) (v : Word) : (s.setG n v).fabid = s.fabid := rfl
@[simp] theorem State.setG_affmiss (s : State) (n : BitVec 5) (v : Word) : (s.setG n v).affmiss = s.affmiss := rfl
@[simp] theorem State.setG_pwrcap (s : State) (n : BitVec 5) (v : Word) : (s.setG n v).pwrcap = s.pwrcap := rfl
@[simp] theorem State.setG_spctl (s : State) (n : BitVec 5) (v : Word) : (s.setG n v).spctl = s.spctl := rfl
@[simp] theorem State.setG_hsem (s : State) (n : BitVec 5) (v : Word) : (s.setG n v).hsem = s.hsem := rfl
@[simp] theorem State.setG_hsemOrder (s : State) (n : BitVec 5) (v : Word) : (s.setG n v).hsemOrder = s.hsemOrder := rfl
@[simp] theorem State.setG_hostq (s : State) (n : BitVec 5) (v : Word) : (s.setG n v).hostq = s.hostq := rfl
@[simp] theorem State.setG_queues (s : State) (n : BitVec 5) (v : Word) : (s.setG n v).queues = s.queues := rfl
@[simp] theorem State.setG_grids (s : State) (n : BitVec 5) (v : Word) : (s.setG n v).grids = s.grids := rfl
@[simp] theorem State.setG_nextGrid (s : State) (n : BitVec 5) (v : Word) : (s.setG n v).nextGrid = s.nextGrid := rfl
@[simp] theorem State.setG_reservations (s : State) (n : BitVec 5) (v : Word) : (s.setG n v).reservations = s.reservations := rfl
@[simp] theorem State.setG_svc (s : State) (n : BitVec 5) (v : Word) : (s.setG n v).svc = s.svc := rfl
@[simp] theorem State.setG_heldMsgs (s : State) (n : BitVec 5) (v : Word) : (s.setG n v).heldMsgs = s.heldMsgs := rfl
@[simp] theorem State.setG_svcStatus (s : State) (n : BitVec 5) (v : Word) : (s.setG n v).svcStatus = s.svcStatus := rfl
@[simp] theorem State.setG_hdm (s : State) (n : BitVec 5) (v : Word) : (s.setG n v).hdm = s.hdm := rfl
@[simp] theorem State.setG_hostReply (s : State) (n : BitVec 5) (v : Word) : (s.setG n v).hostReply = s.hostReply := rfl
@[simp] theorem State.setG_hostAbort (s : State) (n : BitVec 5) (v : Word) : (s.setG n v).hostAbort = s.hostAbort := rfl
@[simp] theorem State.setG_regReply (s : State) (n : BitVec 5) (v : Word) : (s.setG n v).regReply = s.regReply := rfl
@[simp] theorem State.setG_dies (s : State) (n : BitVec 5) (v : Word) : (s.setG n v).dies = s.dies := rfl
@[simp] theorem State.setG_migrations (s : State) (n : BitVec 5) (v : Word) : (s.setG n v).migrations = s.migrations := rfl
@[simp] theorem State.setG_shoots (s : State) (n : BitVec 5) (v : Word) : (s.setG n v).shoots = s.shoots := rfl
@[simp] theorem State.setG_hbm (s : State) (n : BitVec 5) (v : Word) : (s.setG n v).hbm = s.hbm := rfl
@[simp] theorem State.setG_mailbox (s : State) (n : BitVec 5) (v : Word) : (s.setG n v).mailbox = s.mailbox := rfl
@[simp] theorem State.setG_tap (s : State) (n : BitVec 5) (v : Word) : (s.setG n v).tap = s.tap := rfl
@[simp] theorem State.setG_hostLinks (s : State) (n : BitVec 5) (v : Word) : (s.setG n v).hostLinks = s.hostLinks := rfl
@[simp] theorem State.setG_peerLinks (s : State) (n : BitVec 5) (v : Word) : (s.setG n v).peerLinks = s.peerLinks := rfl

/-! ## `State.setF` -/

@[simp] theorem State.setF_now (s : State) (n : BitVec 5) (v : Word) : (s.setF n v).now = s.now := rfl
@[simp] theorem State.setF_tick (s : State) (n : BitVec 5) (v : Word) : (s.setF n v).tick = s.tick := rfl
@[simp] theorem State.setF_agenda (s : State) (n : BitVec 5) (v : Word) : (s.setF n v).agenda = s.agenda := rfl
@[simp] theorem State.setF_cur (s : State) (n : BitVec 5) (v : Word) : (s.setF n v).cur = s.cur := rfl
@[simp] theorem State.setF_cmdRef (s : State) (n : BitVec 5) (v : Word) : (s.setF n v).cmdRef = s.cmdRef := rfl
@[simp] theorem State.setF_nextSeq (s : State) (n : BitVec 5) (v : Word) : (s.setF n v).nextSeq = s.nextSeq := rfl
@[simp] theorem State.setF_power (s : State) (n : BitVec 5) (v : Word) : (s.setF n v).power = s.power := rfl
@[simp] theorem State.setF_freezeAsked (s : State) (n : BitVec 5) (v : Word) : (s.setF n v).freezeAsked = s.freezeAsked := rfl
@[simp] theorem State.setF_frozen (s : State) (n : BitVec 5) (v : Word) : (s.setF n v).frozen = s.frozen := rfl
@[simp] theorem State.setF_throttled (s : State) (n : BitVec 5) (v : Word) : (s.setF n v).throttled = s.throttled := rfl
@[simp] theorem State.setF_clusters (s : State) (n : BitVec 5) (v : Word) : (s.setF n v).clusters = s.clusters := rfl
@[simp] theorem State.setF_cmds (s : State) (n : BitVec 5) (v : Word) : (s.setF n v).cmds = s.cmds := rfl
@[simp] theorem State.setF_granules (s : State) (n : BitVec 5) (v : Word) : (s.setF n v).granules = s.granules := rfl
@[simp] theorem State.setF_packets (s : State) (n : BitVec 5) (v : Word) : (s.setF n v).packets = s.packets := rfl
@[simp] theorem State.setF_left (s : State) (n : BitVec 5) (v : Word) : (s.setF n v).left = s.left := rfl
@[simp] theorem State.setF_uses (s : State) (n : BitVec 5) (v : Word) : (s.setF n v).uses = s.uses := rfl
@[simp] theorem State.setF_abortedTurns (s : State) (n : BitVec 5) (v : Word) : (s.setF n v).abortedTurns = s.abortedTurns := rfl
@[simp] theorem State.setF_mem (s : State) (n : BitVec 5) (v : Word) : (s.setF n v).mem = s.mem := rfl
@[simp] theorem State.setF_poison (s : State) (n : BitVec 5) (v : Word) : (s.setF n v).poison = s.poison := rfl
@[simp] theorem State.setF_seals (s : State) (n : BitVec 5) (v : Word) : (s.setF n v).seals = s.seals := rfl
@[simp] theorem State.setF_transit (s : State) (n : BitVec 5) (v : Word) : (s.setF n v).transit = s.transit := rfl
@[simp] theorem State.setF_ships (s : State) (n : BitVec 5) (v : Word) : (s.setF n v).ships = s.ships := rfl
@[simp] theorem State.setF_mapOps (s : State) (n : BitVec 5) (v : Word) : (s.setF n v).mapOps = s.mapOps := rfl
@[simp] theorem State.setF_maps (s : State) (n : BitVec 5) (v : Word) : (s.setF n v).maps = s.maps := rfl
@[simp] theorem State.setF_routines (s : State) (n : BitVec 5) (v : Word) : (s.setF n v).routines = s.routines := rfl
@[simp] theorem State.setF_tenants (s : State) (n : BitVec 5) (v : Word) : (s.setF n v).tenants = s.tenants := rfl
@[simp] theorem State.setF_buffers (s : State) (n : BitVec 5) (v : Word) : (s.setF n v).buffers = s.buffers := rfl
@[simp] theorem State.setF_bufctl (s : State) (n : BitVec 5) (v : Word) : (s.setF n v).bufctl = s.bufctl := rfl
@[simp] theorem State.setF_fabid (s : State) (n : BitVec 5) (v : Word) : (s.setF n v).fabid = s.fabid := rfl
@[simp] theorem State.setF_affmiss (s : State) (n : BitVec 5) (v : Word) : (s.setF n v).affmiss = s.affmiss := rfl
@[simp] theorem State.setF_pwrcap (s : State) (n : BitVec 5) (v : Word) : (s.setF n v).pwrcap = s.pwrcap := rfl
@[simp] theorem State.setF_spctl (s : State) (n : BitVec 5) (v : Word) : (s.setF n v).spctl = s.spctl := rfl
@[simp] theorem State.setF_hsem (s : State) (n : BitVec 5) (v : Word) : (s.setF n v).hsem = s.hsem := rfl
@[simp] theorem State.setF_hsemOrder (s : State) (n : BitVec 5) (v : Word) : (s.setF n v).hsemOrder = s.hsemOrder := rfl
@[simp] theorem State.setF_hostq (s : State) (n : BitVec 5) (v : Word) : (s.setF n v).hostq = s.hostq := rfl
@[simp] theorem State.setF_queues (s : State) (n : BitVec 5) (v : Word) : (s.setF n v).queues = s.queues := rfl
@[simp] theorem State.setF_grids (s : State) (n : BitVec 5) (v : Word) : (s.setF n v).grids = s.grids := rfl
@[simp] theorem State.setF_nextGrid (s : State) (n : BitVec 5) (v : Word) : (s.setF n v).nextGrid = s.nextGrid := rfl
@[simp] theorem State.setF_reservations (s : State) (n : BitVec 5) (v : Word) : (s.setF n v).reservations = s.reservations := rfl
@[simp] theorem State.setF_svc (s : State) (n : BitVec 5) (v : Word) : (s.setF n v).svc = s.svc := rfl
@[simp] theorem State.setF_heldMsgs (s : State) (n : BitVec 5) (v : Word) : (s.setF n v).heldMsgs = s.heldMsgs := rfl
@[simp] theorem State.setF_svcStatus (s : State) (n : BitVec 5) (v : Word) : (s.setF n v).svcStatus = s.svcStatus := rfl
@[simp] theorem State.setF_hdm (s : State) (n : BitVec 5) (v : Word) : (s.setF n v).hdm = s.hdm := rfl
@[simp] theorem State.setF_hostReply (s : State) (n : BitVec 5) (v : Word) : (s.setF n v).hostReply = s.hostReply := rfl
@[simp] theorem State.setF_hostAbort (s : State) (n : BitVec 5) (v : Word) : (s.setF n v).hostAbort = s.hostAbort := rfl
@[simp] theorem State.setF_regReply (s : State) (n : BitVec 5) (v : Word) : (s.setF n v).regReply = s.regReply := rfl
@[simp] theorem State.setF_dies (s : State) (n : BitVec 5) (v : Word) : (s.setF n v).dies = s.dies := rfl
@[simp] theorem State.setF_migrations (s : State) (n : BitVec 5) (v : Word) : (s.setF n v).migrations = s.migrations := rfl
@[simp] theorem State.setF_shoots (s : State) (n : BitVec 5) (v : Word) : (s.setF n v).shoots = s.shoots := rfl
@[simp] theorem State.setF_hbm (s : State) (n : BitVec 5) (v : Word) : (s.setF n v).hbm = s.hbm := rfl
@[simp] theorem State.setF_mailbox (s : State) (n : BitVec 5) (v : Word) : (s.setF n v).mailbox = s.mailbox := rfl
@[simp] theorem State.setF_tap (s : State) (n : BitVec 5) (v : Word) : (s.setF n v).tap = s.tap := rfl
@[simp] theorem State.setF_hostLinks (s : State) (n : BitVec 5) (v : Word) : (s.setF n v).hostLinks = s.hostLinks := rfl
@[simp] theorem State.setF_peerLinks (s : State) (n : BitVec 5) (v : Word) : (s.setF n v).peerLinks = s.peerLinks := rfl

/-! ## `State.retire` -/

@[simp] theorem State.retire_now (s : State) : (s.retire).now = s.now := rfl
@[simp] theorem State.retire_tick (s : State) : (s.retire).tick = s.tick := rfl
@[simp] theorem State.retire_agenda (s : State) : (s.retire).agenda = s.agenda := rfl
@[simp] theorem State.retire_cur (s : State) : (s.retire).cur = s.cur := rfl
@[simp] theorem State.retire_cmdRef (s : State) : (s.retire).cmdRef = s.cmdRef := rfl
@[simp] theorem State.retire_nextSeq (s : State) : (s.retire).nextSeq = s.nextSeq := rfl
@[simp] theorem State.retire_power (s : State) : (s.retire).power = s.power := rfl
@[simp] theorem State.retire_freezeAsked (s : State) : (s.retire).freezeAsked = s.freezeAsked := rfl
@[simp] theorem State.retire_frozen (s : State) : (s.retire).frozen = s.frozen := rfl
@[simp] theorem State.retire_throttled (s : State) : (s.retire).throttled = s.throttled := rfl
@[simp] theorem State.retire_clusters (s : State) : (s.retire).clusters = s.clusters := rfl
@[simp] theorem State.retire_cmds (s : State) : (s.retire).cmds = s.cmds := rfl
@[simp] theorem State.retire_granules (s : State) : (s.retire).granules = s.granules := rfl
@[simp] theorem State.retire_packets (s : State) : (s.retire).packets = s.packets := rfl
@[simp] theorem State.retire_left (s : State) : (s.retire).left = s.left := rfl
@[simp] theorem State.retire_uses (s : State) : (s.retire).uses = s.uses := rfl
@[simp] theorem State.retire_abortedTurns (s : State) : (s.retire).abortedTurns = s.abortedTurns := rfl
@[simp] theorem State.retire_mem (s : State) : (s.retire).mem = s.mem := rfl
@[simp] theorem State.retire_poison (s : State) : (s.retire).poison = s.poison := rfl
@[simp] theorem State.retire_seals (s : State) : (s.retire).seals = s.seals := rfl
@[simp] theorem State.retire_transit (s : State) : (s.retire).transit = s.transit := rfl
@[simp] theorem State.retire_ships (s : State) : (s.retire).ships = s.ships := rfl
@[simp] theorem State.retire_mapOps (s : State) : (s.retire).mapOps = s.mapOps := rfl
@[simp] theorem State.retire_maps (s : State) : (s.retire).maps = s.maps := rfl
@[simp] theorem State.retire_routines (s : State) : (s.retire).routines = s.routines := rfl
@[simp] theorem State.retire_tenants (s : State) : (s.retire).tenants = s.tenants := rfl
@[simp] theorem State.retire_buffers (s : State) : (s.retire).buffers = s.buffers := rfl
@[simp] theorem State.retire_bufctl (s : State) : (s.retire).bufctl = s.bufctl := rfl
@[simp] theorem State.retire_fabid (s : State) : (s.retire).fabid = s.fabid := rfl
@[simp] theorem State.retire_affmiss (s : State) : (s.retire).affmiss = s.affmiss := rfl
@[simp] theorem State.retire_pwrcap (s : State) : (s.retire).pwrcap = s.pwrcap := rfl
@[simp] theorem State.retire_spctl (s : State) : (s.retire).spctl = s.spctl := rfl
@[simp] theorem State.retire_hsem (s : State) : (s.retire).hsem = s.hsem := rfl
@[simp] theorem State.retire_hsemOrder (s : State) : (s.retire).hsemOrder = s.hsemOrder := rfl
@[simp] theorem State.retire_hostq (s : State) : (s.retire).hostq = s.hostq := rfl
@[simp] theorem State.retire_queues (s : State) : (s.retire).queues = s.queues := rfl
@[simp] theorem State.retire_grids (s : State) : (s.retire).grids = s.grids := rfl
@[simp] theorem State.retire_nextGrid (s : State) : (s.retire).nextGrid = s.nextGrid := rfl
@[simp] theorem State.retire_reservations (s : State) : (s.retire).reservations = s.reservations := rfl
@[simp] theorem State.retire_svc (s : State) : (s.retire).svc = s.svc := rfl
@[simp] theorem State.retire_heldMsgs (s : State) : (s.retire).heldMsgs = s.heldMsgs := rfl
@[simp] theorem State.retire_svcStatus (s : State) : (s.retire).svcStatus = s.svcStatus := rfl
@[simp] theorem State.retire_hdm (s : State) : (s.retire).hdm = s.hdm := rfl
@[simp] theorem State.retire_hostReply (s : State) : (s.retire).hostReply = s.hostReply := rfl
@[simp] theorem State.retire_hostAbort (s : State) : (s.retire).hostAbort = s.hostAbort := rfl
@[simp] theorem State.retire_regReply (s : State) : (s.retire).regReply = s.regReply := rfl
@[simp] theorem State.retire_dies (s : State) : (s.retire).dies = s.dies := rfl
@[simp] theorem State.retire_migrations (s : State) : (s.retire).migrations = s.migrations := rfl
@[simp] theorem State.retire_shoots (s : State) : (s.retire).shoots = s.shoots := rfl
@[simp] theorem State.retire_hbm (s : State) : (s.retire).hbm = s.hbm := rfl
@[simp] theorem State.retire_mailbox (s : State) : (s.retire).mailbox = s.mailbox := rfl
@[simp] theorem State.retire_tap (s : State) : (s.retire).tap = s.tap := rfl
@[simp] theorem State.retire_hostLinks (s : State) : (s.retire).hostLinks = s.hostLinks := rfl
@[simp] theorem State.retire_peerLinks (s : State) : (s.retire).peerLinks = s.peerLinks := rfl

/-! ## `State.setCmd` -/

@[simp] theorem State.setCmd_now (s : State) (n : Nat) (f : Cmd → Cmd) : (s.setCmd n f).now = s.now := rfl
@[simp] theorem State.setCmd_tick (s : State) (n : Nat) (f : Cmd → Cmd) : (s.setCmd n f).tick = s.tick := rfl
@[simp] theorem State.setCmd_agenda (s : State) (n : Nat) (f : Cmd → Cmd) : (s.setCmd n f).agenda = s.agenda := rfl
@[simp] theorem State.setCmd_cur (s : State) (n : Nat) (f : Cmd → Cmd) : (s.setCmd n f).cur = s.cur := rfl
@[simp] theorem State.setCmd_cmdRef (s : State) (n : Nat) (f : Cmd → Cmd) : (s.setCmd n f).cmdRef = s.cmdRef := rfl
@[simp] theorem State.setCmd_nextSeq (s : State) (n : Nat) (f : Cmd → Cmd) : (s.setCmd n f).nextSeq = s.nextSeq := rfl
@[simp] theorem State.setCmd_power (s : State) (n : Nat) (f : Cmd → Cmd) : (s.setCmd n f).power = s.power := rfl
@[simp] theorem State.setCmd_freezeAsked (s : State) (n : Nat) (f : Cmd → Cmd) : (s.setCmd n f).freezeAsked = s.freezeAsked := rfl
@[simp] theorem State.setCmd_frozen (s : State) (n : Nat) (f : Cmd → Cmd) : (s.setCmd n f).frozen = s.frozen := rfl
@[simp] theorem State.setCmd_throttled (s : State) (n : Nat) (f : Cmd → Cmd) : (s.setCmd n f).throttled = s.throttled := rfl
@[simp] theorem State.setCmd_cores (s : State) (n : Nat) (f : Cmd → Cmd) : (s.setCmd n f).cores = s.cores := rfl
@[simp] theorem State.setCmd_clusters (s : State) (n : Nat) (f : Cmd → Cmd) : (s.setCmd n f).clusters = s.clusters := rfl
@[simp] theorem State.setCmd_granules (s : State) (n : Nat) (f : Cmd → Cmd) : (s.setCmd n f).granules = s.granules := rfl
@[simp] theorem State.setCmd_packets (s : State) (n : Nat) (f : Cmd → Cmd) : (s.setCmd n f).packets = s.packets := rfl
@[simp] theorem State.setCmd_left (s : State) (n : Nat) (f : Cmd → Cmd) : (s.setCmd n f).left = s.left := rfl
@[simp] theorem State.setCmd_uses (s : State) (n : Nat) (f : Cmd → Cmd) : (s.setCmd n f).uses = s.uses := rfl
@[simp] theorem State.setCmd_abortedTurns (s : State) (n : Nat) (f : Cmd → Cmd) : (s.setCmd n f).abortedTurns = s.abortedTurns := rfl
@[simp] theorem State.setCmd_mem (s : State) (n : Nat) (f : Cmd → Cmd) : (s.setCmd n f).mem = s.mem := rfl
@[simp] theorem State.setCmd_poison (s : State) (n : Nat) (f : Cmd → Cmd) : (s.setCmd n f).poison = s.poison := rfl
@[simp] theorem State.setCmd_seals (s : State) (n : Nat) (f : Cmd → Cmd) : (s.setCmd n f).seals = s.seals := rfl
@[simp] theorem State.setCmd_transit (s : State) (n : Nat) (f : Cmd → Cmd) : (s.setCmd n f).transit = s.transit := rfl
@[simp] theorem State.setCmd_ships (s : State) (n : Nat) (f : Cmd → Cmd) : (s.setCmd n f).ships = s.ships := rfl
@[simp] theorem State.setCmd_mapOps (s : State) (n : Nat) (f : Cmd → Cmd) : (s.setCmd n f).mapOps = s.mapOps := rfl
@[simp] theorem State.setCmd_maps (s : State) (n : Nat) (f : Cmd → Cmd) : (s.setCmd n f).maps = s.maps := rfl
@[simp] theorem State.setCmd_routines (s : State) (n : Nat) (f : Cmd → Cmd) : (s.setCmd n f).routines = s.routines := rfl
@[simp] theorem State.setCmd_tenants (s : State) (n : Nat) (f : Cmd → Cmd) : (s.setCmd n f).tenants = s.tenants := rfl
@[simp] theorem State.setCmd_buffers (s : State) (n : Nat) (f : Cmd → Cmd) : (s.setCmd n f).buffers = s.buffers := rfl
@[simp] theorem State.setCmd_bufctl (s : State) (n : Nat) (f : Cmd → Cmd) : (s.setCmd n f).bufctl = s.bufctl := rfl
@[simp] theorem State.setCmd_fabid (s : State) (n : Nat) (f : Cmd → Cmd) : (s.setCmd n f).fabid = s.fabid := rfl
@[simp] theorem State.setCmd_affmiss (s : State) (n : Nat) (f : Cmd → Cmd) : (s.setCmd n f).affmiss = s.affmiss := rfl
@[simp] theorem State.setCmd_pwrcap (s : State) (n : Nat) (f : Cmd → Cmd) : (s.setCmd n f).pwrcap = s.pwrcap := rfl
@[simp] theorem State.setCmd_spctl (s : State) (n : Nat) (f : Cmd → Cmd) : (s.setCmd n f).spctl = s.spctl := rfl
@[simp] theorem State.setCmd_hsem (s : State) (n : Nat) (f : Cmd → Cmd) : (s.setCmd n f).hsem = s.hsem := rfl
@[simp] theorem State.setCmd_hsemOrder (s : State) (n : Nat) (f : Cmd → Cmd) : (s.setCmd n f).hsemOrder = s.hsemOrder := rfl
@[simp] theorem State.setCmd_hostq (s : State) (n : Nat) (f : Cmd → Cmd) : (s.setCmd n f).hostq = s.hostq := rfl
@[simp] theorem State.setCmd_queues (s : State) (n : Nat) (f : Cmd → Cmd) : (s.setCmd n f).queues = s.queues := rfl
@[simp] theorem State.setCmd_grids (s : State) (n : Nat) (f : Cmd → Cmd) : (s.setCmd n f).grids = s.grids := rfl
@[simp] theorem State.setCmd_nextGrid (s : State) (n : Nat) (f : Cmd → Cmd) : (s.setCmd n f).nextGrid = s.nextGrid := rfl
@[simp] theorem State.setCmd_reservations (s : State) (n : Nat) (f : Cmd → Cmd) : (s.setCmd n f).reservations = s.reservations := rfl
@[simp] theorem State.setCmd_svc (s : State) (n : Nat) (f : Cmd → Cmd) : (s.setCmd n f).svc = s.svc := rfl
@[simp] theorem State.setCmd_heldMsgs (s : State) (n : Nat) (f : Cmd → Cmd) : (s.setCmd n f).heldMsgs = s.heldMsgs := rfl
@[simp] theorem State.setCmd_svcStatus (s : State) (n : Nat) (f : Cmd → Cmd) : (s.setCmd n f).svcStatus = s.svcStatus := rfl
@[simp] theorem State.setCmd_hdm (s : State) (n : Nat) (f : Cmd → Cmd) : (s.setCmd n f).hdm = s.hdm := rfl
@[simp] theorem State.setCmd_hostReply (s : State) (n : Nat) (f : Cmd → Cmd) : (s.setCmd n f).hostReply = s.hostReply := rfl
@[simp] theorem State.setCmd_hostAbort (s : State) (n : Nat) (f : Cmd → Cmd) : (s.setCmd n f).hostAbort = s.hostAbort := rfl
@[simp] theorem State.setCmd_regReply (s : State) (n : Nat) (f : Cmd → Cmd) : (s.setCmd n f).regReply = s.regReply := rfl
@[simp] theorem State.setCmd_dies (s : State) (n : Nat) (f : Cmd → Cmd) : (s.setCmd n f).dies = s.dies := rfl
@[simp] theorem State.setCmd_migrations (s : State) (n : Nat) (f : Cmd → Cmd) : (s.setCmd n f).migrations = s.migrations := rfl
@[simp] theorem State.setCmd_shoots (s : State) (n : Nat) (f : Cmd → Cmd) : (s.setCmd n f).shoots = s.shoots := rfl
@[simp] theorem State.setCmd_hbm (s : State) (n : Nat) (f : Cmd → Cmd) : (s.setCmd n f).hbm = s.hbm := rfl
@[simp] theorem State.setCmd_mailbox (s : State) (n : Nat) (f : Cmd → Cmd) : (s.setCmd n f).mailbox = s.mailbox := rfl
@[simp] theorem State.setCmd_tap (s : State) (n : Nat) (f : Cmd → Cmd) : (s.setCmd n f).tap = s.tap := rfl
@[simp] theorem State.setCmd_hostLinks (s : State) (n : Nat) (f : Cmd → Cmd) : (s.setCmd n f).hostLinks = s.hostLinks := rfl
@[simp] theorem State.setCmd_peerLinks (s : State) (n : Nat) (f : Cmd → Cmd) : (s.setCmd n f).peerLinks = s.peerLinks := rfl

/-! ## `State.setTenant` -/

@[simp] theorem State.setTenant_now (s : State) (a : BitVec 12) (t : Tenant) : (s.setTenant a t).now = s.now := rfl
@[simp] theorem State.setTenant_tick (s : State) (a : BitVec 12) (t : Tenant) : (s.setTenant a t).tick = s.tick := rfl
@[simp] theorem State.setTenant_agenda (s : State) (a : BitVec 12) (t : Tenant) : (s.setTenant a t).agenda = s.agenda := rfl
@[simp] theorem State.setTenant_cur (s : State) (a : BitVec 12) (t : Tenant) : (s.setTenant a t).cur = s.cur := rfl
@[simp] theorem State.setTenant_cmdRef (s : State) (a : BitVec 12) (t : Tenant) : (s.setTenant a t).cmdRef = s.cmdRef := rfl
@[simp] theorem State.setTenant_nextSeq (s : State) (a : BitVec 12) (t : Tenant) : (s.setTenant a t).nextSeq = s.nextSeq := rfl
@[simp] theorem State.setTenant_power (s : State) (a : BitVec 12) (t : Tenant) : (s.setTenant a t).power = s.power := rfl
@[simp] theorem State.setTenant_freezeAsked (s : State) (a : BitVec 12) (t : Tenant) : (s.setTenant a t).freezeAsked = s.freezeAsked := rfl
@[simp] theorem State.setTenant_frozen (s : State) (a : BitVec 12) (t : Tenant) : (s.setTenant a t).frozen = s.frozen := rfl
@[simp] theorem State.setTenant_throttled (s : State) (a : BitVec 12) (t : Tenant) : (s.setTenant a t).throttled = s.throttled := rfl
@[simp] theorem State.setTenant_cores (s : State) (a : BitVec 12) (t : Tenant) : (s.setTenant a t).cores = s.cores := rfl
@[simp] theorem State.setTenant_clusters (s : State) (a : BitVec 12) (t : Tenant) : (s.setTenant a t).clusters = s.clusters := rfl
@[simp] theorem State.setTenant_cmds (s : State) (a : BitVec 12) (t : Tenant) : (s.setTenant a t).cmds = s.cmds := rfl
@[simp] theorem State.setTenant_granules (s : State) (a : BitVec 12) (t : Tenant) : (s.setTenant a t).granules = s.granules := rfl
@[simp] theorem State.setTenant_packets (s : State) (a : BitVec 12) (t : Tenant) : (s.setTenant a t).packets = s.packets := rfl
@[simp] theorem State.setTenant_left (s : State) (a : BitVec 12) (t : Tenant) : (s.setTenant a t).left = s.left := rfl
@[simp] theorem State.setTenant_uses (s : State) (a : BitVec 12) (t : Tenant) : (s.setTenant a t).uses = s.uses := rfl
@[simp] theorem State.setTenant_abortedTurns (s : State) (a : BitVec 12) (t : Tenant) : (s.setTenant a t).abortedTurns = s.abortedTurns := rfl
@[simp] theorem State.setTenant_mem (s : State) (a : BitVec 12) (t : Tenant) : (s.setTenant a t).mem = s.mem := rfl
@[simp] theorem State.setTenant_poison (s : State) (a : BitVec 12) (t : Tenant) : (s.setTenant a t).poison = s.poison := rfl
@[simp] theorem State.setTenant_seals (s : State) (a : BitVec 12) (t : Tenant) : (s.setTenant a t).seals = s.seals := rfl
@[simp] theorem State.setTenant_transit (s : State) (a : BitVec 12) (t : Tenant) : (s.setTenant a t).transit = s.transit := rfl
@[simp] theorem State.setTenant_ships (s : State) (a : BitVec 12) (t : Tenant) : (s.setTenant a t).ships = s.ships := rfl
@[simp] theorem State.setTenant_mapOps (s : State) (a : BitVec 12) (t : Tenant) : (s.setTenant a t).mapOps = s.mapOps := rfl
@[simp] theorem State.setTenant_maps (s : State) (a : BitVec 12) (t : Tenant) : (s.setTenant a t).maps = s.maps := rfl
@[simp] theorem State.setTenant_routines (s : State) (a : BitVec 12) (t : Tenant) : (s.setTenant a t).routines = s.routines := rfl
@[simp] theorem State.setTenant_buffers (s : State) (a : BitVec 12) (t : Tenant) : (s.setTenant a t).buffers = s.buffers := rfl
@[simp] theorem State.setTenant_bufctl (s : State) (a : BitVec 12) (t : Tenant) : (s.setTenant a t).bufctl = s.bufctl := rfl
@[simp] theorem State.setTenant_fabid (s : State) (a : BitVec 12) (t : Tenant) : (s.setTenant a t).fabid = s.fabid := rfl
@[simp] theorem State.setTenant_affmiss (s : State) (a : BitVec 12) (t : Tenant) : (s.setTenant a t).affmiss = s.affmiss := rfl
@[simp] theorem State.setTenant_pwrcap (s : State) (a : BitVec 12) (t : Tenant) : (s.setTenant a t).pwrcap = s.pwrcap := rfl
@[simp] theorem State.setTenant_spctl (s : State) (a : BitVec 12) (t : Tenant) : (s.setTenant a t).spctl = s.spctl := rfl
@[simp] theorem State.setTenant_hsem (s : State) (a : BitVec 12) (t : Tenant) : (s.setTenant a t).hsem = s.hsem := rfl
@[simp] theorem State.setTenant_hsemOrder (s : State) (a : BitVec 12) (t : Tenant) : (s.setTenant a t).hsemOrder = s.hsemOrder := rfl
@[simp] theorem State.setTenant_hostq (s : State) (a : BitVec 12) (t : Tenant) : (s.setTenant a t).hostq = s.hostq := rfl
@[simp] theorem State.setTenant_queues (s : State) (a : BitVec 12) (t : Tenant) : (s.setTenant a t).queues = s.queues := rfl
@[simp] theorem State.setTenant_grids (s : State) (a : BitVec 12) (t : Tenant) : (s.setTenant a t).grids = s.grids := rfl
@[simp] theorem State.setTenant_nextGrid (s : State) (a : BitVec 12) (t : Tenant) : (s.setTenant a t).nextGrid = s.nextGrid := rfl
@[simp] theorem State.setTenant_reservations (s : State) (a : BitVec 12) (t : Tenant) : (s.setTenant a t).reservations = s.reservations := rfl
@[simp] theorem State.setTenant_svc (s : State) (a : BitVec 12) (t : Tenant) : (s.setTenant a t).svc = s.svc := rfl
@[simp] theorem State.setTenant_heldMsgs (s : State) (a : BitVec 12) (t : Tenant) : (s.setTenant a t).heldMsgs = s.heldMsgs := rfl
@[simp] theorem State.setTenant_svcStatus (s : State) (a : BitVec 12) (t : Tenant) : (s.setTenant a t).svcStatus = s.svcStatus := rfl
@[simp] theorem State.setTenant_hdm (s : State) (a : BitVec 12) (t : Tenant) : (s.setTenant a t).hdm = s.hdm := rfl
@[simp] theorem State.setTenant_hostReply (s : State) (a : BitVec 12) (t : Tenant) : (s.setTenant a t).hostReply = s.hostReply := rfl
@[simp] theorem State.setTenant_hostAbort (s : State) (a : BitVec 12) (t : Tenant) : (s.setTenant a t).hostAbort = s.hostAbort := rfl
@[simp] theorem State.setTenant_regReply (s : State) (a : BitVec 12) (t : Tenant) : (s.setTenant a t).regReply = s.regReply := rfl
@[simp] theorem State.setTenant_dies (s : State) (a : BitVec 12) (t : Tenant) : (s.setTenant a t).dies = s.dies := rfl
@[simp] theorem State.setTenant_migrations (s : State) (a : BitVec 12) (t : Tenant) : (s.setTenant a t).migrations = s.migrations := rfl
@[simp] theorem State.setTenant_shoots (s : State) (a : BitVec 12) (t : Tenant) : (s.setTenant a t).shoots = s.shoots := rfl
@[simp] theorem State.setTenant_hbm (s : State) (a : BitVec 12) (t : Tenant) : (s.setTenant a t).hbm = s.hbm := rfl
@[simp] theorem State.setTenant_mailbox (s : State) (a : BitVec 12) (t : Tenant) : (s.setTenant a t).mailbox = s.mailbox := rfl
@[simp] theorem State.setTenant_tap (s : State) (a : BitVec 12) (t : Tenant) : (s.setTenant a t).tap = s.tap := rfl
@[simp] theorem State.setTenant_hostLinks (s : State) (a : BitVec 12) (t : Tenant) : (s.setTenant a t).hostLinks = s.hostLinks := rfl
@[simp] theorem State.setTenant_peerLinks (s : State) (a : BitVec 12) (t : Tenant) : (s.setTenant a t).peerLinks = s.peerLinks := rfl

/-! ## `State.svcPush` -/

@[simp] theorem State.svcPush_now (s : State) (v : ServiceId) (e : SvcEntry) : (s.svcPush v e).now = s.now := rfl
@[simp] theorem State.svcPush_tick (s : State) (v : ServiceId) (e : SvcEntry) : (s.svcPush v e).tick = s.tick := rfl
@[simp] theorem State.svcPush_agenda (s : State) (v : ServiceId) (e : SvcEntry) : (s.svcPush v e).agenda = s.agenda := rfl
@[simp] theorem State.svcPush_cur (s : State) (v : ServiceId) (e : SvcEntry) : (s.svcPush v e).cur = s.cur := rfl
@[simp] theorem State.svcPush_cmdRef (s : State) (v : ServiceId) (e : SvcEntry) : (s.svcPush v e).cmdRef = s.cmdRef := rfl
@[simp] theorem State.svcPush_nextSeq (s : State) (v : ServiceId) (e : SvcEntry) : (s.svcPush v e).nextSeq = s.nextSeq := rfl
@[simp] theorem State.svcPush_power (s : State) (v : ServiceId) (e : SvcEntry) : (s.svcPush v e).power = s.power := rfl
@[simp] theorem State.svcPush_freezeAsked (s : State) (v : ServiceId) (e : SvcEntry) : (s.svcPush v e).freezeAsked = s.freezeAsked := rfl
@[simp] theorem State.svcPush_frozen (s : State) (v : ServiceId) (e : SvcEntry) : (s.svcPush v e).frozen = s.frozen := rfl
@[simp] theorem State.svcPush_throttled (s : State) (v : ServiceId) (e : SvcEntry) : (s.svcPush v e).throttled = s.throttled := rfl
@[simp] theorem State.svcPush_cores (s : State) (v : ServiceId) (e : SvcEntry) : (s.svcPush v e).cores = s.cores := rfl
@[simp] theorem State.svcPush_clusters (s : State) (v : ServiceId) (e : SvcEntry) : (s.svcPush v e).clusters = s.clusters := rfl
@[simp] theorem State.svcPush_cmds (s : State) (v : ServiceId) (e : SvcEntry) : (s.svcPush v e).cmds = s.cmds := rfl
@[simp] theorem State.svcPush_granules (s : State) (v : ServiceId) (e : SvcEntry) : (s.svcPush v e).granules = s.granules := rfl
@[simp] theorem State.svcPush_packets (s : State) (v : ServiceId) (e : SvcEntry) : (s.svcPush v e).packets = s.packets := rfl
@[simp] theorem State.svcPush_left (s : State) (v : ServiceId) (e : SvcEntry) : (s.svcPush v e).left = s.left := rfl
@[simp] theorem State.svcPush_uses (s : State) (v : ServiceId) (e : SvcEntry) : (s.svcPush v e).uses = s.uses := rfl
@[simp] theorem State.svcPush_abortedTurns (s : State) (v : ServiceId) (e : SvcEntry) : (s.svcPush v e).abortedTurns = s.abortedTurns := rfl
@[simp] theorem State.svcPush_mem (s : State) (v : ServiceId) (e : SvcEntry) : (s.svcPush v e).mem = s.mem := rfl
@[simp] theorem State.svcPush_poison (s : State) (v : ServiceId) (e : SvcEntry) : (s.svcPush v e).poison = s.poison := rfl
@[simp] theorem State.svcPush_seals (s : State) (v : ServiceId) (e : SvcEntry) : (s.svcPush v e).seals = s.seals := rfl
@[simp] theorem State.svcPush_transit (s : State) (v : ServiceId) (e : SvcEntry) : (s.svcPush v e).transit = s.transit := rfl
@[simp] theorem State.svcPush_ships (s : State) (v : ServiceId) (e : SvcEntry) : (s.svcPush v e).ships = s.ships := rfl
@[simp] theorem State.svcPush_mapOps (s : State) (v : ServiceId) (e : SvcEntry) : (s.svcPush v e).mapOps = s.mapOps := rfl
@[simp] theorem State.svcPush_maps (s : State) (v : ServiceId) (e : SvcEntry) : (s.svcPush v e).maps = s.maps := rfl
@[simp] theorem State.svcPush_routines (s : State) (v : ServiceId) (e : SvcEntry) : (s.svcPush v e).routines = s.routines := rfl
@[simp] theorem State.svcPush_tenants (s : State) (v : ServiceId) (e : SvcEntry) : (s.svcPush v e).tenants = s.tenants := rfl
@[simp] theorem State.svcPush_buffers (s : State) (v : ServiceId) (e : SvcEntry) : (s.svcPush v e).buffers = s.buffers := rfl
@[simp] theorem State.svcPush_bufctl (s : State) (v : ServiceId) (e : SvcEntry) : (s.svcPush v e).bufctl = s.bufctl := rfl
@[simp] theorem State.svcPush_fabid (s : State) (v : ServiceId) (e : SvcEntry) : (s.svcPush v e).fabid = s.fabid := rfl
@[simp] theorem State.svcPush_affmiss (s : State) (v : ServiceId) (e : SvcEntry) : (s.svcPush v e).affmiss = s.affmiss := rfl
@[simp] theorem State.svcPush_pwrcap (s : State) (v : ServiceId) (e : SvcEntry) : (s.svcPush v e).pwrcap = s.pwrcap := rfl
@[simp] theorem State.svcPush_spctl (s : State) (v : ServiceId) (e : SvcEntry) : (s.svcPush v e).spctl = s.spctl := rfl
@[simp] theorem State.svcPush_hsem (s : State) (v : ServiceId) (e : SvcEntry) : (s.svcPush v e).hsem = s.hsem := rfl
@[simp] theorem State.svcPush_hsemOrder (s : State) (v : ServiceId) (e : SvcEntry) : (s.svcPush v e).hsemOrder = s.hsemOrder := rfl
@[simp] theorem State.svcPush_hostq (s : State) (v : ServiceId) (e : SvcEntry) : (s.svcPush v e).hostq = s.hostq := rfl
@[simp] theorem State.svcPush_queues (s : State) (v : ServiceId) (e : SvcEntry) : (s.svcPush v e).queues = s.queues := rfl
@[simp] theorem State.svcPush_grids (s : State) (v : ServiceId) (e : SvcEntry) : (s.svcPush v e).grids = s.grids := rfl
@[simp] theorem State.svcPush_nextGrid (s : State) (v : ServiceId) (e : SvcEntry) : (s.svcPush v e).nextGrid = s.nextGrid := rfl
@[simp] theorem State.svcPush_reservations (s : State) (v : ServiceId) (e : SvcEntry) : (s.svcPush v e).reservations = s.reservations := rfl
@[simp] theorem State.svcPush_heldMsgs (s : State) (v : ServiceId) (e : SvcEntry) : (s.svcPush v e).heldMsgs = s.heldMsgs := rfl
@[simp] theorem State.svcPush_svcStatus (s : State) (v : ServiceId) (e : SvcEntry) : (s.svcPush v e).svcStatus = s.svcStatus := rfl
@[simp] theorem State.svcPush_hdm (s : State) (v : ServiceId) (e : SvcEntry) : (s.svcPush v e).hdm = s.hdm := rfl
@[simp] theorem State.svcPush_hostReply (s : State) (v : ServiceId) (e : SvcEntry) : (s.svcPush v e).hostReply = s.hostReply := rfl
@[simp] theorem State.svcPush_hostAbort (s : State) (v : ServiceId) (e : SvcEntry) : (s.svcPush v e).hostAbort = s.hostAbort := rfl
@[simp] theorem State.svcPush_regReply (s : State) (v : ServiceId) (e : SvcEntry) : (s.svcPush v e).regReply = s.regReply := rfl
@[simp] theorem State.svcPush_dies (s : State) (v : ServiceId) (e : SvcEntry) : (s.svcPush v e).dies = s.dies := rfl
@[simp] theorem State.svcPush_migrations (s : State) (v : ServiceId) (e : SvcEntry) : (s.svcPush v e).migrations = s.migrations := rfl
@[simp] theorem State.svcPush_shoots (s : State) (v : ServiceId) (e : SvcEntry) : (s.svcPush v e).shoots = s.shoots := rfl
@[simp] theorem State.svcPush_hbm (s : State) (v : ServiceId) (e : SvcEntry) : (s.svcPush v e).hbm = s.hbm := rfl
@[simp] theorem State.svcPush_mailbox (s : State) (v : ServiceId) (e : SvcEntry) : (s.svcPush v e).mailbox = s.mailbox := rfl
@[simp] theorem State.svcPush_tap (s : State) (v : ServiceId) (e : SvcEntry) : (s.svcPush v e).tap = s.tap := rfl
@[simp] theorem State.svcPush_hostLinks (s : State) (v : ServiceId) (e : SvcEntry) : (s.svcPush v e).hostLinks = s.hostLinks := rfl
@[simp] theorem State.svcPush_peerLinks (s : State) (v : ServiceId) (e : SvcEntry) : (s.svcPush v e).peerLinks = s.peerLinks := rfl

/-! ## `State.countBuddies` -/

@[simp] theorem State.countBuddies_now (s : State) (l : List Nat) : (s.countBuddies l).now = s.now := rfl
@[simp] theorem State.countBuddies_tick (s : State) (l : List Nat) : (s.countBuddies l).tick = s.tick := rfl
@[simp] theorem State.countBuddies_agenda (s : State) (l : List Nat) : (s.countBuddies l).agenda = s.agenda := rfl
@[simp] theorem State.countBuddies_cur (s : State) (l : List Nat) : (s.countBuddies l).cur = s.cur := rfl
@[simp] theorem State.countBuddies_cmdRef (s : State) (l : List Nat) : (s.countBuddies l).cmdRef = s.cmdRef := rfl
@[simp] theorem State.countBuddies_nextSeq (s : State) (l : List Nat) : (s.countBuddies l).nextSeq = s.nextSeq := rfl
@[simp] theorem State.countBuddies_power (s : State) (l : List Nat) : (s.countBuddies l).power = s.power := rfl
@[simp] theorem State.countBuddies_freezeAsked (s : State) (l : List Nat) : (s.countBuddies l).freezeAsked = s.freezeAsked := rfl
@[simp] theorem State.countBuddies_frozen (s : State) (l : List Nat) : (s.countBuddies l).frozen = s.frozen := rfl
@[simp] theorem State.countBuddies_throttled (s : State) (l : List Nat) : (s.countBuddies l).throttled = s.throttled := rfl
@[simp] theorem State.countBuddies_cores (s : State) (l : List Nat) : (s.countBuddies l).cores = s.cores := rfl
@[simp] theorem State.countBuddies_clusters (s : State) (l : List Nat) : (s.countBuddies l).clusters = s.clusters := rfl
@[simp] theorem State.countBuddies_cmds (s : State) (l : List Nat) : (s.countBuddies l).cmds = s.cmds := rfl
@[simp] theorem State.countBuddies_granules (s : State) (l : List Nat) : (s.countBuddies l).granules = s.granules := rfl
@[simp] theorem State.countBuddies_packets (s : State) (l : List Nat) : (s.countBuddies l).packets = s.packets := rfl
@[simp] theorem State.countBuddies_left (s : State) (l : List Nat) : (s.countBuddies l).left = s.left := rfl
@[simp] theorem State.countBuddies_uses (s : State) (l : List Nat) : (s.countBuddies l).uses = s.uses := rfl
@[simp] theorem State.countBuddies_abortedTurns (s : State) (l : List Nat) : (s.countBuddies l).abortedTurns = s.abortedTurns := rfl
@[simp] theorem State.countBuddies_mem (s : State) (l : List Nat) : (s.countBuddies l).mem = s.mem := rfl
@[simp] theorem State.countBuddies_poison (s : State) (l : List Nat) : (s.countBuddies l).poison = s.poison := rfl
@[simp] theorem State.countBuddies_seals (s : State) (l : List Nat) : (s.countBuddies l).seals = s.seals := rfl
@[simp] theorem State.countBuddies_transit (s : State) (l : List Nat) : (s.countBuddies l).transit = s.transit := rfl
@[simp] theorem State.countBuddies_ships (s : State) (l : List Nat) : (s.countBuddies l).ships = s.ships := rfl
@[simp] theorem State.countBuddies_mapOps (s : State) (l : List Nat) : (s.countBuddies l).mapOps = s.mapOps := rfl
@[simp] theorem State.countBuddies_maps (s : State) (l : List Nat) : (s.countBuddies l).maps = s.maps := rfl
@[simp] theorem State.countBuddies_routines (s : State) (l : List Nat) : (s.countBuddies l).routines = s.routines := rfl
@[simp] theorem State.countBuddies_tenants (s : State) (l : List Nat) : (s.countBuddies l).tenants = s.tenants := rfl
@[simp] theorem State.countBuddies_buffers (s : State) (l : List Nat) : (s.countBuddies l).buffers = s.buffers := rfl
@[simp] theorem State.countBuddies_bufctl (s : State) (l : List Nat) : (s.countBuddies l).bufctl = s.bufctl := rfl
@[simp] theorem State.countBuddies_fabid (s : State) (l : List Nat) : (s.countBuddies l).fabid = s.fabid := rfl
@[simp] theorem State.countBuddies_pwrcap (s : State) (l : List Nat) : (s.countBuddies l).pwrcap = s.pwrcap := rfl
@[simp] theorem State.countBuddies_spctl (s : State) (l : List Nat) : (s.countBuddies l).spctl = s.spctl := rfl
@[simp] theorem State.countBuddies_hsem (s : State) (l : List Nat) : (s.countBuddies l).hsem = s.hsem := rfl
@[simp] theorem State.countBuddies_hsemOrder (s : State) (l : List Nat) : (s.countBuddies l).hsemOrder = s.hsemOrder := rfl
@[simp] theorem State.countBuddies_hostq (s : State) (l : List Nat) : (s.countBuddies l).hostq = s.hostq := rfl
@[simp] theorem State.countBuddies_queues (s : State) (l : List Nat) : (s.countBuddies l).queues = s.queues := rfl
@[simp] theorem State.countBuddies_grids (s : State) (l : List Nat) : (s.countBuddies l).grids = s.grids := rfl
@[simp] theorem State.countBuddies_nextGrid (s : State) (l : List Nat) : (s.countBuddies l).nextGrid = s.nextGrid := rfl
@[simp] theorem State.countBuddies_reservations (s : State) (l : List Nat) : (s.countBuddies l).reservations = s.reservations := rfl
@[simp] theorem State.countBuddies_svc (s : State) (l : List Nat) : (s.countBuddies l).svc = s.svc := rfl
@[simp] theorem State.countBuddies_heldMsgs (s : State) (l : List Nat) : (s.countBuddies l).heldMsgs = s.heldMsgs := rfl
@[simp] theorem State.countBuddies_svcStatus (s : State) (l : List Nat) : (s.countBuddies l).svcStatus = s.svcStatus := rfl
@[simp] theorem State.countBuddies_hdm (s : State) (l : List Nat) : (s.countBuddies l).hdm = s.hdm := rfl
@[simp] theorem State.countBuddies_hostReply (s : State) (l : List Nat) : (s.countBuddies l).hostReply = s.hostReply := rfl
@[simp] theorem State.countBuddies_hostAbort (s : State) (l : List Nat) : (s.countBuddies l).hostAbort = s.hostAbort := rfl
@[simp] theorem State.countBuddies_regReply (s : State) (l : List Nat) : (s.countBuddies l).regReply = s.regReply := rfl
@[simp] theorem State.countBuddies_dies (s : State) (l : List Nat) : (s.countBuddies l).dies = s.dies := rfl
@[simp] theorem State.countBuddies_migrations (s : State) (l : List Nat) : (s.countBuddies l).migrations = s.migrations := rfl
@[simp] theorem State.countBuddies_shoots (s : State) (l : List Nat) : (s.countBuddies l).shoots = s.shoots := rfl
@[simp] theorem State.countBuddies_hbm (s : State) (l : List Nat) : (s.countBuddies l).hbm = s.hbm := rfl
@[simp] theorem State.countBuddies_mailbox (s : State) (l : List Nat) : (s.countBuddies l).mailbox = s.mailbox := rfl
@[simp] theorem State.countBuddies_tap (s : State) (l : List Nat) : (s.countBuddies l).tap = s.tap := rfl
@[simp] theorem State.countBuddies_hostLinks (s : State) (l : List Nat) : (s.countBuddies l).hostLinks = s.hostLinks := rfl
@[simp] theorem State.countBuddies_peerLinks (s : State) (l : List Nat) : (s.countBuddies l).peerLinks = s.peerLinks := rfl

/-! ## `State.countBuddy` -/

@[simp] theorem State.countBuddy_now (s : State) (pa : Nat) : (s.countBuddy pa).now = s.now := rfl
@[simp] theorem State.countBuddy_tick (s : State) (pa : Nat) : (s.countBuddy pa).tick = s.tick := rfl
@[simp] theorem State.countBuddy_agenda (s : State) (pa : Nat) : (s.countBuddy pa).agenda = s.agenda := rfl
@[simp] theorem State.countBuddy_cur (s : State) (pa : Nat) : (s.countBuddy pa).cur = s.cur := rfl
@[simp] theorem State.countBuddy_cmdRef (s : State) (pa : Nat) : (s.countBuddy pa).cmdRef = s.cmdRef := rfl
@[simp] theorem State.countBuddy_nextSeq (s : State) (pa : Nat) : (s.countBuddy pa).nextSeq = s.nextSeq := rfl
@[simp] theorem State.countBuddy_power (s : State) (pa : Nat) : (s.countBuddy pa).power = s.power := rfl
@[simp] theorem State.countBuddy_freezeAsked (s : State) (pa : Nat) : (s.countBuddy pa).freezeAsked = s.freezeAsked := rfl
@[simp] theorem State.countBuddy_frozen (s : State) (pa : Nat) : (s.countBuddy pa).frozen = s.frozen := rfl
@[simp] theorem State.countBuddy_throttled (s : State) (pa : Nat) : (s.countBuddy pa).throttled = s.throttled := rfl
@[simp] theorem State.countBuddy_cores (s : State) (pa : Nat) : (s.countBuddy pa).cores = s.cores := rfl
@[simp] theorem State.countBuddy_clusters (s : State) (pa : Nat) : (s.countBuddy pa).clusters = s.clusters := rfl
@[simp] theorem State.countBuddy_cmds (s : State) (pa : Nat) : (s.countBuddy pa).cmds = s.cmds := rfl
@[simp] theorem State.countBuddy_granules (s : State) (pa : Nat) : (s.countBuddy pa).granules = s.granules := rfl
@[simp] theorem State.countBuddy_packets (s : State) (pa : Nat) : (s.countBuddy pa).packets = s.packets := rfl
@[simp] theorem State.countBuddy_left (s : State) (pa : Nat) : (s.countBuddy pa).left = s.left := rfl
@[simp] theorem State.countBuddy_uses (s : State) (pa : Nat) : (s.countBuddy pa).uses = s.uses := rfl
@[simp] theorem State.countBuddy_abortedTurns (s : State) (pa : Nat) : (s.countBuddy pa).abortedTurns = s.abortedTurns := rfl
@[simp] theorem State.countBuddy_mem (s : State) (pa : Nat) : (s.countBuddy pa).mem = s.mem := rfl
@[simp] theorem State.countBuddy_poison (s : State) (pa : Nat) : (s.countBuddy pa).poison = s.poison := rfl
@[simp] theorem State.countBuddy_seals (s : State) (pa : Nat) : (s.countBuddy pa).seals = s.seals := rfl
@[simp] theorem State.countBuddy_transit (s : State) (pa : Nat) : (s.countBuddy pa).transit = s.transit := rfl
@[simp] theorem State.countBuddy_ships (s : State) (pa : Nat) : (s.countBuddy pa).ships = s.ships := rfl
@[simp] theorem State.countBuddy_mapOps (s : State) (pa : Nat) : (s.countBuddy pa).mapOps = s.mapOps := rfl
@[simp] theorem State.countBuddy_maps (s : State) (pa : Nat) : (s.countBuddy pa).maps = s.maps := rfl
@[simp] theorem State.countBuddy_routines (s : State) (pa : Nat) : (s.countBuddy pa).routines = s.routines := rfl
@[simp] theorem State.countBuddy_tenants (s : State) (pa : Nat) : (s.countBuddy pa).tenants = s.tenants := rfl
@[simp] theorem State.countBuddy_buffers (s : State) (pa : Nat) : (s.countBuddy pa).buffers = s.buffers := rfl
@[simp] theorem State.countBuddy_bufctl (s : State) (pa : Nat) : (s.countBuddy pa).bufctl = s.bufctl := rfl
@[simp] theorem State.countBuddy_fabid (s : State) (pa : Nat) : (s.countBuddy pa).fabid = s.fabid := rfl
@[simp] theorem State.countBuddy_pwrcap (s : State) (pa : Nat) : (s.countBuddy pa).pwrcap = s.pwrcap := rfl
@[simp] theorem State.countBuddy_spctl (s : State) (pa : Nat) : (s.countBuddy pa).spctl = s.spctl := rfl
@[simp] theorem State.countBuddy_hsem (s : State) (pa : Nat) : (s.countBuddy pa).hsem = s.hsem := rfl
@[simp] theorem State.countBuddy_hsemOrder (s : State) (pa : Nat) : (s.countBuddy pa).hsemOrder = s.hsemOrder := rfl
@[simp] theorem State.countBuddy_hostq (s : State) (pa : Nat) : (s.countBuddy pa).hostq = s.hostq := rfl
@[simp] theorem State.countBuddy_queues (s : State) (pa : Nat) : (s.countBuddy pa).queues = s.queues := rfl
@[simp] theorem State.countBuddy_grids (s : State) (pa : Nat) : (s.countBuddy pa).grids = s.grids := rfl
@[simp] theorem State.countBuddy_nextGrid (s : State) (pa : Nat) : (s.countBuddy pa).nextGrid = s.nextGrid := rfl
@[simp] theorem State.countBuddy_reservations (s : State) (pa : Nat) : (s.countBuddy pa).reservations = s.reservations := rfl
@[simp] theorem State.countBuddy_svc (s : State) (pa : Nat) : (s.countBuddy pa).svc = s.svc := rfl
@[simp] theorem State.countBuddy_heldMsgs (s : State) (pa : Nat) : (s.countBuddy pa).heldMsgs = s.heldMsgs := rfl
@[simp] theorem State.countBuddy_svcStatus (s : State) (pa : Nat) : (s.countBuddy pa).svcStatus = s.svcStatus := rfl
@[simp] theorem State.countBuddy_hdm (s : State) (pa : Nat) : (s.countBuddy pa).hdm = s.hdm := rfl
@[simp] theorem State.countBuddy_hostReply (s : State) (pa : Nat) : (s.countBuddy pa).hostReply = s.hostReply := rfl
@[simp] theorem State.countBuddy_hostAbort (s : State) (pa : Nat) : (s.countBuddy pa).hostAbort = s.hostAbort := rfl
@[simp] theorem State.countBuddy_regReply (s : State) (pa : Nat) : (s.countBuddy pa).regReply = s.regReply := rfl
@[simp] theorem State.countBuddy_dies (s : State) (pa : Nat) : (s.countBuddy pa).dies = s.dies := rfl
@[simp] theorem State.countBuddy_migrations (s : State) (pa : Nat) : (s.countBuddy pa).migrations = s.migrations := rfl
@[simp] theorem State.countBuddy_shoots (s : State) (pa : Nat) : (s.countBuddy pa).shoots = s.shoots := rfl
@[simp] theorem State.countBuddy_hbm (s : State) (pa : Nat) : (s.countBuddy pa).hbm = s.hbm := rfl
@[simp] theorem State.countBuddy_mailbox (s : State) (pa : Nat) : (s.countBuddy pa).mailbox = s.mailbox := rfl
@[simp] theorem State.countBuddy_tap (s : State) (pa : Nat) : (s.countBuddy pa).tap = s.tap := rfl
@[simp] theorem State.countBuddy_hostLinks (s : State) (pa : Nat) : (s.countBuddy pa).hostLinks = s.hostLinks := rfl
@[simp] theorem State.countBuddy_peerLinks (s : State) (pa : Nat) : (s.countBuddy pa).peerLinks = s.peerLinks := rfl

/-! ## `State.abandon` -/

@[simp] theorem State.abandon_now (s : State) (c : CoreId) : (s.abandon c).now = s.now := by
  unfold State.abandon State.withdrawUnits; dsimp only; split <;> rfl
@[simp] theorem State.abandon_tick (s : State) (c : CoreId) : (s.abandon c).tick = s.tick := by
  unfold State.abandon State.withdrawUnits; dsimp only; split <;> rfl
@[simp] theorem State.abandon_agenda (s : State) (c : CoreId) : (s.abandon c).agenda = s.agenda := by
  unfold State.abandon State.withdrawUnits; dsimp only; split <;> rfl
@[simp] theorem State.abandon_cur (s : State) (c : CoreId) : (s.abandon c).cur = s.cur := by
  unfold State.abandon State.withdrawUnits; dsimp only; split <;> rfl
@[simp] theorem State.abandon_cmdRef (s : State) (c : CoreId) : (s.abandon c).cmdRef = s.cmdRef := by
  unfold State.abandon State.withdrawUnits; dsimp only; split <;> rfl
@[simp] theorem State.abandon_nextSeq (s : State) (c : CoreId) : (s.abandon c).nextSeq = s.nextSeq := by
  unfold State.abandon State.withdrawUnits; dsimp only; split <;> rfl
@[simp] theorem State.abandon_power (s : State) (c : CoreId) : (s.abandon c).power = s.power := by
  unfold State.abandon State.withdrawUnits; dsimp only; split <;> rfl
@[simp] theorem State.abandon_freezeAsked (s : State) (c : CoreId) : (s.abandon c).freezeAsked = s.freezeAsked := by
  unfold State.abandon State.withdrawUnits; dsimp only; split <;> rfl
@[simp] theorem State.abandon_frozen (s : State) (c : CoreId) : (s.abandon c).frozen = s.frozen := by
  unfold State.abandon State.withdrawUnits; dsimp only; split <;> rfl
@[simp] theorem State.abandon_throttled (s : State) (c : CoreId) : (s.abandon c).throttled = s.throttled := by
  unfold State.abandon State.withdrawUnits; dsimp only; split <;> rfl
@[simp] theorem State.abandon_cmds (s : State) (c : CoreId) : (s.abandon c).cmds = s.cmds := by
  unfold State.abandon State.withdrawUnits; dsimp only; split <;> rfl
@[simp] theorem State.abandon_granules (s : State) (c : CoreId) : (s.abandon c).granules = s.granules := by
  unfold State.abandon State.withdrawUnits; dsimp only; split <;> rfl
@[simp] theorem State.abandon_packets (s : State) (c : CoreId) : (s.abandon c).packets = s.packets := by
  unfold State.abandon State.withdrawUnits; dsimp only; split <;> rfl
@[simp] theorem State.abandon_left (s : State) (c : CoreId) : (s.abandon c).left = s.left := by
  unfold State.abandon State.withdrawUnits; dsimp only; split <;> rfl
@[simp] theorem State.abandon_uses (s : State) (c : CoreId) : (s.abandon c).uses = s.uses := by
  unfold State.abandon State.withdrawUnits; dsimp only; split <;> rfl
@[simp] theorem State.abandon_abortedTurns (s : State) (c : CoreId) : (s.abandon c).abortedTurns = s.abortedTurns := by
  unfold State.abandon State.withdrawUnits; dsimp only; split <;> rfl
@[simp] theorem State.abandon_mem (s : State) (c : CoreId) : (s.abandon c).mem = s.mem := by
  unfold State.abandon State.withdrawUnits; dsimp only; split <;> rfl
@[simp] theorem State.abandon_poison (s : State) (c : CoreId) : (s.abandon c).poison = s.poison := by
  unfold State.abandon State.withdrawUnits; dsimp only; split <;> rfl
@[simp] theorem State.abandon_seals (s : State) (c : CoreId) : (s.abandon c).seals = s.seals := by
  unfold State.abandon State.withdrawUnits; dsimp only; split <;> rfl
@[simp] theorem State.abandon_transit (s : State) (c : CoreId) : (s.abandon c).transit = s.transit := by
  unfold State.abandon State.withdrawUnits; dsimp only; split <;> rfl
@[simp] theorem State.abandon_ships (s : State) (c : CoreId) : (s.abandon c).ships = s.ships := by
  unfold State.abandon State.withdrawUnits; dsimp only; split <;> rfl
@[simp] theorem State.abandon_mapOps (s : State) (c : CoreId) : (s.abandon c).mapOps = s.mapOps := by
  unfold State.abandon State.withdrawUnits; dsimp only; split <;> rfl
@[simp] theorem State.abandon_maps (s : State) (c : CoreId) : (s.abandon c).maps = s.maps := by
  unfold State.abandon State.withdrawUnits; dsimp only; split <;> rfl
@[simp] theorem State.abandon_routines (s : State) (c : CoreId) : (s.abandon c).routines = s.routines := by
  unfold State.abandon State.withdrawUnits; dsimp only; split <;> rfl
@[simp] theorem State.abandon_tenants (s : State) (c : CoreId) : (s.abandon c).tenants = s.tenants := by
  unfold State.abandon State.withdrawUnits; dsimp only; split <;> rfl
@[simp] theorem State.abandon_buffers (s : State) (c : CoreId) : (s.abandon c).buffers = s.buffers := by
  unfold State.abandon State.withdrawUnits; dsimp only; split <;> rfl
@[simp] theorem State.abandon_bufctl (s : State) (c : CoreId) : (s.abandon c).bufctl = s.bufctl := by
  unfold State.abandon State.withdrawUnits; dsimp only; split <;> rfl
@[simp] theorem State.abandon_fabid (s : State) (c : CoreId) : (s.abandon c).fabid = s.fabid := by
  unfold State.abandon State.withdrawUnits; dsimp only; split <;> rfl
@[simp] theorem State.abandon_affmiss (s : State) (c : CoreId) : (s.abandon c).affmiss = s.affmiss := by
  unfold State.abandon State.withdrawUnits; dsimp only; split <;> rfl
@[simp] theorem State.abandon_pwrcap (s : State) (c : CoreId) : (s.abandon c).pwrcap = s.pwrcap := by
  unfold State.abandon State.withdrawUnits; dsimp only; split <;> rfl
@[simp] theorem State.abandon_spctl (s : State) (c : CoreId) : (s.abandon c).spctl = s.spctl := by
  unfold State.abandon State.withdrawUnits; dsimp only; split <;> rfl
@[simp] theorem State.abandon_hsem (s : State) (c : CoreId) : (s.abandon c).hsem = s.hsem := by
  unfold State.abandon State.withdrawUnits; dsimp only; split <;> rfl
@[simp] theorem State.abandon_hsemOrder (s : State) (c : CoreId) : (s.abandon c).hsemOrder = s.hsemOrder := by
  unfold State.abandon State.withdrawUnits; dsimp only; split <;> rfl
@[simp] theorem State.abandon_hostq (s : State) (c : CoreId) : (s.abandon c).hostq = s.hostq := by
  unfold State.abandon State.withdrawUnits; dsimp only; split <;> rfl
@[simp] theorem State.abandon_queues (s : State) (c : CoreId) : (s.abandon c).queues = s.queues := by
  unfold State.abandon State.withdrawUnits; dsimp only; split <;> rfl
@[simp] theorem State.abandon_grids (s : State) (c : CoreId) : (s.abandon c).grids = s.grids := by
  unfold State.abandon State.withdrawUnits; dsimp only; split <;> rfl
@[simp] theorem State.abandon_nextGrid (s : State) (c : CoreId) : (s.abandon c).nextGrid = s.nextGrid := by
  unfold State.abandon State.withdrawUnits; dsimp only; split <;> rfl
@[simp] theorem State.abandon_reservations (s : State) (c : CoreId) : (s.abandon c).reservations = s.reservations := by
  unfold State.abandon State.withdrawUnits; dsimp only; split <;> rfl
@[simp] theorem State.abandon_svc (s : State) (c : CoreId) : (s.abandon c).svc = s.svc := by
  unfold State.abandon State.withdrawUnits; dsimp only; split <;> rfl
@[simp] theorem State.abandon_heldMsgs (s : State) (c : CoreId) : (s.abandon c).heldMsgs = s.heldMsgs := by
  unfold State.abandon State.withdrawUnits; dsimp only; split <;> rfl
@[simp] theorem State.abandon_svcStatus (s : State) (c : CoreId) : (s.abandon c).svcStatus = s.svcStatus := by
  unfold State.abandon State.withdrawUnits; dsimp only; split <;> rfl
@[simp] theorem State.abandon_hdm (s : State) (c : CoreId) : (s.abandon c).hdm = s.hdm := by
  unfold State.abandon State.withdrawUnits; dsimp only; split <;> rfl
@[simp] theorem State.abandon_hostReply (s : State) (c : CoreId) : (s.abandon c).hostReply = s.hostReply := by
  unfold State.abandon State.withdrawUnits; dsimp only; split <;> rfl
@[simp] theorem State.abandon_hostAbort (s : State) (c : CoreId) : (s.abandon c).hostAbort = s.hostAbort := by
  unfold State.abandon State.withdrawUnits; dsimp only; split <;> rfl
@[simp] theorem State.abandon_regReply (s : State) (c : CoreId) : (s.abandon c).regReply = s.regReply := by
  unfold State.abandon State.withdrawUnits; dsimp only; split <;> rfl
@[simp] theorem State.abandon_dies (s : State) (c : CoreId) : (s.abandon c).dies = s.dies := by
  unfold State.abandon State.withdrawUnits; dsimp only; split <;> rfl
@[simp] theorem State.abandon_migrations (s : State) (c : CoreId) : (s.abandon c).migrations = s.migrations := by
  unfold State.abandon State.withdrawUnits; dsimp only; split <;> rfl
@[simp] theorem State.abandon_shoots (s : State) (c : CoreId) : (s.abandon c).shoots = s.shoots := by
  unfold State.abandon State.withdrawUnits; dsimp only; split <;> rfl
@[simp] theorem State.abandon_hbm (s : State) (c : CoreId) : (s.abandon c).hbm = s.hbm := by
  unfold State.abandon State.withdrawUnits; dsimp only; split <;> rfl
@[simp] theorem State.abandon_mailbox (s : State) (c : CoreId) : (s.abandon c).mailbox = s.mailbox := by
  unfold State.abandon State.withdrawUnits; dsimp only; split <;> rfl
@[simp] theorem State.abandon_tap (s : State) (c : CoreId) : (s.abandon c).tap = s.tap := by
  unfold State.abandon State.withdrawUnits; dsimp only; split <;> rfl
@[simp] theorem State.abandon_hostLinks (s : State) (c : CoreId) : (s.abandon c).hostLinks = s.hostLinks := by
  unfold State.abandon State.withdrawUnits; dsimp only; split <;> rfl
@[simp] theorem State.abandon_peerLinks (s : State) (c : CoreId) : (s.abandon c).peerLinks = s.peerLinks := by
  unfold State.abandon State.withdrawUnits; dsimp only; split <;> rfl

/-! ## `Core.writeF` -/

@[simp] theorem Core.writeF_csr (k : Core) (n : BitVec 5) (v : Word) : (k.writeF n v).csr = k.csr := rfl
@[simp] theorem Core.writeF_pc (k : Core) (n : BitVec 5) (v : Word) : (k.writeF n v).pc = k.pc := rfl
@[simp] theorem Core.writeF_tcm (k : Core) (n : BitVec 5) (v : Word) : (k.writeF n v).tcm = k.tcm := rfl
@[simp] theorem Core.writeF_itcm (k : Core) (n : BitVec 5) (v : Word) : (k.writeF n v).itcm = k.itcm := rfl
@[simp] theorem Core.writeF_stores (k : Core) (n : BitVec 5) (v : Word) : (k.writeF n v).stores = k.stores := rfl
@[simp] theorem Core.writeF_inbox (k : Core) (n : BitVec 5) (v : Word) : (k.writeF n v).inbox = k.inbox := rfl
@[simp] theorem Core.writeF_wake (k : Core) (n : BitVec 5) (v : Word) : (k.writeF n v).wake = k.wake := rfl
@[simp] theorem Core.writeF_run (k : Core) (n : BitVec 5) (v : Word) : (k.writeF n v).run = k.run := rfl
@[simp] theorem Core.writeF_wait (k : Core) (n : BitVec 5) (v : Word) : (k.writeF n v).wait = k.wait := rfl
@[simp] theorem Core.writeF_preempt (k : Core) (n : BitVec 5) (v : Word) : (k.writeF n v).preempt = k.preempt := rfl
@[simp] theorem Core.writeF_lost (k : Core) (n : BitVec 5) (v : Word) : (k.writeF n v).lost = k.lost := rfl
@[simp] theorem Core.writeF_parkDue (k : Core) (n : BitVec 5) (v : Word) : (k.writeF n v).parkDue = k.parkDue := rfl
@[simp] theorem Core.writeF_parkAside (k : Core) (n : BitVec 5) (v : Word) : (k.writeF n v).parkAside = k.parkAside := rfl
@[simp] theorem Core.writeF_heldEvent (k : Core) (n : BitVec 5) (v : Word) : (k.writeF n v).heldEvent = k.heldEvent := rfl
@[simp] theorem Core.writeF_resumedBy (k : Core) (n : BitVec 5) (v : Word) : (k.writeF n v).resumedBy = k.resumedBy := rfl
@[simp] theorem Core.writeF_vq (k : Core) (n : BitVec 5) (v : Word) : (k.writeF n v).vq = k.vq := rfl
@[simp] theorem Core.writeF_minLots (k : Core) (n : BitVec 5) (v : Word) : (k.writeF n v).minLots = k.minLots := rfl
@[simp] theorem Core.writeF_maxLots (k : Core) (n : BitVec 5) (v : Word) : (k.writeF n v).maxLots = k.maxLots := rfl
@[simp] theorem Core.writeF_credit (k : Core) (n : BitVec 5) (v : Word) : (k.writeF n v).credit = k.credit := rfl
@[simp] theorem Core.writeF_barWait (k : Core) (n : BitVec 5) (v : Word) : (k.writeF n v).barWait = k.barWait := rfl
@[simp] theorem Core.writeF_sync (k : Core) (n : BitVec 5) (v : Word) : (k.writeF n v).sync = k.sync := rfl
@[simp] theorem Core.writeF_reneg (k : Core) (n : BitVec 5) (v : Word) : (k.writeF n v).reneg = k.reneg := rfl
@[simp] theorem Core.writeF_relSeq (k : Core) (n : BitVec 5) (v : Word) : (k.writeF n v).relSeq = k.relSeq := rfl
@[simp] theorem Core.writeF_slot (k : Core) (n : BitVec 5) (v : Word) : (k.writeF n v).slot = k.slot := rfl
@[simp] theorem Core.writeF_utlb (k : Core) (n : BitVec 5) (v : Word) : (k.writeF n v).utlb = k.utlb := rfl

/-! ## `Core.writeP` -/

@[simp] theorem Core.writeP_csr (k : Core) (n : BitVec 4) (v : Word) : (k.writeP n v).csr = k.csr := rfl
@[simp] theorem Core.writeP_pc (k : Core) (n : BitVec 4) (v : Word) : (k.writeP n v).pc = k.pc := rfl
@[simp] theorem Core.writeP_tcm (k : Core) (n : BitVec 4) (v : Word) : (k.writeP n v).tcm = k.tcm := rfl
@[simp] theorem Core.writeP_itcm (k : Core) (n : BitVec 4) (v : Word) : (k.writeP n v).itcm = k.itcm := rfl
@[simp] theorem Core.writeP_stores (k : Core) (n : BitVec 4) (v : Word) : (k.writeP n v).stores = k.stores := rfl
@[simp] theorem Core.writeP_inbox (k : Core) (n : BitVec 4) (v : Word) : (k.writeP n v).inbox = k.inbox := rfl
@[simp] theorem Core.writeP_wake (k : Core) (n : BitVec 4) (v : Word) : (k.writeP n v).wake = k.wake := rfl
@[simp] theorem Core.writeP_run (k : Core) (n : BitVec 4) (v : Word) : (k.writeP n v).run = k.run := rfl
@[simp] theorem Core.writeP_wait (k : Core) (n : BitVec 4) (v : Word) : (k.writeP n v).wait = k.wait := rfl
@[simp] theorem Core.writeP_preempt (k : Core) (n : BitVec 4) (v : Word) : (k.writeP n v).preempt = k.preempt := rfl
@[simp] theorem Core.writeP_lost (k : Core) (n : BitVec 4) (v : Word) : (k.writeP n v).lost = k.lost := rfl
@[simp] theorem Core.writeP_parkDue (k : Core) (n : BitVec 4) (v : Word) : (k.writeP n v).parkDue = k.parkDue := rfl
@[simp] theorem Core.writeP_parkAside (k : Core) (n : BitVec 4) (v : Word) : (k.writeP n v).parkAside = k.parkAside := rfl
@[simp] theorem Core.writeP_heldEvent (k : Core) (n : BitVec 4) (v : Word) : (k.writeP n v).heldEvent = k.heldEvent := rfl
@[simp] theorem Core.writeP_resumedBy (k : Core) (n : BitVec 4) (v : Word) : (k.writeP n v).resumedBy = k.resumedBy := rfl
@[simp] theorem Core.writeP_vq (k : Core) (n : BitVec 4) (v : Word) : (k.writeP n v).vq = k.vq := rfl
@[simp] theorem Core.writeP_minLots (k : Core) (n : BitVec 4) (v : Word) : (k.writeP n v).minLots = k.minLots := rfl
@[simp] theorem Core.writeP_maxLots (k : Core) (n : BitVec 4) (v : Word) : (k.writeP n v).maxLots = k.maxLots := rfl
@[simp] theorem Core.writeP_credit (k : Core) (n : BitVec 4) (v : Word) : (k.writeP n v).credit = k.credit := rfl
@[simp] theorem Core.writeP_barWait (k : Core) (n : BitVec 4) (v : Word) : (k.writeP n v).barWait = k.barWait := rfl
@[simp] theorem Core.writeP_sync (k : Core) (n : BitVec 4) (v : Word) : (k.writeP n v).sync = k.sync := rfl
@[simp] theorem Core.writeP_reneg (k : Core) (n : BitVec 4) (v : Word) : (k.writeP n v).reneg = k.reneg := rfl
@[simp] theorem Core.writeP_relSeq (k : Core) (n : BitVec 4) (v : Word) : (k.writeP n v).relSeq = k.relSeq := rfl
@[simp] theorem Core.writeP_slot (k : Core) (n : BitVec 4) (v : Word) : (k.writeP n v).slot = k.slot := rfl
@[simp] theorem Core.writeP_utlb (k : Core) (n : BitVec 4) (v : Word) : (k.writeP n v).utlb = k.utlb := rfl

/-! ## `Core.writeC` -/

@[simp] theorem Core.writeC_csr (k : Core) (n : BitVec 4) (v : BitVec 8) : (k.writeC n v).csr = k.csr := rfl
@[simp] theorem Core.writeC_pc (k : Core) (n : BitVec 4) (v : BitVec 8) : (k.writeC n v).pc = k.pc := rfl
@[simp] theorem Core.writeC_tcm (k : Core) (n : BitVec 4) (v : BitVec 8) : (k.writeC n v).tcm = k.tcm := rfl
@[simp] theorem Core.writeC_itcm (k : Core) (n : BitVec 4) (v : BitVec 8) : (k.writeC n v).itcm = k.itcm := rfl
@[simp] theorem Core.writeC_stores (k : Core) (n : BitVec 4) (v : BitVec 8) : (k.writeC n v).stores = k.stores := rfl
@[simp] theorem Core.writeC_inbox (k : Core) (n : BitVec 4) (v : BitVec 8) : (k.writeC n v).inbox = k.inbox := rfl
@[simp] theorem Core.writeC_wake (k : Core) (n : BitVec 4) (v : BitVec 8) : (k.writeC n v).wake = k.wake := rfl
@[simp] theorem Core.writeC_run (k : Core) (n : BitVec 4) (v : BitVec 8) : (k.writeC n v).run = k.run := rfl
@[simp] theorem Core.writeC_wait (k : Core) (n : BitVec 4) (v : BitVec 8) : (k.writeC n v).wait = k.wait := rfl
@[simp] theorem Core.writeC_preempt (k : Core) (n : BitVec 4) (v : BitVec 8) : (k.writeC n v).preempt = k.preempt := rfl
@[simp] theorem Core.writeC_lost (k : Core) (n : BitVec 4) (v : BitVec 8) : (k.writeC n v).lost = k.lost := rfl
@[simp] theorem Core.writeC_parkDue (k : Core) (n : BitVec 4) (v : BitVec 8) : (k.writeC n v).parkDue = k.parkDue := rfl
@[simp] theorem Core.writeC_parkAside (k : Core) (n : BitVec 4) (v : BitVec 8) : (k.writeC n v).parkAside = k.parkAside := rfl
@[simp] theorem Core.writeC_heldEvent (k : Core) (n : BitVec 4) (v : BitVec 8) : (k.writeC n v).heldEvent = k.heldEvent := rfl
@[simp] theorem Core.writeC_resumedBy (k : Core) (n : BitVec 4) (v : BitVec 8) : (k.writeC n v).resumedBy = k.resumedBy := rfl
@[simp] theorem Core.writeC_vq (k : Core) (n : BitVec 4) (v : BitVec 8) : (k.writeC n v).vq = k.vq := rfl
@[simp] theorem Core.writeC_minLots (k : Core) (n : BitVec 4) (v : BitVec 8) : (k.writeC n v).minLots = k.minLots := rfl
@[simp] theorem Core.writeC_maxLots (k : Core) (n : BitVec 4) (v : BitVec 8) : (k.writeC n v).maxLots = k.maxLots := rfl
@[simp] theorem Core.writeC_credit (k : Core) (n : BitVec 4) (v : BitVec 8) : (k.writeC n v).credit = k.credit := rfl
@[simp] theorem Core.writeC_barWait (k : Core) (n : BitVec 4) (v : BitVec 8) : (k.writeC n v).barWait = k.barWait := rfl
@[simp] theorem Core.writeC_sync (k : Core) (n : BitVec 4) (v : BitVec 8) : (k.writeC n v).sync = k.sync := rfl
@[simp] theorem Core.writeC_reneg (k : Core) (n : BitVec 4) (v : BitVec 8) : (k.writeC n v).reneg = k.reneg := rfl
@[simp] theorem Core.writeC_relSeq (k : Core) (n : BitVec 4) (v : BitVec 8) : (k.writeC n v).relSeq = k.relSeq := rfl
@[simp] theorem Core.writeC_slot (k : Core) (n : BitVec 4) (v : BitVec 8) : (k.writeC n v).slot = k.slot := rfl
@[simp] theorem Core.writeC_utlb (k : Core) (n : BitVec 4) (v : BitVec 8) : (k.writeC n v).utlb = k.utlb := rfl

/-! ## `Core.writeG` -/

@[simp] theorem Core.writeG_csr (k : Core) (n : BitVec 5) (v : Word) : (k.writeG n v).csr = k.csr := by
  unfold Core.writeG; split <;> rfl
@[simp] theorem Core.writeG_pc (k : Core) (n : BitVec 5) (v : Word) : (k.writeG n v).pc = k.pc := by
  unfold Core.writeG; split <;> rfl
@[simp] theorem Core.writeG_tcm (k : Core) (n : BitVec 5) (v : Word) : (k.writeG n v).tcm = k.tcm := by
  unfold Core.writeG; split <;> rfl
@[simp] theorem Core.writeG_itcm (k : Core) (n : BitVec 5) (v : Word) : (k.writeG n v).itcm = k.itcm := by
  unfold Core.writeG; split <;> rfl
@[simp] theorem Core.writeG_stores (k : Core) (n : BitVec 5) (v : Word) : (k.writeG n v).stores = k.stores := by
  unfold Core.writeG; split <;> rfl
@[simp] theorem Core.writeG_inbox (k : Core) (n : BitVec 5) (v : Word) : (k.writeG n v).inbox = k.inbox := by
  unfold Core.writeG; split <;> rfl
@[simp] theorem Core.writeG_wake (k : Core) (n : BitVec 5) (v : Word) : (k.writeG n v).wake = k.wake := by
  unfold Core.writeG; split <;> rfl
@[simp] theorem Core.writeG_run (k : Core) (n : BitVec 5) (v : Word) : (k.writeG n v).run = k.run := by
  unfold Core.writeG; split <;> rfl
@[simp] theorem Core.writeG_wait (k : Core) (n : BitVec 5) (v : Word) : (k.writeG n v).wait = k.wait := by
  unfold Core.writeG; split <;> rfl
@[simp] theorem Core.writeG_preempt (k : Core) (n : BitVec 5) (v : Word) : (k.writeG n v).preempt = k.preempt := by
  unfold Core.writeG; split <;> rfl
@[simp] theorem Core.writeG_lost (k : Core) (n : BitVec 5) (v : Word) : (k.writeG n v).lost = k.lost := by
  unfold Core.writeG; split <;> rfl
@[simp] theorem Core.writeG_parkDue (k : Core) (n : BitVec 5) (v : Word) : (k.writeG n v).parkDue = k.parkDue := by
  unfold Core.writeG; split <;> rfl
@[simp] theorem Core.writeG_parkAside (k : Core) (n : BitVec 5) (v : Word) : (k.writeG n v).parkAside = k.parkAside := by
  unfold Core.writeG; split <;> rfl
@[simp] theorem Core.writeG_heldEvent (k : Core) (n : BitVec 5) (v : Word) : (k.writeG n v).heldEvent = k.heldEvent := by
  unfold Core.writeG; split <;> rfl
@[simp] theorem Core.writeG_resumedBy (k : Core) (n : BitVec 5) (v : Word) : (k.writeG n v).resumedBy = k.resumedBy := by
  unfold Core.writeG; split <;> rfl
@[simp] theorem Core.writeG_vq (k : Core) (n : BitVec 5) (v : Word) : (k.writeG n v).vq = k.vq := by
  unfold Core.writeG; split <;> rfl
@[simp] theorem Core.writeG_minLots (k : Core) (n : BitVec 5) (v : Word) : (k.writeG n v).minLots = k.minLots := by
  unfold Core.writeG; split <;> rfl
@[simp] theorem Core.writeG_maxLots (k : Core) (n : BitVec 5) (v : Word) : (k.writeG n v).maxLots = k.maxLots := by
  unfold Core.writeG; split <;> rfl
@[simp] theorem Core.writeG_credit (k : Core) (n : BitVec 5) (v : Word) : (k.writeG n v).credit = k.credit := by
  unfold Core.writeG; split <;> rfl
@[simp] theorem Core.writeG_barWait (k : Core) (n : BitVec 5) (v : Word) : (k.writeG n v).barWait = k.barWait := by
  unfold Core.writeG; split <;> rfl
@[simp] theorem Core.writeG_sync (k : Core) (n : BitVec 5) (v : Word) : (k.writeG n v).sync = k.sync := by
  unfold Core.writeG; split <;> rfl
@[simp] theorem Core.writeG_reneg (k : Core) (n : BitVec 5) (v : Word) : (k.writeG n v).reneg = k.reneg := by
  unfold Core.writeG; split <;> rfl
@[simp] theorem Core.writeG_relSeq (k : Core) (n : BitVec 5) (v : Word) : (k.writeG n v).relSeq = k.relSeq := by
  unfold Core.writeG; split <;> rfl
@[simp] theorem Core.writeG_slot (k : Core) (n : BitVec 5) (v : Word) : (k.writeG n v).slot = k.slot := by
  unfold Core.writeG; split <;> rfl
@[simp] theorem Core.writeG_utlb (k : Core) (n : BitVec 5) (v : Word) : (k.writeG n v).utlb = k.utlb := by
  unfold Core.writeG; split <;> rfl

/-! ## `Core.writeM` -/

@[simp] theorem Core.writeM_csr (k : Core) (n : BitVec 3) (v : Word) : (k.writeM n v).csr = k.csr := by
  unfold Core.writeM; split <;> rfl
@[simp] theorem Core.writeM_pc (k : Core) (n : BitVec 3) (v : Word) : (k.writeM n v).pc = k.pc := by
  unfold Core.writeM; split <;> rfl
@[simp] theorem Core.writeM_tcm (k : Core) (n : BitVec 3) (v : Word) : (k.writeM n v).tcm = k.tcm := by
  unfold Core.writeM; split <;> rfl
@[simp] theorem Core.writeM_itcm (k : Core) (n : BitVec 3) (v : Word) : (k.writeM n v).itcm = k.itcm := by
  unfold Core.writeM; split <;> rfl
@[simp] theorem Core.writeM_stores (k : Core) (n : BitVec 3) (v : Word) : (k.writeM n v).stores = k.stores := by
  unfold Core.writeM; split <;> rfl
@[simp] theorem Core.writeM_inbox (k : Core) (n : BitVec 3) (v : Word) : (k.writeM n v).inbox = k.inbox := by
  unfold Core.writeM; split <;> rfl
@[simp] theorem Core.writeM_wake (k : Core) (n : BitVec 3) (v : Word) : (k.writeM n v).wake = k.wake := by
  unfold Core.writeM; split <;> rfl
@[simp] theorem Core.writeM_run (k : Core) (n : BitVec 3) (v : Word) : (k.writeM n v).run = k.run := by
  unfold Core.writeM; split <;> rfl
@[simp] theorem Core.writeM_wait (k : Core) (n : BitVec 3) (v : Word) : (k.writeM n v).wait = k.wait := by
  unfold Core.writeM; split <;> rfl
@[simp] theorem Core.writeM_preempt (k : Core) (n : BitVec 3) (v : Word) : (k.writeM n v).preempt = k.preempt := by
  unfold Core.writeM; split <;> rfl
@[simp] theorem Core.writeM_lost (k : Core) (n : BitVec 3) (v : Word) : (k.writeM n v).lost = k.lost := by
  unfold Core.writeM; split <;> rfl
@[simp] theorem Core.writeM_parkDue (k : Core) (n : BitVec 3) (v : Word) : (k.writeM n v).parkDue = k.parkDue := by
  unfold Core.writeM; split <;> rfl
@[simp] theorem Core.writeM_parkAside (k : Core) (n : BitVec 3) (v : Word) : (k.writeM n v).parkAside = k.parkAside := by
  unfold Core.writeM; split <;> rfl
@[simp] theorem Core.writeM_heldEvent (k : Core) (n : BitVec 3) (v : Word) : (k.writeM n v).heldEvent = k.heldEvent := by
  unfold Core.writeM; split <;> rfl
@[simp] theorem Core.writeM_resumedBy (k : Core) (n : BitVec 3) (v : Word) : (k.writeM n v).resumedBy = k.resumedBy := by
  unfold Core.writeM; split <;> rfl
@[simp] theorem Core.writeM_vq (k : Core) (n : BitVec 3) (v : Word) : (k.writeM n v).vq = k.vq := by
  unfold Core.writeM; split <;> rfl
@[simp] theorem Core.writeM_minLots (k : Core) (n : BitVec 3) (v : Word) : (k.writeM n v).minLots = k.minLots := by
  unfold Core.writeM; split <;> rfl
@[simp] theorem Core.writeM_maxLots (k : Core) (n : BitVec 3) (v : Word) : (k.writeM n v).maxLots = k.maxLots := by
  unfold Core.writeM; split <;> rfl
@[simp] theorem Core.writeM_credit (k : Core) (n : BitVec 3) (v : Word) : (k.writeM n v).credit = k.credit := by
  unfold Core.writeM; split <;> rfl
@[simp] theorem Core.writeM_barWait (k : Core) (n : BitVec 3) (v : Word) : (k.writeM n v).barWait = k.barWait := by
  unfold Core.writeM; split <;> rfl
@[simp] theorem Core.writeM_sync (k : Core) (n : BitVec 3) (v : Word) : (k.writeM n v).sync = k.sync := by
  unfold Core.writeM; split <;> rfl
@[simp] theorem Core.writeM_reneg (k : Core) (n : BitVec 3) (v : Word) : (k.writeM n v).reneg = k.reneg := by
  unfold Core.writeM; split <;> rfl
@[simp] theorem Core.writeM_relSeq (k : Core) (n : BitVec 3) (v : Word) : (k.writeM n v).relSeq = k.relSeq := by
  unfold Core.writeM; split <;> rfl
@[simp] theorem Core.writeM_slot (k : Core) (n : BitVec 3) (v : Word) : (k.writeM n v).slot = k.slot := by
  unfold Core.writeM; split <;> rfl
@[simp] theorem Core.writeM_utlb (k : Core) (n : BitVec 3) (v : Word) : (k.writeM n v).utlb = k.utlb := by
  unfold Core.writeM; split <;> rfl

/-! ## `Core.setCsr` -/

@[simp] theorem Core.setCsr_regs (k : Core) (r : Csr) : (k.setCsr r).regs = k.regs := rfl
@[simp] theorem Core.setCsr_pc (k : Core) (r : Csr) : (k.setCsr r).pc = k.pc := rfl
@[simp] theorem Core.setCsr_tcm (k : Core) (r : Csr) : (k.setCsr r).tcm = k.tcm := rfl
@[simp] theorem Core.setCsr_itcm (k : Core) (r : Csr) : (k.setCsr r).itcm = k.itcm := rfl
@[simp] theorem Core.setCsr_stores (k : Core) (r : Csr) : (k.setCsr r).stores = k.stores := rfl
@[simp] theorem Core.setCsr_inbox (k : Core) (r : Csr) : (k.setCsr r).inbox = k.inbox := rfl
@[simp] theorem Core.setCsr_wake (k : Core) (r : Csr) : (k.setCsr r).wake = k.wake := rfl
@[simp] theorem Core.setCsr_run (k : Core) (r : Csr) : (k.setCsr r).run = k.run := rfl
@[simp] theorem Core.setCsr_wait (k : Core) (r : Csr) : (k.setCsr r).wait = k.wait := rfl
@[simp] theorem Core.setCsr_preempt (k : Core) (r : Csr) : (k.setCsr r).preempt = k.preempt := rfl
@[simp] theorem Core.setCsr_lost (k : Core) (r : Csr) : (k.setCsr r).lost = k.lost := rfl
@[simp] theorem Core.setCsr_parkDue (k : Core) (r : Csr) : (k.setCsr r).parkDue = k.parkDue := rfl
@[simp] theorem Core.setCsr_parkAside (k : Core) (r : Csr) : (k.setCsr r).parkAside = k.parkAside := rfl
@[simp] theorem Core.setCsr_heldEvent (k : Core) (r : Csr) : (k.setCsr r).heldEvent = k.heldEvent := rfl
@[simp] theorem Core.setCsr_resumedBy (k : Core) (r : Csr) : (k.setCsr r).resumedBy = k.resumedBy := rfl
@[simp] theorem Core.setCsr_vq (k : Core) (r : Csr) : (k.setCsr r).vq = k.vq := rfl
@[simp] theorem Core.setCsr_minLots (k : Core) (r : Csr) : (k.setCsr r).minLots = k.minLots := rfl
@[simp] theorem Core.setCsr_maxLots (k : Core) (r : Csr) : (k.setCsr r).maxLots = k.maxLots := rfl
@[simp] theorem Core.setCsr_credit (k : Core) (r : Csr) : (k.setCsr r).credit = k.credit := rfl
@[simp] theorem Core.setCsr_barWait (k : Core) (r : Csr) : (k.setCsr r).barWait = k.barWait := rfl
@[simp] theorem Core.setCsr_sync (k : Core) (r : Csr) : (k.setCsr r).sync = k.sync := rfl
@[simp] theorem Core.setCsr_reneg (k : Core) (r : Csr) : (k.setCsr r).reneg = k.reneg := rfl
@[simp] theorem Core.setCsr_relSeq (k : Core) (r : Csr) : (k.setCsr r).relSeq = k.relSeq := rfl
@[simp] theorem Core.setCsr_slot (k : Core) (r : Csr) : (k.setCsr r).slot = k.slot := rfl
@[simp] theorem Core.setCsr_utlb (k : Core) (r : Csr) : (k.setCsr r).utlb = k.utlb := rfl

/-! ## `Core.retireTo` -/

@[simp] theorem Core.retireTo_regs (k : Core) (n : Word) : (k.retireTo n).regs = k.regs := rfl
@[simp] theorem Core.retireTo_tcm (k : Core) (n : Word) : (k.retireTo n).tcm = k.tcm := rfl
@[simp] theorem Core.retireTo_itcm (k : Core) (n : Word) : (k.retireTo n).itcm = k.itcm := rfl
@[simp] theorem Core.retireTo_stores (k : Core) (n : Word) : (k.retireTo n).stores = k.stores := rfl
@[simp] theorem Core.retireTo_inbox (k : Core) (n : Word) : (k.retireTo n).inbox = k.inbox := rfl
@[simp] theorem Core.retireTo_wake (k : Core) (n : Word) : (k.retireTo n).wake = k.wake := rfl
@[simp] theorem Core.retireTo_run (k : Core) (n : Word) : (k.retireTo n).run = k.run := rfl
@[simp] theorem Core.retireTo_preempt (k : Core) (n : Word) : (k.retireTo n).preempt = k.preempt := rfl
@[simp] theorem Core.retireTo_lost (k : Core) (n : Word) : (k.retireTo n).lost = k.lost := rfl
@[simp] theorem Core.retireTo_parkDue (k : Core) (n : Word) : (k.retireTo n).parkDue = k.parkDue := rfl
@[simp] theorem Core.retireTo_parkAside (k : Core) (n : Word) : (k.retireTo n).parkAside = k.parkAside := rfl
@[simp] theorem Core.retireTo_heldEvent (k : Core) (n : Word) : (k.retireTo n).heldEvent = k.heldEvent := rfl
@[simp] theorem Core.retireTo_resumedBy (k : Core) (n : Word) : (k.retireTo n).resumedBy = k.resumedBy := rfl
@[simp] theorem Core.retireTo_vq (k : Core) (n : Word) : (k.retireTo n).vq = k.vq := rfl
@[simp] theorem Core.retireTo_minLots (k : Core) (n : Word) : (k.retireTo n).minLots = k.minLots := rfl
@[simp] theorem Core.retireTo_maxLots (k : Core) (n : Word) : (k.retireTo n).maxLots = k.maxLots := rfl
@[simp] theorem Core.retireTo_credit (k : Core) (n : Word) : (k.retireTo n).credit = k.credit := rfl
@[simp] theorem Core.retireTo_reneg (k : Core) (n : Word) : (k.retireTo n).reneg = k.reneg := rfl
@[simp] theorem Core.retireTo_slot (k : Core) (n : Word) : (k.retireTo n).slot = k.slot := rfl
@[simp] theorem Core.retireTo_utlb (k : Core) (n : Word) : (k.retireTo n).utlb = k.utlb := rfl

/-! ## `Core.retire` -/

@[simp] theorem Core.retire_regs (k : Core) : (k.retire).regs = k.regs := rfl
@[simp] theorem Core.retire_tcm (k : Core) : (k.retire).tcm = k.tcm := rfl
@[simp] theorem Core.retire_itcm (k : Core) : (k.retire).itcm = k.itcm := rfl
@[simp] theorem Core.retire_stores (k : Core) : (k.retire).stores = k.stores := rfl
@[simp] theorem Core.retire_inbox (k : Core) : (k.retire).inbox = k.inbox := rfl
@[simp] theorem Core.retire_wake (k : Core) : (k.retire).wake = k.wake := rfl
@[simp] theorem Core.retire_run (k : Core) : (k.retire).run = k.run := rfl
@[simp] theorem Core.retire_preempt (k : Core) : (k.retire).preempt = k.preempt := rfl
@[simp] theorem Core.retire_lost (k : Core) : (k.retire).lost = k.lost := rfl
@[simp] theorem Core.retire_parkDue (k : Core) : (k.retire).parkDue = k.parkDue := rfl
@[simp] theorem Core.retire_parkAside (k : Core) : (k.retire).parkAside = k.parkAside := rfl
@[simp] theorem Core.retire_heldEvent (k : Core) : (k.retire).heldEvent = k.heldEvent := rfl
@[simp] theorem Core.retire_resumedBy (k : Core) : (k.retire).resumedBy = k.resumedBy := rfl
@[simp] theorem Core.retire_vq (k : Core) : (k.retire).vq = k.vq := rfl
@[simp] theorem Core.retire_minLots (k : Core) : (k.retire).minLots = k.minLots := rfl
@[simp] theorem Core.retire_maxLots (k : Core) : (k.retire).maxLots = k.maxLots := rfl
@[simp] theorem Core.retire_credit (k : Core) : (k.retire).credit = k.credit := rfl
@[simp] theorem Core.retire_reneg (k : Core) : (k.retire).reneg = k.reneg := rfl
@[simp] theorem Core.retire_slot (k : Core) : (k.retire).slot = k.slot := rfl
@[simp] theorem Core.retire_utlb (k : Core) : (k.retire).utlb = k.utlb := rfl

/-! ## `Core.enterTrap` -/

@[simp] theorem Core.enterTrap_regs (k : Core) (cause : BitVec 8) (aux : Word) (async : Bool) : (k.enterTrap cause aux async).regs = k.regs := rfl
@[simp] theorem Core.enterTrap_tcm (k : Core) (cause : BitVec 8) (aux : Word) (async : Bool) : (k.enterTrap cause aux async).tcm = k.tcm := rfl
@[simp] theorem Core.enterTrap_itcm (k : Core) (cause : BitVec 8) (aux : Word) (async : Bool) : (k.enterTrap cause aux async).itcm = k.itcm := rfl
@[simp] theorem Core.enterTrap_stores (k : Core) (cause : BitVec 8) (aux : Word) (async : Bool) : (k.enterTrap cause aux async).stores = k.stores := rfl
@[simp] theorem Core.enterTrap_inbox (k : Core) (cause : BitVec 8) (aux : Word) (async : Bool) : (k.enterTrap cause aux async).inbox = k.inbox := rfl
@[simp] theorem Core.enterTrap_wake (k : Core) (cause : BitVec 8) (aux : Word) (async : Bool) : (k.enterTrap cause aux async).wake = k.wake := rfl
@[simp] theorem Core.enterTrap_run (k : Core) (cause : BitVec 8) (aux : Word) (async : Bool) : (k.enterTrap cause aux async).run = k.run := rfl
@[simp] theorem Core.enterTrap_preempt (k : Core) (cause : BitVec 8) (aux : Word) (async : Bool) : (k.enterTrap cause aux async).preempt = k.preempt := rfl
@[simp] theorem Core.enterTrap_lost (k : Core) (cause : BitVec 8) (aux : Word) (async : Bool) : (k.enterTrap cause aux async).lost = k.lost := rfl
@[simp] theorem Core.enterTrap_parkDue (k : Core) (cause : BitVec 8) (aux : Word) (async : Bool) : (k.enterTrap cause aux async).parkDue = k.parkDue := rfl
@[simp] theorem Core.enterTrap_parkAside (k : Core) (cause : BitVec 8) (aux : Word) (async : Bool) : (k.enterTrap cause aux async).parkAside = k.parkAside := rfl
@[simp] theorem Core.enterTrap_heldEvent (k : Core) (cause : BitVec 8) (aux : Word) (async : Bool) : (k.enterTrap cause aux async).heldEvent = k.heldEvent := rfl
@[simp] theorem Core.enterTrap_resumedBy (k : Core) (cause : BitVec 8) (aux : Word) (async : Bool) : (k.enterTrap cause aux async).resumedBy = k.resumedBy := rfl
@[simp] theorem Core.enterTrap_vq (k : Core) (cause : BitVec 8) (aux : Word) (async : Bool) : (k.enterTrap cause aux async).vq = k.vq := rfl
@[simp] theorem Core.enterTrap_minLots (k : Core) (cause : BitVec 8) (aux : Word) (async : Bool) : (k.enterTrap cause aux async).minLots = k.minLots := rfl
@[simp] theorem Core.enterTrap_maxLots (k : Core) (cause : BitVec 8) (aux : Word) (async : Bool) : (k.enterTrap cause aux async).maxLots = k.maxLots := rfl
@[simp] theorem Core.enterTrap_credit (k : Core) (cause : BitVec 8) (aux : Word) (async : Bool) : (k.enterTrap cause aux async).credit = k.credit := rfl
@[simp] theorem Core.enterTrap_reneg (k : Core) (cause : BitVec 8) (aux : Word) (async : Bool) : (k.enterTrap cause aux async).reneg = k.reneg := rfl
@[simp] theorem Core.enterTrap_slot (k : Core) (cause : BitVec 8) (aux : Word) (async : Bool) : (k.enterTrap cause aux async).slot = k.slot := rfl
@[simp] theorem Core.enterTrap_utlb (k : Core) (cause : BitVec 8) (aux : Word) (async : Bool) : (k.enterTrap cause aux async).utlb = k.utlb := rfl

/-! ## `Core.leaveTrap` -/

@[simp] theorem Core.leaveTrap_regs (k : Core) : (k.leaveTrap).regs = k.regs := rfl
@[simp] theorem Core.leaveTrap_tcm (k : Core) : (k.leaveTrap).tcm = k.tcm := rfl
@[simp] theorem Core.leaveTrap_itcm (k : Core) : (k.leaveTrap).itcm = k.itcm := rfl
@[simp] theorem Core.leaveTrap_stores (k : Core) : (k.leaveTrap).stores = k.stores := rfl
@[simp] theorem Core.leaveTrap_inbox (k : Core) : (k.leaveTrap).inbox = k.inbox := rfl
@[simp] theorem Core.leaveTrap_wake (k : Core) : (k.leaveTrap).wake = k.wake := rfl
@[simp] theorem Core.leaveTrap_run (k : Core) : (k.leaveTrap).run = k.run := rfl
@[simp] theorem Core.leaveTrap_wait (k : Core) : (k.leaveTrap).wait = k.wait := rfl
@[simp] theorem Core.leaveTrap_preempt (k : Core) : (k.leaveTrap).preempt = k.preempt := rfl
@[simp] theorem Core.leaveTrap_lost (k : Core) : (k.leaveTrap).lost = k.lost := rfl
@[simp] theorem Core.leaveTrap_parkDue (k : Core) : (k.leaveTrap).parkDue = k.parkDue := rfl
@[simp] theorem Core.leaveTrap_heldEvent (k : Core) : (k.leaveTrap).heldEvent = k.heldEvent := rfl
@[simp] theorem Core.leaveTrap_resumedBy (k : Core) : (k.leaveTrap).resumedBy = k.resumedBy := rfl
@[simp] theorem Core.leaveTrap_vq (k : Core) : (k.leaveTrap).vq = k.vq := rfl
@[simp] theorem Core.leaveTrap_minLots (k : Core) : (k.leaveTrap).minLots = k.minLots := rfl
@[simp] theorem Core.leaveTrap_maxLots (k : Core) : (k.leaveTrap).maxLots = k.maxLots := rfl
@[simp] theorem Core.leaveTrap_credit (k : Core) : (k.leaveTrap).credit = k.credit := rfl
@[simp] theorem Core.leaveTrap_barWait (k : Core) : (k.leaveTrap).barWait = k.barWait := rfl
@[simp] theorem Core.leaveTrap_sync (k : Core) : (k.leaveTrap).sync = k.sync := rfl
@[simp] theorem Core.leaveTrap_reneg (k : Core) : (k.leaveTrap).reneg = k.reneg := rfl
@[simp] theorem Core.leaveTrap_relSeq (k : Core) : (k.leaveTrap).relSeq = k.relSeq := rfl
@[simp] theorem Core.leaveTrap_slot (k : Core) : (k.leaveTrap).slot = k.slot := rfl
@[simp] theorem Core.leaveTrap_utlb (k : Core) : (k.leaveTrap).utlb = k.utlb := rfl

/-! ## Reads after writes -/

@[simp] theorem State.coreAt_setCoreAt_self (s : State) (c : CoreId) (k : Core) : (s.setCoreAt c k).coreAt c = k := by
  simp [State.coreAt, State.setCoreAt]

theorem State.coreAt_setCoreAt_ne (s : State) {c d : CoreId} (k : Core) (h : d ≠ c) :
    (s.setCoreAt c k).coreAt d = s.coreAt d := by
  have h' : c.val ≠ d.val := fun e => h (Fin.ext e.symm)
  simp [State.coreAt, State.setCoreAt, Vector.getElem_set_ne _ _ h']

@[simp] theorem State.core_setCore (s : State) (k : Core) : (s.setCore k).core = k := by
  simp [State.core, State.setCore]

theorem State.coreAt_setCore_ne (s : State) {d : CoreId} (k : Core) (h : d ≠ s.cur) :
    (s.setCore k).coreAt d = s.coreAt d := by
  simp [State.setCore, State.coreAt_setCoreAt_ne _ _ h]

@[simp] theorem State.setCoreAt_setCoreAt (s : State) (c : CoreId) (k k' : Core) :
    (s.setCoreAt c k).setCoreAt c k' = s.setCoreAt c k' := by
  simp [State.setCoreAt, Vector.set_set]

@[simp] theorem State.setCore_setCore (s : State) (k k' : Core) : (s.setCore k).setCore k' = s.setCore k' := by
  simp [State.setCore]

@[simp] theorem State.coreAt_setCl (s : State) (i : ClusterId) (x : Cluster) (c : CoreId) :
    (s.setCl i x).coreAt c = s.coreAt c := rfl

@[simp] theorem State.coreAt_setTeam (s : State) (i : ClusterId) (t : Slot) (x : Option Team) (c : CoreId) :
    (s.setTeam i t x).coreAt c = s.coreAt c := rfl

@[simp] theorem State.cl_setCoreAt (s : State) (c : CoreId) (k : Core) (i : ClusterId) :
    (s.setCoreAt c k).cl i = s.cl i := rfl

@[simp] theorem State.cl_setCore (s : State) (k : Core) (i : ClusterId) : (s.setCore k).cl i = s.cl i := rfl

@[simp] theorem State.cl_setCl_self (s : State) (i : ClusterId) (x : Cluster) : (s.setCl i x).cl i = x := by
  simp [State.cl, State.setCl]

theorem State.cl_setCl_ne (s : State) {i j : ClusterId} (x : Cluster) (h : j ≠ i) : (s.setCl i x).cl j = s.cl j := by
  have h' : i.val ≠ j.val := fun e => h (Fin.ext e.symm)
  simp [State.cl, State.setCl, Vector.getElem_set_ne _ _ h']

@[simp] theorem State.team_setTeam_self (s : State) (i : ClusterId) (t : Slot) (x : Option Team) :
    (s.setTeam i t x).team i t = x := by
  simp [State.team, State.setTeam]

theorem State.retire_eq (s : State) : s.retire = s.setCore s.core.retire := rfl

theorem State.setG_eq (s : State) (n : BitVec 5) (v : Word) : s.setG n v = s.setCore (s.core.writeG n v) := rfl

theorem State.setF_eq (s : State) (n : BitVec 5) (v : Word) : s.setF n v = s.setCore (s.core.writeF n v) := rfl

/-- R98: g0 reads as zero. -/
@[simp] theorem Core.readG_zero (k : Core) : k.readG 0 = 0 := rfl

/-- R98: a write to g0 is discarded. -/
@[simp] theorem Core.writeG_zero (k : Core) (v : Word) : k.writeG 0 v = k := rfl

/-- R98: m0 reads as all ones. -/
@[simp] theorem Core.readM_zero (k : Core) : k.readM 0 = -1 := rfl

/-- R98: a write to m0 is discarded. -/
@[simp] theorem Core.writeM_zero (k : Core) (v : Word) : k.writeM 0 v = k := rfl

theorem vector_get_set_self {α : Type} {n : Nat} (v : Vector α n) (i : Nat) (h : i < n) (x : α) :
    (v.set i x h).get ⟨i, h⟩ = x := by
  change (v.set i x h)[i] = x
  simp

theorem vector_get_set_ne {α : Type} {n : Nat} (v : Vector α n) {i j : Nat} (hi : i < n) (hj : j < n) (x : α)
    (h : i ≠ j) : (v.set i x hi).get ⟨j, hj⟩ = v.get ⟨j, hj⟩ := by
  change (v.set i x hi)[j] = v[j]
  simp [Vector.getElem_set_ne, h]

theorem Core.readG_writeG_self (k : Core) {n : BitVec 5} (v : Word) (h : n ≠ 0) : (k.writeG n v).readG n = v := by
  unfold Core.readG Core.writeG
  rw [if_neg h, if_neg h]
  exact vector_get_set_self _ _ _ _

theorem Core.readG_writeG_ne (k : Core) {n r : BitVec 5} (v : Word) (h : r ≠ n) :
    (k.writeG n v).readG r = k.readG r := by
  have h' : n.toNat ≠ r.toNat := fun e => h (BitVec.eq_of_toNat_eq e.symm)
  unfold Core.readG Core.writeG
  by_cases hr : r = 0
  · rw [if_pos hr, if_pos hr]
  · rw [if_neg hr, if_neg hr]
    by_cases hn : n = 0
    · rw [if_pos hn]
    · rw [if_neg hn]
      exact vector_get_set_ne _ n.isLt r.isLt _ h'

theorem Core.readF_writeF_self (k : Core) (n : BitVec 5) (v : Word) : (k.writeF n v).readF n = v :=
  vector_get_set_self _ _ _ _

theorem Core.readF_writeF_ne (k : Core) {n r : BitVec 5} (v : Word) (h : r ≠ n) :
    (k.writeF n v).readF r = k.readF r :=
  vector_get_set_ne _ n.isLt r.isLt _ (fun e => h (BitVec.eq_of_toNat_eq e.symm))

theorem Core.readP_writeP_self (k : Core) (n : BitVec 4) (v : Word) : (k.writeP n v).readP n = v :=
  vector_get_set_self _ _ _ _

theorem Core.readM_writeM_self (k : Core) {n : BitVec 3} (v : Word) (h : n ≠ 0) : (k.writeM n v).readM n = v := by
  unfold Core.readM Core.writeM
  rw [if_neg h, if_neg h]
  exact vector_get_set_self _ _ _ _

theorem Core.readC_writeC_self (k : Core) (n : BitVec 4) (v : BitVec 8) : (k.writeC n v).readC n = v :=
  vector_get_set_self _ _ _ _

@[simp] theorem Core.readF_writeG (k : Core) (n r : BitVec 5) (v : Word) : (k.writeG n v).readF r = k.readF r := by
  unfold Core.writeG; split <;> rfl

@[simp] theorem Core.readG_writeF (k : Core) (n r : BitVec 5) (v : Word) : (k.writeF n v).readG r = k.readG r := rfl

@[simp] theorem Core.readG_retireTo (k : Core) (n : Word) (r : BitVec 5) : (k.retireTo n).readG r = k.readG r := rfl

@[simp] theorem Core.readF_retireTo (k : Core) (n : Word) (r : BitVec 5) : (k.retireTo n).readF r = k.readF r := rfl

@[simp] theorem Core.readG_retire (k : Core) (r : BitVec 5) : k.retire.readG r = k.readG r := rfl

@[simp] theorem Core.readF_retire (k : Core) (r : BitVec 5) : k.retire.readF r = k.readF r := rfl

@[simp] theorem Core.retire_pc (k : Core) : k.retire.pc = k.pc + 4 := rfl

@[simp] theorem Core.retireTo_pc (k : Core) (n : Word) : (k.retireTo n).pc = n := rfl

@[simp] theorem Core.retireTo_wait (k : Core) (n : Word) : (k.retireTo n).wait = .ready := rfl

@[simp] theorem Core.retire_wait (k : Core) : k.retire.wait = .ready := rfl

@[simp] theorem Core.retire_instret (k : Core) : k.retire.csr.instret = k.csr.instret + 1 := rfl

@[simp] theorem Core.leaveTrap_pc (k : Core) : k.leaveTrap.pc = k.csr.trappc := rfl

@[simp] theorem Core.enterTrap_trappc (k : Core) (cause : BitVec 8) (aux : Word) (async : Bool) :
    (k.enterTrap cause aux async).csr.trappc = k.pc := rfl

end Sys2Proof.Machine
end

