-- ==== Sys2Proof/Laws/Ops.lean ====
section
/-! SUPPORT. What each shared operation can do, said once. -/

namespace Sys2Proof.Machine

theorem SameMemory.setCore {s : State} {k : Core} (h : k.tcm = s.core.tcm) (h' : k.itcm = s.core.itcm) :
    SameMemory s (s.setCore k) where
  mem _ := rfl
  buffer _ := rfl
  tcm c a := by
    by_cases hc : c = s.cur
    · subst hc
      rw [show (s.setCore k).coreAt s.cur = k from State.core_setCore s k, h]; rfl
    · rw [State.coreAt_setCore_ne s k hc]
  itcm c a := by
    by_cases hc : c = s.cur
    · subst hc
      rw [show (s.setCore k).coreAt s.cur = k from State.core_setCore s k, h']; rfl
    · rw [State.coreAt_setCore_ne s k hc]
  spm _ _ := rfl
  acc _ _ := rfl

theorem Core.writeG_eq (k : Core) (d : BitVec 5) (v : Word) :
    k.writeG d v = { k with regs := { k.regs with g := (k.writeG d v).regs.g } } := by
  unfold Core.writeG; split <;> rfl

theorem State.setG_retire (s : State) (d : BitVec 5) (v : Word) :
    (s.setG d v).retire = s.setCore (s.core.writeG d v).retire := by
  simp [State.retire_eq, State.setG_eq]

theorem State.setF_retire (s : State) (d : BitVec 5) (v : Word) :
    (s.setF d v).retire = s.setCore (s.core.writeF d v).retire := by
  simp [State.retire_eq, State.setF_eq]

/-- `finishG` answers a next state, and this is all it does. -/
theorem finishG_wroteG (s : State) (d : BitVec 5) (v : Word) : ∃ t, finishG s d v = .next t ∧ WroteG s t d v := by
  refine ⟨_, rfl, ?_⟩
  rw [State.setG_retire]
  refine ⟨?_, ?_, ?_, by rw [State.core_setCore], SameMemory.setCore (by simp) (by simp)⟩
  · rw [State.g, State.core_setCore, Core.readG_retire]
    by_cases hd : d = 0
    · subst hd; rfl
    · rw [Core.readG_writeG_self _ _ hd, if_neg hd]
  · intro r hr
    rw [State.g, State.core_setCore, Core.readG_retire, Core.readG_writeG_ne _ _ hr]; rfl
  · rw [State.core_setCore]
    unfold Core.writeG; split <;> rfl

/-- A trap on a core that is in no trap answers a next state, and this is all it does (R107). -/
theorem trap_trapped (s : State) (cause : BitVec 8) (aux : Word) (h : s.core.csr.kstate.intrap = false) :
    ∃ t, trap s cause aux = .next t ∧ Trapped s t cause aux ∧
      t.pc = s.core.csr.trapv + 256 * .ofNat 64 (causeClass cause) := by
  have h' : (s.coreAt s.cur).csr.kstate.intrap = false := h
  have e : s.trapAt s.cur cause aux false = s.setCore (s.core.enterTrap cause aux false) := by
    simp only [State.trapAt, h', Bool.false_eq_true, if_false]; rfl
  refine ⟨_, rfl, ?_, ?_⟩
  · rw [e]
    refine ⟨?_, ?_, ?_, ?_, ⟨?_, ?_⟩, ?_, ?_, by rw [State.core_setCore], SameMemory.setCore (by simp) (by simp)⟩ <;>
      simp only [State.core_setCore, State.pc] <;> rfl
  · rw [e, State.pc, State.core_setCore]; rfl

/-- Raising flags on the current core changes that core's FFLAGS and, where the thread parks, KSTATE.PARK, PARKINF and
the core's own park state, and nothing else (R35, R146). -/
theorem State.raiseAt_core (s : State) (fl : Flags) (o : Nat) : ∃ k, s.raiseAt s.cur fl o = s.setCore k ∧
    k.regs = s.core.regs ∧ k.pc = s.core.pc ∧ k.tcm = s.core.tcm ∧ k.itcm = s.core.itcm ∧
    k.csr = { s.core.csr with fflags := s.core.csr.fflags ||| fl, parkinf := k.csr.parkinf,
                              kstate := { s.core.csr.kstate with park := k.csr.kstate.park } } ∧
    (fl &&& s.core.csr.fenable = 0 → k.csr.kstate = s.core.csr.kstate ∧ k.csr.parkinf = s.core.csr.parkinf) := by
  have hc : s.coreAt s.cur = s.core := rfl
  unfold State.raiseAt
  by_cases h : fl &&& s.core.csr.fenable = 0
  · refine ⟨{ s.core with csr := { s.core.csr with fflags := s.core.csr.fflags ||| fl } }, ?_, rfl, rfl, rfl, rfl, rfl,
      fun _ => ⟨rfl, rfl⟩⟩
    simp only [hc, h, if_true]; rfl
  · simp only [hc, h, if_false]
    unfold State.duePark
    simp only [State.coreAt_setCoreAt_self, State.parkAt, State.setCoreAt_setCoreAt]
    split
    · exact ⟨_, rfl, rfl, rfl, rfl, rfl, rfl, fun h' => absurd h' (by simp)⟩
    · split
      · exact ⟨_, rfl, rfl, rfl, rfl, rfl, rfl, fun h' => absurd h' (by simp)⟩
      · exact ⟨_, rfl, rfl, rfl, rfl, rfl, rfl, fun h' => absurd h' (by simp)⟩

/-- `finishF` answers a next state, and this is all it does. -/
theorem finishF_wroteF (s : State) (d : BitVec 5) (v : Word) (fl : Flags) :
    ∃ t, finishF s d v fl = .next t ∧ WroteF s t d v fl := by
  obtain ⟨k, e, hr, hp, ht, hi, hc, hu⟩ := State.raiseAt_core (s.setF d v).retire fl 1
  have e' : (s.setF d v).retire.raiseAt s.cur fl 1 = s.setCore k := by
    have : (s.setF d v).retire.cur = s.cur := rfl
    rw [← this, e, State.setF_retire, State.setCore_setCore]
  have hcore : (s.setF d v).retire.core = (s.core.writeF d v).retire := by rw [State.setF_retire, State.core_setCore]
  rw [hcore] at hr hp ht hi hc hu
  refine ⟨_, rfl, ?_⟩
  rw [e']
  refine ⟨?_, ?_, ?_, ?_, ?_, ?_, ?_, by rw [State.core_setCore], SameMemory.setCore (by rw [ht]; rfl) (by rw [hi]; rfl)⟩
  · rw [State.f, State.core_setCore, Core.readF, hr]; exact Core.readF_writeF_self _ _ _
  · intro r hr'
    rw [State.f, State.core_setCore, Core.readF, hr]; exact Core.readF_writeF_ne _ _ hr'
  · rw [State.core_setCore, hr]; rfl
  · rw [State.pc, State.core_setCore, hp]; rfl
  · rw [State.core_setCore, hc]; rfl
  · rw [State.core_setCore, hc]; rfl
  · intro h; rw [State.core_setCore]; exact hu h

/-- `finishGF` answers a next state, and this is all it does. -/
theorem finishGF_wroteGF (s : State) (d : BitVec 5) (v : Word) (fl : Flags) :
    ∃ t, finishGF s d v fl = .next t ∧ WroteGF s t d v fl := by
  obtain ⟨k, e, hr, hp, ht, hi, hc, hu⟩ := State.raiseAt_core (s.setG d v).retire fl 1
  have e' : (s.setG d v).retire.raiseAt s.cur fl 1 = s.setCore k := by
    have : (s.setG d v).retire.cur = s.cur := rfl
    rw [← this, e, State.setG_retire, State.setCore_setCore]
  have hcore : (s.setG d v).retire.core = (s.core.writeG d v).retire := by rw [State.setG_retire, State.core_setCore]
  rw [hcore] at hr hp ht hi hc hu
  have hcsr : (s.core.writeG d v).retire.csr = s.core.retire.csr := by
    simp only [Core.retire, Core.retireTo, Core.writeG_csr]
  refine ⟨_, rfl, ?_⟩
  rw [e']
  rw [hcsr] at hc hu
  refine ⟨?_, ?_, ?_, ?_, ?_, ?_, ?_, by rw [State.core_setCore], SameMemory.setCore (by rw [ht]; simp) (by rw [hi]; simp)⟩
  · have key : k.readG d = (s.core.writeG d v).readG d := by unfold Core.readG; rw [hr]; rfl
    rw [State.g, State.core_setCore, key]
    by_cases hd : d = 0
    · subst hd; rfl
    · rw [if_neg hd, Core.readG_writeG_self _ _ hd]
  · intro r hr'
    have key : k.readG r = (s.core.writeG d v).readG r := by unfold Core.readG; rw [hr]; rfl
    rw [State.g, State.core_setCore, key, Core.readG_writeG_ne _ _ hr']; rfl
  · rw [State.core_setCore, hr]
    unfold Core.writeG; split <;> rfl
  · rw [State.pc, State.core_setCore, hp, Core.retire_pc, Core.writeG_pc]; rfl
  · rw [State.core_setCore, hc]; rfl
  · rw [State.core_setCore, hc]; rfl
  · intro h; rw [State.core_setCore]; exact hu h

end Sys2Proof.Machine
end

