-- ==== Sys2Proof/Laws/PerInstr.lean ====
section
/-! SUPPORT. What is said of every instruction as syntax: it has one encoding at most. -/

namespace Sys2Proof.Laws.OneKind

/-- At most one of these holds of an instruction: it has a 32-bit word, it has a 256-bit command word, it has a code of
the Rannen port, it is an event of the package (spec/04 R78, R87, spec/23 R394). -/
def Statement (i : Instr) : Prop :=
  [(encodeNat i).isSome, (encodeCommand i).isSome && (commandEngine i).isSome, (encodeTap i).isSome,
    Machine.isEvent i].count true ≤ 1

theorem add (d : BitVec 5) (a : BitVec 5) (b : BitVec 5) : Statement (.add d a b) := Nat.le_refl 1
theorem sub (d : BitVec 5) (a : BitVec 5) (b : BitVec 5) : Statement (.sub d a b) := Nat.le_refl 1
theorem and (d : BitVec 5) (a : BitVec 5) (b : BitVec 5) : Statement (.and d a b) := Nat.le_refl 1
theorem or (d : BitVec 5) (a : BitVec 5) (b : BitVec 5) : Statement (.or d a b) := Nat.le_refl 1
theorem xor (d : BitVec 5) (a : BitVec 5) (b : BitVec 5) : Statement (.xor d a b) := Nat.le_refl 1
theorem sll (d : BitVec 5) (a : BitVec 5) (b : BitVec 5) : Statement (.sll d a b) := Nat.le_refl 1
theorem srl (d : BitVec 5) (a : BitVec 5) (b : BitVec 5) : Statement (.srl d a b) := Nat.le_refl 1
theorem sra (d : BitVec 5) (a : BitVec 5) (b : BitVec 5) : Statement (.sra d a b) := Nat.le_refl 1
theorem slt (d : BitVec 5) (a : BitVec 5) (b : BitVec 5) : Statement (.slt d a b) := Nat.le_refl 1
theorem sltu (d : BitVec 5) (a : BitVec 5) (b : BitVec 5) : Statement (.sltu d a b) := Nat.le_refl 1
theorem min (d : BitVec 5) (a : BitVec 5) (b : BitVec 5) : Statement (.min d a b) := Nat.le_refl 1
theorem max (d : BitVec 5) (a : BitVec 5) (b : BitVec 5) : Statement (.max d a b) := Nat.le_refl 1
theorem minu (d : BitVec 5) (a : BitVec 5) (b : BitVec 5) : Statement (.minu d a b) := Nat.le_refl 1
theorem maxu (d : BitVec 5) (a : BitVec 5) (b : BitVec 5) : Statement (.maxu d a b) := Nat.le_refl 1
theorem ror (d : BitVec 5) (a : BitVec 5) (b : BitVec 5) : Statement (.ror d a b) := Nat.le_refl 1
theorem clz (d : BitVec 5) (a : BitVec 5) : Statement (.clz d a) := Nat.le_refl 1
theorem ctz (d : BitVec 5) (a : BitVec 5) : Statement (.ctz d a) := Nat.le_refl 1
theorem popc (d : BitVec 5) (a : BitVec 5) : Statement (.popc d a) := Nat.le_refl 1
theorem addi (d : BitVec 5) (a : BitVec 5) (i : BitVec 16) : Statement (.addi d a i) := Nat.le_refl 1
theorem andi (d : BitVec 5) (a : BitVec 5) (i : BitVec 16) : Statement (.andi d a i) := Nat.le_refl 1
theorem ori (d : BitVec 5) (a : BitVec 5) (i : BitVec 16) : Statement (.ori d a i) := Nat.le_refl 1
theorem xori (d : BitVec 5) (a : BitVec 5) (i : BitVec 16) : Statement (.xori d a i) := Nat.le_refl 1
theorem slti (d : BitVec 5) (a : BitVec 5) (i : BitVec 16) : Statement (.slti d a i) := Nat.le_refl 1
theorem sltiu (d : BitVec 5) (a : BitVec 5) (i : BitVec 16) : Statement (.sltiu d a i) := Nat.le_refl 1
theorem slli (d : BitVec 5) (a : BitVec 5) (s : BitVec 6) : Statement (.slli d a s) := Nat.le_refl 1
theorem srli (d : BitVec 5) (a : BitVec 5) (s : BitVec 6) : Statement (.srli d a s) := Nat.le_refl 1
theorem srai (d : BitVec 5) (a : BitVec 5) (s : BitVec 6) : Statement (.srai d a s) := Nat.le_refl 1
theorem rori (d : BitVec 5) (a : BitVec 5) (s : BitVec 6) : Statement (.rori d a s) := Nat.le_refl 1
theorem lui (d : BitVec 5) (i : BitVec 16) : Statement (.lui d i) := Nat.le_refl 1
theorem addpc (d : BitVec 5) (i : BitVec 16) : Statement (.addpc d i) := Nat.le_refl 1
theorem mul (d : BitVec 5) (a : BitVec 5) (b : BitVec 5) : Statement (.mul d a b) := Nat.le_refl 1
theorem mulh (d : BitVec 5) (a : BitVec 5) (b : BitVec 5) : Statement (.mulh d a b) := Nat.le_refl 1
theorem mulhu (d : BitVec 5) (a : BitVec 5) (b : BitVec 5) : Statement (.mulhu d a b) := Nat.le_refl 1
theorem mulhsu (d : BitVec 5) (a : BitVec 5) (b : BitVec 5) : Statement (.mulhsu d a b) := Nat.le_refl 1
theorem div (d : BitVec 5) (a : BitVec 5) (b : BitVec 5) : Statement (.div d a b) := Nat.le_refl 1
theorem divu (d : BitVec 5) (a : BitVec 5) (b : BitVec 5) : Statement (.divu d a b) := Nat.le_refl 1
theorem rem (d : BitVec 5) (a : BitVec 5) (b : BitVec 5) : Statement (.rem d a b) := Nat.le_refl 1
theorem remu (d : BitVec 5) (a : BitVec 5) (b : BitVec 5) : Statement (.remu d a b) := Nat.le_refl 1
theorem ldb (d : BitVec 5) (a : BitVec 5) (i : BitVec 16) : Statement (.ldb d a i) := Nat.le_refl 1
theorem ldbu (d : BitVec 5) (a : BitVec 5) (i : BitVec 16) : Statement (.ldbu d a i) := Nat.le_refl 1
theorem ldh (d : BitVec 5) (a : BitVec 5) (i : BitVec 16) : Statement (.ldh d a i) := Nat.le_refl 1
theorem ldhu (d : BitVec 5) (a : BitVec 5) (i : BitVec 16) : Statement (.ldhu d a i) := Nat.le_refl 1
theorem ldw (d : BitVec 5) (a : BitVec 5) (i : BitVec 16) : Statement (.ldw d a i) := Nat.le_refl 1
theorem ldwu (d : BitVec 5) (a : BitVec 5) (i : BitVec 16) : Statement (.ldwu d a i) := Nat.le_refl 1
theorem ld (d : BitVec 5) (a : BitVec 5) (i : BitVec 16) : Statement (.ld d a i) := Nat.le_refl 1
theorem stb (d : BitVec 5) (a : BitVec 5) (i : BitVec 16) : Statement (.stb d a i) := Nat.le_refl 1
theorem sth (d : BitVec 5) (a : BitVec 5) (i : BitVec 16) : Statement (.sth d a i) := Nat.le_refl 1
theorem stw (d : BitVec 5) (a : BitVec 5) (i : BitVec 16) : Statement (.stw d a i) := Nat.le_refl 1
theorem st (d : BitVec 5) (a : BitVec 5) (i : BitVec 16) : Statement (.st d a i) := Nat.le_refl 1
theorem fldw (d : BitVec 5) (a : BitVec 5) (i : BitVec 16) : Statement (.fldw d a i) := Nat.le_refl 1
theorem fldd (d : BitVec 5) (a : BitVec 5) (i : BitVec 16) : Statement (.fldd d a i) := Nat.le_refl 1
theorem fstw (d : BitVec 5) (a : BitVec 5) (i : BitVec 16) : Statement (.fstw d a i) := Nat.le_refl 1
theorem fstd (d : BitVec 5) (a : BitVec 5) (i : BitVec 16) : Statement (.fstd d a i) := Nat.le_refl 1
theorem savemG (d : BitVec 5) (a : BitVec 5) (b : BitVec 5) : Statement (.savemG d a b) := Nat.le_refl 1
theorem loadmG (d : BitVec 5) (a : BitVec 5) (b : BitVec 5) : Statement (.loadmG d a b) := Nat.le_refl 1
theorem savemF (d : BitVec 5) (a : BitVec 5) (b : BitVec 5) : Statement (.savemF d a b) := Nat.le_refl 1
theorem loadmF (d : BitVec 5) (a : BitVec 5) (b : BitVec 5) : Statement (.loadmF d a b) := Nat.le_refl 1
theorem beq (a : BitVec 5) (b : BitVec 5) (i : BitVec 16) : Statement (.beq a b i) := Nat.le_refl 1
theorem bne (a : BitVec 5) (b : BitVec 5) (i : BitVec 16) : Statement (.bne a b i) := Nat.le_refl 1
theorem blt (a : BitVec 5) (b : BitVec 5) (i : BitVec 16) : Statement (.blt a b i) := Nat.le_refl 1
theorem bge (a : BitVec 5) (b : BitVec 5) (i : BitVec 16) : Statement (.bge a b i) := Nat.le_refl 1
theorem bltu (a : BitVec 5) (b : BitVec 5) (i : BitVec 16) : Statement (.bltu a b i) := Nat.le_refl 1
theorem bgeu (a : BitVec 5) (b : BitVec 5) (i : BitVec 16) : Statement (.bgeu a b i) := Nat.le_refl 1
theorem jal (d : BitVec 5) (i : BitVec 21) : Statement (.jal d i) := Nat.le_refl 1
theorem jalr (d : BitVec 5) (a : BitVec 5) (i : BitVec 16) : Statement (.jalr d a i) := Nat.le_refl 1
theorem fadd (d : BitVec 5) (a : BitVec 5) (b : BitVec 5) (p : Bool) : Statement (.fadd d a b p) := Nat.le_refl 1
theorem fsub (d : BitVec 5) (a : BitVec 5) (b : BitVec 5) (p : Bool) : Statement (.fsub d a b p) := Nat.le_refl 1
theorem fmul (d : BitVec 5) (a : BitVec 5) (b : BitVec 5) (p : Bool) : Statement (.fmul d a b p) := Nat.le_refl 1
theorem fdiv (d : BitVec 5) (a : BitVec 5) (b : BitVec 5) (p : Bool) : Statement (.fdiv d a b p) := Nat.le_refl 1
theorem fsqrt (d : BitVec 5) (a : BitVec 5) (p : Bool) : Statement (.fsqrt d a p) := Nat.le_refl 1
theorem fmin (d : BitVec 5) (a : BitVec 5) (b : BitVec 5) (p : Bool) : Statement (.fmin d a b p) := Nat.le_refl 1
theorem fmax (d : BitVec 5) (a : BitVec 5) (b : BitVec 5) (p : Bool) : Statement (.fmax d a b p) := Nat.le_refl 1
theorem fsgnj (d : BitVec 5) (a : BitVec 5) (b : BitVec 5) (p : Bool) : Statement (.fsgnj d a b p) := Nat.le_refl 1
theorem fsgnjn (d : BitVec 5) (a : BitVec 5) (b : BitVec 5) (p : Bool) : Statement (.fsgnjn d a b p) := Nat.le_refl 1
theorem fsgnjx (d : BitVec 5) (a : BitVec 5) (b : BitVec 5) (p : Bool) : Statement (.fsgnjx d a b p) := Nat.le_refl 1
theorem feq (d : BitVec 5) (a : BitVec 5) (b : BitVec 5) (p : Bool) : Statement (.feq d a b p) := Nat.le_refl 1
theorem flt (d : BitVec 5) (a : BitVec 5) (b : BitVec 5) (p : Bool) : Statement (.flt d a b p) := Nat.le_refl 1
theorem fle (d : BitVec 5) (a : BitVec 5) (b : BitVec 5) (p : Bool) : Statement (.fle d a b p) := Nat.le_refl 1
theorem fclass (d : BitVec 5) (a : BitVec 5) (p : Bool) : Statement (.fclass d a p) := Nat.le_refl 1
theorem fcvtSD (d : BitVec 5) (a : BitVec 5) : Statement (.fcvtSD d a) := Nat.le_refl 1
theorem fcvtDS (d : BitVec 5) (a : BitVec 5) : Statement (.fcvtDS d a) := Nat.le_refl 1
theorem fcvtWS (d : BitVec 5) (a : BitVec 5) : Statement (.fcvtWS d a) := Nat.le_refl 1
theorem fcvtLS (d : BitVec 5) (a : BitVec 5) : Statement (.fcvtLS d a) := Nat.le_refl 1
theorem fcvtSW (d : BitVec 5) (a : BitVec 5) : Statement (.fcvtSW d a) := Nat.le_refl 1
theorem fcvtSL (d : BitVec 5) (a : BitVec 5) : Statement (.fcvtSL d a) := Nat.le_refl 1
theorem fcvtWD (d : BitVec 5) (a : BitVec 5) : Statement (.fcvtWD d a) := Nat.le_refl 1
theorem fcvtLD (d : BitVec 5) (a : BitVec 5) : Statement (.fcvtLD d a) := Nat.le_refl 1
theorem fcvtDW (d : BitVec 5) (a : BitVec 5) : Statement (.fcvtDW d a) := Nat.le_refl 1
theorem fcvtDL (d : BitVec 5) (a : BitVec 5) : Statement (.fcvtDL d a) := Nat.le_refl 1
theorem fmvX (d : BitVec 5) (a : BitVec 5) : Statement (.fmvX d a) := Nat.le_refl 1
theorem fmvF (d : BitVec 5) (a : BitVec 5) : Statement (.fmvF d a) := Nat.le_refl 1
theorem fcvtBfS (d : BitVec 5) (a : BitVec 5) : Statement (.fcvtBfS d a) := Nat.le_refl 1
theorem fcvtSBf (d : BitVec 5) (a : BitVec 5) : Statement (.fcvtSBf d a) := Nat.le_refl 1
theorem fcvtE4S (d : BitVec 5) (a : BitVec 5) : Statement (.fcvtE4S d a) := Nat.le_refl 1
theorem fcvtSE4 (d : BitVec 5) (a : BitVec 5) : Statement (.fcvtSE4 d a) := Nat.le_refl 1
theorem fcvtE5S (d : BitVec 5) (a : BitVec 5) : Statement (.fcvtE5S d a) := Nat.le_refl 1
theorem fcvtSE5 (d : BitVec 5) (a : BitVec 5) : Statement (.fcvtSE5 d a) := Nat.le_refl 1
theorem fmadd (d : BitVec 5) (a : BitVec 5) (b : BitVec 5) (c : BitVec 5) (p : Bool) : Statement (.fmadd d a b c p) := Nat.le_refl 1
theorem fmsub (d : BitVec 5) (a : BitVec 5) (b : BitVec 5) (c : BitVec 5) (p : Bool) : Statement (.fmsub d a b c p) := Nat.le_refl 1
theorem fnmadd (d : BitVec 5) (a : BitVec 5) (b : BitVec 5) (c : BitVec 5) (p : Bool) : Statement (.fnmadd d a b c p) := Nat.le_refl 1
theorem fnmsub (d : BitVec 5) (a : BitVec 5) (b : BitVec 5) (c : BitVec 5) (p : Bool) : Statement (.fnmsub d a b c p) := Nat.le_refl 1
theorem rdc (d : BitVec 5) (r : BitVec 12) : Statement (.rdc d r) := Nat.le_refl 1
theorem wrc (a : BitVec 5) (r : BitVec 12) : Statement (.wrc a r) := Nat.le_refl 1
theorem resume (d : BitVec 5) (a : BitVec 5) : Statement (.resume d a) := Nat.le_refl 1
theorem amoAdd (d : BitVec 5) (a : BitVec 5) (b : BitVec 5) (n : Bool) (w : Bool) : Statement (.amoAdd d a b n w) := Nat.le_refl 1
theorem amoMin (d : BitVec 5) (a : BitVec 5) (b : BitVec 5) (n : Bool) (w : Bool) : Statement (.amoMin d a b n w) := Nat.le_refl 1
theorem amoMax (d : BitVec 5) (a : BitVec 5) (b : BitVec 5) (n : Bool) (w : Bool) : Statement (.amoMax d a b n w) := Nat.le_refl 1
theorem amoSwap (d : BitVec 5) (a : BitVec 5) (b : BitVec 5) (n : Bool) (w : Bool) : Statement (.amoSwap d a b n w) := Nat.le_refl 1
theorem amoCas (d : BitVec 5) (a : BitVec 5) (b : BitVec 5) (c : BitVec 5) (n : Bool) (w : Bool) : Statement (.amoCas d a b c n w) := Nat.le_refl 1
theorem amoAnd (d : BitVec 5) (a : BitVec 5) (b : BitVec 5) (n : Bool) (w : Bool) : Statement (.amoAnd d a b n w) := Nat.le_refl 1
theorem amoOr (d : BitVec 5) (a : BitVec 5) (b : BitVec 5) (n : Bool) (w : Bool) : Statement (.amoOr d a b n w) := Nat.le_refl 1
theorem amoXor (d : BitVec 5) (a : BitVec 5) (b : BitVec 5) (n : Bool) (w : Bool) : Statement (.amoXor d a b n w) := Nat.le_refl 1
theorem amoWimin (d : BitVec 5) (a : BitVec 5) (b : BitVec 5) (n : Bool) (w : Bool) : Statement (.amoWimin d a b n w) := Nat.le_refl 1
theorem amoMinu (d : BitVec 5) (a : BitVec 5) (b : BitVec 5) (n : Bool) (w : Bool) : Statement (.amoMinu d a b n w) := Nat.le_refl 1
theorem amoMaxu (d : BitVec 5) (a : BitVec 5) (b : BitVec 5) (n : Bool) (w : Bool) : Statement (.amoMaxu d a b n w) := Nat.le_refl 1
theorem amoFadd (d : BitVec 5) (a : BitVec 5) (b : BitVec 5) (n : Bool) (w : Bool) : Statement (.amoFadd d a b n w) := Nat.le_refl 1
theorem ship (d : BitVec 5) (a : BitVec 5) (b : BitVec 5) (n : Bool) : Statement (.ship d a b n) := Nat.le_refl 1
theorem mprb (d : BitVec 5) (a : BitVec 5) (b : BitVec 5) : Statement (.mprb d a b) := Nat.le_refl 1
theorem mins (d : BitVec 5) (a : BitVec 5) (b : BitVec 5) (c : BitVec 5) : Statement (.mins d a b c) := Nat.le_refl 1
theorem mupsAdd (d : BitVec 5) (a : BitVec 5) (b : BitVec 5) (c : BitVec 5) : Statement (.mupsAdd d a b c) := Nat.le_refl 1
theorem mupsMin (d : BitVec 5) (a : BitVec 5) (b : BitVec 5) (c : BitVec 5) : Statement (.mupsMin d a b c) := Nat.le_refl 1
theorem mupsMax (d : BitVec 5) (a : BitVec 5) (b : BitVec 5) (c : BitVec 5) : Statement (.mupsMax d a b c) := Nat.le_refl 1
theorem mupsOr (d : BitVec 5) (a : BitVec 5) (b : BitVec 5) (c : BitVec 5) : Statement (.mupsOr d a b c) := Nat.le_refl 1
theorem mupsAnd (d : BitVec 5) (a : BitVec 5) (b : BitVec 5) (c : BitVec 5) : Statement (.mupsAnd d a b c) := Nat.le_refl 1
theorem mupsXor (d : BitVec 5) (a : BitVec 5) (b : BitVec 5) (c : BitVec 5) : Statement (.mupsXor d a b c) := Nat.le_refl 1
theorem mupsReplace (d : BitVec 5) (a : BitVec 5) (b : BitVec 5) (c : BitVec 5) : Statement (.mupsReplace d a b c) := Nat.le_refl 1
theorem mupsFirst (d : BitVec 5) (a : BitVec 5) (b : BitVec 5) (c : BitVec 5) : Statement (.mupsFirst d a b c) := Nat.le_refl 1
theorem mrem (d : BitVec 5) (a : BitVec 5) (b : BitVec 5) : Statement (.mrem d a b) := Nat.le_refl 1
theorem mhash (d : BitVec 5) (a : BitVec 5) (b : BitVec 5) : Statement (.mhash d a b) := Nat.le_refl 1
theorem miter (d : BitVec 5) (a : BitVec 5) (b : BitVec 5) (c : BitVec 5) : Statement (.miter d a b c) := Nat.le_refl 1
theorem claim (a : BitVec 5) : Statement (.claim a) := Nat.le_refl 1
theorem acq (a : BitVec 5) : Statement (.acq a) := Nat.le_refl 1
theorem acqT (d : BitVec 5) (a : BitVec 5) : Statement (.acqT d a) := Nat.le_refl 1
theorem rel (a : BitVec 5) : Statement (.rel a) := Nat.le_refl 1
theorem vclaim (d : BitVec 5) (a : BitVec 5) (b : BitVec 5) : Statement (.vclaim d a b) := Nat.le_refl 1
theorem vreneg (d : BitVec 5) : Statement (.vreneg d) := Nat.le_refl 1
theorem barDef (a : BitVec 5) (b : BitVec 5) : Statement (.barDef a b) := Nat.le_refl 1
theorem barArrive (a : BitVec 5) : Statement (.barArrive a) := Nat.le_refl 1
theorem barWait (a : BitVec 5) : Statement (.barWait a) := Nat.le_refl 1
theorem barSync (a : BitVec 5) : Statement (.barSync a) := Nat.le_refl 1
theorem barDrop (a : BitVec 5) : Statement (.barDrop a) := Nat.le_refl 1
theorem barMax (d : BitVec 5) (a : BitVec 5) (b : BitVec 5) : Statement (.barMax d a b) := Nat.le_refl 1
theorem waitc (d : BitVec 4) (i : BitVec 8) : Statement (.waitc d i) := Nat.le_refl 1
theorem waitcReg (d : BitVec 4) (a : BitVec 5) : Statement (.waitcReg d a) := Nat.le_refl 1
theorem rdcnt (d : BitVec 5) (a : BitVec 4) : Statement (.rdcnt d a) := Nat.le_refl 1
theorem send (d : BitVec 5) (a : BitVec 5) (t : BitVec 4) : Statement (.send d a t) := Nat.le_refl 1
theorem recv (d : BitVec 5) : Statement (.recv d) := Nat.le_refl 1
theorem recvT (d : BitVec 5) : Statement (.recvT d) := Nat.le_refl 1
theorem enq (e : BitVec 3) (c : BitVec 4) (a : BitVec 5) (d : BitVec 5) : Statement (.enq e c a d) := Nat.le_refl 1
theorem pset (d : BitVec 4) (a : BitVec 5) : Statement (.pset d a) := Nat.le_refl 1
theorem pstep (d : BitVec 4) (a : BitVec 5) : Statement (.pstep d a) := Nat.le_refl 1
theorem prd (d : BitVec 5) (a : BitVec 4) : Statement (.prd d a) := Nat.le_refl 1
theorem prdstep (d : BitVec 5) (a : BitVec 4) : Statement (.prdstep d a) := Nat.le_refl 1
theorem mkset (d : BitVec 3) (a : BitVec 5) : Statement (.mkset d a) := Nat.le_refl 1
theorem mkget (d : BitVec 5) (a : BitVec 3) : Statement (.mkget d a) := Nat.le_refl 1
theorem mkand (d : BitVec 3) (a : BitVec 3) (b : BitVec 3) : Statement (.mkand d a b) := Nat.le_refl 1
theorem mkor (d : BitVec 3) (a : BitVec 3) (b : BitVec 3) : Statement (.mkor d a b) := Nat.le_refl 1
theorem mkxor (d : BitVec 3) (a : BitVec 3) (b : BitVec 3) : Statement (.mkxor d a b) := Nat.le_refl 1
theorem mkandn (d : BitVec 3) (a : BitVec 3) (b : BitVec 3) : Statement (.mkandn d a b) := Nat.le_refl 1
theorem acmrd (d : BitVec 5) (a : BitVec 5) : Statement (.acmrd d a) := Nat.le_refl 1
theorem acmrdN (d : BitVec 5) (a : BitVec 5) : Statement (.acmrdN d a) := Nat.le_refl 1
theorem acmwr (a : BitVec 5) (b : BitVec 5) : Statement (.acmwr a b) := Nat.le_refl 1
theorem grid (d : BitVec 5) (a : BitVec 5) (b : BitVec 5) : Statement (.grid d a b) := Nat.le_refl 1
theorem vaddFp (f : BitVec 3) (d : BitVec 4) (a : BitVec 4) (b : BitVec 4) (m : BitVec 3) (p : Bool) (s : Bool) : Statement (.vaddFp f d a b m p s) := Nat.le_refl 1
theorem vsubFp (f : BitVec 3) (d : BitVec 4) (a : BitVec 4) (b : BitVec 4) (m : BitVec 3) (p : Bool) (s : Bool) : Statement (.vsubFp f d a b m p s) := Nat.le_refl 1
theorem vmulFp (f : BitVec 3) (d : BitVec 4) (a : BitVec 4) (b : BitVec 4) (m : BitVec 3) (p : Bool) (s : Bool) : Statement (.vmulFp f d a b m p s) := Nat.le_refl 1
theorem vfma (f : BitVec 3) (d : BitVec 4) (a : BitVec 4) (b : BitVec 4) (m : BitVec 3) (p : Bool) (s : Bool) : Statement (.vfma f d a b m p s) := Nat.le_refl 1
theorem vfms (f : BitVec 3) (d : BitVec 4) (a : BitVec 4) (b : BitVec 4) (m : BitVec 3) (p : Bool) (s : Bool) : Statement (.vfms f d a b m p s) := Nat.le_refl 1
theorem vminFp (f : BitVec 3) (d : BitVec 4) (a : BitVec 4) (b : BitVec 4) (m : BitVec 3) (p : Bool) (s : Bool) : Statement (.vminFp f d a b m p s) := Nat.le_refl 1
theorem vmaxFp (f : BitVec 3) (d : BitVec 4) (a : BitVec 4) (b : BitVec 4) (m : BitVec 3) (p : Bool) (s : Bool) : Statement (.vmaxFp f d a b m p s) := Nat.le_refl 1
theorem vabsFp (f : BitVec 3) (d : BitVec 4) (a : BitVec 4) (m : BitVec 3) (p : Bool) : Statement (.vabsFp f d a m p) := Nat.le_refl 1
theorem vneg (f : BitVec 3) (d : BitVec 4) (a : BitVec 4) (m : BitVec 3) (p : Bool) : Statement (.vneg f d a m p) := Nat.le_refl 1
theorem vaddInt (f : BitVec 3) (d : BitVec 4) (a : BitVec 4) (b : BitVec 4) (m : BitVec 3) (p : Bool) (s : Bool) : Statement (.vaddInt f d a b m p s) := Nat.le_refl 1
theorem vsubInt (f : BitVec 3) (d : BitVec 4) (a : BitVec 4) (b : BitVec 4) (m : BitVec 3) (p : Bool) (s : Bool) : Statement (.vsubInt f d a b m p s) := Nat.le_refl 1
theorem vmulInt (f : BitVec 3) (d : BitVec 4) (a : BitVec 4) (b : BitVec 4) (m : BitVec 3) (p : Bool) (s : Bool) : Statement (.vmulInt f d a b m p s) := Nat.le_refl 1
theorem vmulh (f : BitVec 3) (d : BitVec 4) (a : BitVec 4) (b : BitVec 4) (m : BitVec 3) (p : Bool) (s : Bool) : Statement (.vmulh f d a b m p s) := Nat.le_refl 1
theorem vminInt (f : BitVec 3) (d : BitVec 4) (a : BitVec 4) (b : BitVec 4) (m : BitVec 3) (p : Bool) (s : Bool) : Statement (.vminInt f d a b m p s) := Nat.le_refl 1
theorem vmaxInt (f : BitVec 3) (d : BitVec 4) (a : BitVec 4) (b : BitVec 4) (m : BitVec 3) (p : Bool) (s : Bool) : Statement (.vmaxInt f d a b m p s) := Nat.le_refl 1
theorem vminu (f : BitVec 3) (d : BitVec 4) (a : BitVec 4) (b : BitVec 4) (m : BitVec 3) (p : Bool) (s : Bool) : Statement (.vminu f d a b m p s) := Nat.le_refl 1
theorem vmaxu (f : BitVec 3) (d : BitVec 4) (a : BitVec 4) (b : BitVec 4) (m : BitVec 3) (p : Bool) (s : Bool) : Statement (.vmaxu f d a b m p s) := Nat.le_refl 1
theorem vadds (f : BitVec 3) (d : BitVec 4) (a : BitVec 4) (b : BitVec 4) (m : BitVec 3) (p : Bool) (s : Bool) : Statement (.vadds f d a b m p s) := Nat.le_refl 1
theorem vsubs (f : BitVec 3) (d : BitVec 4) (a : BitVec 4) (b : BitVec 4) (m : BitVec 3) (p : Bool) (s : Bool) : Statement (.vsubs f d a b m p s) := Nat.le_refl 1
theorem vabsInt (f : BitVec 3) (d : BitVec 4) (a : BitVec 4) (m : BitVec 3) (p : Bool) : Statement (.vabsInt f d a m p) := Nat.le_refl 1
theorem vand (f : BitVec 3) (d : BitVec 4) (a : BitVec 4) (b : BitVec 4) (m : BitVec 3) (p : Bool) (s : Bool) : Statement (.vand f d a b m p s) := Nat.le_refl 1
theorem vor (f : BitVec 3) (d : BitVec 4) (a : BitVec 4) (b : BitVec 4) (m : BitVec 3) (p : Bool) (s : Bool) : Statement (.vor f d a b m p s) := Nat.le_refl 1
theorem vxor (f : BitVec 3) (d : BitVec 4) (a : BitVec 4) (b : BitVec 4) (m : BitVec 3) (p : Bool) (s : Bool) : Statement (.vxor f d a b m p s) := Nat.le_refl 1
theorem vandn (f : BitVec 3) (d : BitVec 4) (a : BitVec 4) (b : BitVec 4) (m : BitVec 3) (p : Bool) (s : Bool) : Statement (.vandn f d a b m p s) := Nat.le_refl 1
theorem vnot (f : BitVec 3) (d : BitVec 4) (a : BitVec 4) (m : BitVec 3) (p : Bool) : Statement (.vnot f d a m p) := Nat.le_refl 1
theorem vsll (f : BitVec 3) (d : BitVec 4) (a : BitVec 4) (b : BitVec 4) (m : BitVec 3) (p : Bool) (s : Bool) : Statement (.vsll f d a b m p s) := Nat.le_refl 1
theorem vsrl (f : BitVec 3) (d : BitVec 4) (a : BitVec 4) (b : BitVec 4) (m : BitVec 3) (p : Bool) (s : Bool) : Statement (.vsrl f d a b m p s) := Nat.le_refl 1
theorem vsra (f : BitVec 3) (d : BitVec 4) (a : BitVec 4) (b : BitVec 4) (m : BitVec 3) (p : Bool) (s : Bool) : Statement (.vsra f d a b m p s) := Nat.le_refl 1
theorem vceq (f : BitVec 3) (d : BitVec 3) (a : BitVec 4) (b : BitVec 4) (m : BitVec 3) (p : Bool) (s : Bool) : Statement (.vceq f d a b m p s) := Nat.le_refl 1
theorem vclt (f : BitVec 3) (d : BitVec 3) (a : BitVec 4) (b : BitVec 4) (m : BitVec 3) (p : Bool) (s : Bool) : Statement (.vclt f d a b m p s) := Nat.le_refl 1
theorem vcle (f : BitVec 3) (d : BitVec 3) (a : BitVec 4) (b : BitVec 4) (m : BitVec 3) (p : Bool) (s : Bool) : Statement (.vcle f d a b m p s) := Nat.le_refl 1
theorem vcne (f : BitVec 3) (d : BitVec 3) (a : BitVec 4) (b : BitVec 4) (m : BitVec 3) (p : Bool) (s : Bool) : Statement (.vcne f d a b m p s) := Nat.le_refl 1
theorem vsel (f : BitVec 3) (d : BitVec 4) (a : BitVec 4) (b : BitVec 4) (m : BitVec 3) (s : Bool) : Statement (.vsel f d a b m s) := Nat.le_refl 1
theorem vcvt (f : BitVec 3) (d : BitVec 4) (a : BitVec 4) (s : BitVec 3) (m : BitVec 3) (p : Bool) : Statement (.vcvt f d a s m p) := Nat.le_refl 1
theorem vquant (f : BitVec 3) (d : BitVec 4) (a : BitVec 4) (b : BitVec 4) (m : BitVec 3) (p : Bool) : Statement (.vquant f d a b m p) := Nat.le_refl 1
theorem vpk3 (f : BitVec 3) (d : BitVec 4) (a : BitVec 4) : Statement (.vpk3 f d a) := Nat.le_refl 1
theorem vupk3 (f : BitVec 3) (d : BitVec 4) (a : BitVec 4) : Statement (.vupk3 f d a) := Nat.le_refl 1
theorem vredsum (f : BitVec 3) (d : BitVec 4) (a : BitVec 4) (m : BitVec 3) : Statement (.vredsum f d a m) := Nat.le_refl 1
theorem vredmax (f : BitVec 3) (d : BitVec 4) (a : BitVec 4) (m : BitVec 3) : Statement (.vredmax f d a m) := Nat.le_refl 1
theorem vredmin (f : BitVec 3) (d : BitVec 4) (a : BitVec 4) (m : BitVec 3) : Statement (.vredmin f d a m) := Nat.le_refl 1
theorem vexp2 (d : BitVec 4) (a : BitVec 4) (m : BitVec 3) (p : Bool) : Statement (.vexp2 d a m p) := Nat.le_refl 1
theorem vlog2 (d : BitVec 4) (a : BitVec 4) (m : BitVec 3) (p : Bool) : Statement (.vlog2 d a m p) := Nat.le_refl 1
theorem vrcp (d : BitVec 4) (a : BitVec 4) (m : BitVec 3) (p : Bool) : Statement (.vrcp d a m p) := Nat.le_refl 1
theorem vrsqrt (d : BitVec 4) (a : BitVec 4) (m : BitVec 3) (p : Bool) : Statement (.vrsqrt d a m p) := Nat.le_refl 1
theorem vtanh (d : BitVec 4) (a : BitVec 4) (m : BitVec 3) (p : Bool) : Statement (.vtanh d a m p) := Nat.le_refl 1
theorem vmov (f : BitVec 3) (d : BitVec 4) (a : BitVec 4) (m : BitVec 3) (p : Bool) : Statement (.vmov f d a m p) := Nat.le_refl 1
theorem vmovScalar (f : BitVec 3) (d : BitVec 4) (b : BitVec 4) (m : BitVec 3) (p : Bool) : Statement (.vmovScalar f d b m p) := Nat.le_refl 1
theorem vgath (f : BitVec 3) (d : BitVec 4) (a : BitVec 4) (b : BitVec 4) (m : BitVec 3) (p : Bool) : Statement (.vgath f d a b m p) := Nat.le_refl 1
theorem vscat (f : BitVec 3) (d : BitVec 4) (a : BitVec 4) (b : BitVec 4) (m : BitVec 3) : Statement (.vscat f d a b m) := Nat.le_refl 1
theorem vtopk (d : BitVec 4) (a : BitVec 4) (b : BitVec 4) (m : BitVec 3) : Statement (.vtopk d a b m) := Nat.le_refl 1
theorem arrMkboard (h : Hdr) (slot : BitVec 3) (width : BitVec 13) (wscale : BitVec 21) : Statement (.arrMkboard h slot width wscale) := Nat.le_refl 1
theorem arrClrboard (h : Hdr) (slot : BitVec 3) : Statement (.arrClrboard h slot) := Nat.le_refl 1
theorem arrMmt (h : Hdr) (kchain : Bool) (accum : Bool) (rowptr : BitVec 21) (stride : BitVec 21) (ascale : BitVec 21) (accbase : BitVec 21) (lead : BitVec 19) (m : BitVec 9) (fmt : BitVec 2) (mask : BitVec 8) : Statement (.arrMmt h kchain accum rowptr stride ascale accbase lead m fmt mask) := Nat.le_refl 1
theorem arrAcmout (h : Hdr) (clear : Bool) (scl : Bool) (accbase : BitVec 21) (lead : BitVec 19) (dst : BitVec 21) (dstride : BitVec 21) (cols : BitVec 16) (rows : BitVec 9) (rscale : BitVec 32) (ofmt : BitVec 2) : Statement (.arrAcmout h clear scl accbase lead dst dstride cols rows rscale ofmt) := Nat.le_refl 1
theorem cpyCopy (h : Hdr) (cvt : Bool) (src : BitVec 48) (sacc : Bool) (dst : BitVec 48) (dacc : Bool) (len : BitVec 20) (rows : BitVec 12) (sstride : BitVec 32) (dstride : BitVec 32) : Statement (.cpyCopy h cvt src sacc dst dacc len rows sstride dstride) := Nat.le_refl 1
theorem cpyFill (h : Hdr) (pattern : BitVec 32) (dst : BitVec 48) (dacc : Bool) (len : BitVec 20) (rows : BitVec 12) (dstride : BitVec 32) : Statement (.cpyFill h pattern dst dacc len rows dstride) := Nat.le_refl 1
theorem cpyPref (h : Hdr) (addr : BitVec 48) (count : BitVec 16) : Statement (.cpyPref h addr count) := Nat.le_refl 1
theorem cpyTierq (h : Hdr) (addr : BitVec 48) : Statement (.cpyTierq h addr) := Nat.le_refl 1
theorem colDecl (h : Hdr) (gid : BitVec 12) (mem : BitVec 128) (fab : BitVec 32) : Statement (.colDecl h gid mem fab) := Nat.le_refl 1
theorem colDeclT (h : Hdr) (gid : BitVec 12) (mem : BitVec 128) (fab : BitVec 32) : Statement (.colDeclT h gid mem fab) := Nat.le_refl 1
theorem colAllgather (h : Hdr) (gid : BitVec 12) (src : BitVec 22) (dst : BitVec 22) (bytes : BitVec 21) : Statement (.colAllgather h gid src dst bytes) := Nat.le_refl 1
theorem colRedscat (h : Hdr) (gid : BitVec 12) (src : BitVec 22) (dst : BitVec 22) (bytes : BitVec 21) (op : BitVec 2) (fmt : BitVec 2) : Statement (.colRedscat h gid src dst bytes op fmt) := Nat.le_refl 1
theorem colAlltoall (h : Hdr) (gid : BitVec 12) (src : BitVec 22) (dst : BitVec 22) (bytes : BitVec 21) : Statement (.colAlltoall h gid src dst bytes) := Nat.le_refl 1
theorem colBcast (h : Hdr) (gid : BitVec 12) (src : BitVec 22) (dst : BitVec 22) (bytes : BitVec 21) (root : BitVec 12) : Statement (.colBcast h gid src dst bytes root) := Nat.le_refl 1
theorem colBarrier (h : Hdr) (gid : BitVec 12) : Statement (.colBarrier h gid) := Nat.le_refl 1
theorem colMaxbar (h : Hdr) (gid : BitVec 12) (src : BitVec 22) (dst : BitVec 22) : Statement (.colMaxbar h gid src dst) := Nat.le_refl 1
theorem agtMapnew (h : Hdr) (base : BitVec 48) (zpg : BitVec 16) (default : BitVec 64) (seed : BitVec 64) (l0 : BitVec 5) (lmax : BitVec 5) (kw : Bool) (vw : Bool) (comb : BitVec 3) : Statement (.agtMapnew h base zpg default seed l0 lmax kw vw comb) := Nat.le_refl 1
theorem agtMapdel (h : Hdr) (handle : BitVec 10) : Statement (.agtMapdel h handle) := Nat.le_refl 1
theorem agtRtload (h : Hdr) (src : BitVec 48) (first : BitVec 8) (count : BitVec 8) : Statement (.agtRtload h src first count) := Nat.le_refl 1
theorem preempt (c : CoreId) : Statement (.preempt c) := Nat.le_refl 1
theorem clusterFailure (k : ClusterId) : Statement (.clusterFailure k) := Nat.le_refl 1
theorem clusterLost (c : CoreId) : Statement (.clusterLost c) := Nat.le_refl 1
theorem spareTestDone (k : ClusterId) (passed : Bool) : Statement (.spareTestDone k passed) := Nat.le_refl 1
theorem fpEvent (c : CoreId) : Statement (.fpEvent c) := Nat.le_refl 1
theorem tabortWrite (v : Word) : Statement (.tabortWrite v) := Nat.zero_le 1
theorem teamEnd (k : ClusterId) (t : Slot) : Statement (.teamEnd k t) := Nat.le_refl 1
theorem shootGo (v : Word) : Statement (.shootGo v) := Nat.zero_le 1
theorem efaultClear (v : Word) : Statement (.efaultClear v) := Nat.zero_le 1
theorem spflagWrite (v : Word) : Statement (.spflagWrite v) := Nat.zero_le 1
theorem wrrwWrite (v : Word) : Statement (.wrrwWrite v) := Nat.zero_le 1
theorem storeRelease (c : CoreId) : Statement (.storeRelease c) := Nat.le_refl 1
theorem storeAccept (q : StoreSource) : Statement (.storeAccept q) := Nat.le_refl 1
theorem loadServed (c : CoreId) : Statement (.loadServed c) := Nat.le_refl 1
theorem messageArrival (d : MsgDest) : Statement (.messageArrival d) := Nat.le_refl 1
theorem blockedListRedecide (k : ClusterId) : Statement (.blockedListRedecide k) := Nat.le_refl 1
theorem zeroingDone (k : ClusterId) : Statement (.zeroingDone k) := Nat.le_refl 1
theorem pageRelocation (k : ClusterId) : Statement (.pageRelocation k) := Nat.le_refl 1
theorem barrierRelease (k : ClusterId) (t : Slot) (id : BitVec 8) : Statement (.barrierRelease k t id) := Nat.le_refl 1
theorem barrierTimeout (c : CoreId) : Statement (.barrierTimeout c) := Nat.le_refl 1
theorem collectiveMatch (seq : Nat) : Statement (.collectiveMatch seq) := Nat.le_refl 1
theorem collectivePacketArrival (i : Nat) : Statement (.collectivePacketArrival i) := Nat.le_refl 1
theorem boardConversionDone (k : ClusterId) (grp : Slot) : Statement (.boardConversionDone k grp) := Nat.le_refl 1
theorem boardClearDone (k : ClusterId) (grp : Slot) : Statement (.boardClearDone k grp) := Nat.le_refl 1
theorem rowGrant (k : ClusterId) : Statement (.rowGrant k) := Nat.le_refl 1
theorem drainBeat (k : ClusterId) : Statement (.drainBeat k) := Nat.le_refl 1
theorem copyGranuleGrant (seq : Nat) : Statement (.copyGranuleGrant seq) := Nat.le_refl 1
theorem copyGranuleWrite (seq : Nat) : Statement (.copyGranuleWrite seq) := Nat.le_refl 1
theorem tierMigration (die : DieId) : Statement (.tierMigration die) := Nat.le_refl 1
theorem commandComplete (seq : Nat) : Statement (.commandComplete seq) := Nat.le_refl 1
theorem vectorRetire (c : CoreId) : Statement (.vectorRetire c) := Nat.le_refl 1
theorem sfuExecute (k : ClusterId) : Statement (.sfuExecute k) := Nat.le_refl 1
theorem topkMerge (k : ClusterId) : Statement (.topkMerge k) := Nat.le_refl 1
theorem shippedOpPerform (i : Nat) : Statement (.shippedOpPerform i) := Nat.le_refl 1
theorem shippedReply (c : CoreId) : Statement (.shippedReply c) := Nat.le_refl 1
theorem mapOpPerform (i : Nat) : Statement (.mapOpPerform i) := Nat.le_refl 1
theorem splitStep (asid : BitVec 12) (handle : BitVec 10) (seg : BitVec 3) : Statement (.splitStep asid handle seg) := Nat.le_refl 1
theorem mapdelComplete (seq : Nat) : Statement (.mapdelComplete seq) := Nat.le_refl 1
theorem rtloadTableWrite (seq : Nat) : Statement (.rtloadTableWrite seq) := Nat.le_refl 1
theorem stackSelfRefresh (st : StackId) : Statement (.stackSelfRefresh st) := Nat.le_refl 1
theorem memoryStall (st : StackId) : Statement (.memoryStall st) := Nat.le_refl 1
theorem stackWake (st : StackId) : Statement (.stackWake st) := Nat.le_refl 1
theorem pagePrecharge (st : StackId) : Statement (.pagePrecharge st) := Nat.le_refl 1
theorem bankRebuildStart (k : ClusterId) (grp : Slot) (bank : Slot) : Statement (.bankRebuildStart k grp bank) := Nat.le_refl 1
theorem bankRebuilt (k : ClusterId) (grp : Slot) : Statement (.bankRebuilt k grp) := Nat.le_refl 1
theorem channelFailure (st : StackId) (ch : BitVec 5) : Statement (.channelFailure st ch) := Nat.le_refl 1
theorem channelRetired (st : StackId) : Statement (.channelRetired st) := Nat.le_refl 1
theorem threadStart (k : ClusterId) (t : Slot) : Statement (.threadStart k t) := Nat.le_refl 1
theorem coreFreed (c : CoreId) : Statement (.coreFreed c) := Nat.le_refl 1
theorem gridComplete (gid : BitVec 32) : Statement (.gridComplete gid) := Nat.le_refl 1
theorem hostDoorbell (q : BitVec 5) (addr : Word) : Statement (.hostDoorbell q addr) := Nat.le_refl 1
theorem hostPacketCheck (q : BitVec 5) (readOk : Bool) : Statement (.hostPacketCheck q readOk) := Nat.le_refl 1
theorem hsemTake (n : BitVec 6) (takers : List Requester) : Statement (.hsemTake n takers) := Nat.le_refl 1
theorem hsemRelease (n : BitVec 6) (who : Requester) : Statement (.hsemRelease n who) := Nat.le_refl 1
theorem hostLinkDown (port : Fin 2) : Statement (.hostLinkDown port) := Nat.le_refl 1
theorem serviceCoreReset (svc : ServiceId) : Statement (.serviceCoreReset svc) := Nat.le_refl 1
theorem configRegisterWrite (who : Requester) (off : BitVec 26) (size : BitVec 4) (v : Word) : Statement (.configRegisterWrite who off size v) := Nat.le_refl 1
theorem bufctlGo (who : Requester) (v : Word) : Statement (.bufctlGo who v) := Nat.le_refl 1
theorem cfgrejClear (die : DieId) (v : Word) : Statement (.cfgrejClear die v) := Nat.le_refl 1
theorem fabidWrite (who : Requester) (v : Word) : Statement (.fabidWrite who v) := Nat.le_refl 1
theorem pwrcapWrite (who : Requester) (v : Word) : Statement (.pwrcapWrite who v) := Nat.le_refl 1
theorem spctlWrite (who : Requester) (v : Word) : Statement (.spctlWrite who v) := Nat.le_refl 1
theorem tmstatClear (who : Requester) (die : DieId) (v : Word) : Statement (.tmstatClear who die v) := Nat.le_refl 1
theorem affmissClear (v : Word) : Statement (.affmissClear v) := Nat.le_refl 1
theorem hostWindowRead (port : Fin 2) (off : BitVec 40) (n : Nat) : Statement (.hostWindowRead port off n) := Nat.le_refl 1
theorem hostWindowWrite (port : Fin 2) (off : BitVec 40) (bytes : List Byte) : Statement (.hostWindowWrite port off bytes) := Nat.le_refl 1
theorem attest (who : Requester) : Statement (.attest who) := Nat.le_refl 1
theorem keyLoad (who : Requester) : Statement (.keyLoad who) := Nat.le_refl 1
theorem keyClear (who : Requester) : Statement (.keyClear who) := Nat.le_refl 1
theorem frzcmdWrite (v : Word) : Statement (.frzcmdWrite v) := Nat.le_refl 1
theorem reset (imageOk : Bool) : Statement (.reset imageOk) := Nat.le_refl 1
theorem illegalInstruction (w : BitVec 32) : Statement (.illegalInstruction w) := Nat.zero_le 1
theorem reservedField (w : BitVec 32) : Statement (.reservedField w) := Nat.zero_le 1
theorem fetchRegion (a : Word) : Statement (.fetchRegion a) := Nat.zero_le 1
theorem peerLinkDown (link : BitVec 3) : Statement (.peerLinkDown link) := Nat.le_refl 1
theorem fenceCore : Statement .fenceCore := Nat.le_refl 1
theorem fenceTeam : Statement .fenceTeam := Nat.le_refl 1
theorem fenceCluster : Statement .fenceCluster := Nat.le_refl 1
theorem fenceDie : Statement .fenceDie := Nat.le_refl 1
theorem fencePackage : Statement .fencePackage := Nat.le_refl 1
theorem fenceFabric : Statement .fenceFabric := Nat.le_refl 1
theorem fenceSystem : Statement .fenceSystem := Nat.le_refl 1
theorem eret : Statement .eret := Nat.le_refl 1
theorem wfi : Statement .wfi := Nat.le_refl 1
theorem endThread : Statement .endThread := Nat.le_refl 1
theorem relall : Statement .relall := Nat.le_refl 1
theorem vfence : Statement .vfence := Nat.le_refl 1
theorem vdrain : Statement .vdrain := Nat.le_refl 1
theorem shootdownComplete : Statement .shootdownComplete := Nat.le_refl 1
theorem powerThrottle : Statement .powerThrottle := Nat.le_refl 1
theorem throttleEnd : Statement .throttleEnd := Nat.le_refl 1
theorem schedulingDecision : Statement .schedulingDecision := Nat.le_refl 1
theorem bufferAssignDone : Statement .bufferAssignDone := Nat.le_refl 1
theorem frzPin : Statement .frzPin := Nat.le_refl 1
theorem freeze : Statement .freeze := Nat.le_refl 1
theorem idcode : Statement .idcode := Nat.le_refl 1
theorem fmaddr : Statement .fmaddr := Nat.le_refl 1
theorem fmdata : Statement .fmdata := Nat.le_refl 1
theorem bypass : Statement .bypass := Nat.le_refl 1

end Sys2Proof.Laws.OneKind
end

