-- ==== Sys2Proof/Laws/Shared.lean ====
section
/-! SUPPORT. What the operations that many instructions share can do: one lemma for each. -/

namespace Sys2Proof.Machine

/-- A request to the Claim Unit waits for a later cycle, or is decided (R179). -/
theorem claimTurn_cases (s : State) (go : State → Result) :
    claimTurn s go = .next s ∨ claimTurn s go = go s.noteDecision := by
  unfold claimTurn; split <;> simp

/-- A release of units always answers a next state: it waits, clears boards, or acts, ends the conversions of the groups
it releases and retires (R184). -/
theorem releaseWhen_cases (s : State) (t : Slot) (y : Team) (idx : List Nat) (act : Cluster → Cluster) :
    releaseWhen s t y idx act = .next (((s.cl s.curCluster).converters t idx).foldl State.endConversion
      (s.setCl s.curCluster (act (s.cl s.curCluster)))).retire ∨
    ∃ n, releaseWhen s t y idx act = .next (s.setCore { s.core with relSeq := some n }) ∨
      releaseWhen s t y idx act =
        .next ((s.setCl s.curCluster ((s.cl s.curCluster).clearBoards t idx)).setCore { s.core with relSeq := some n }) := by
  unfold releaseWhen
  dsimp only
  split
  · exact .inr ⟨_, .inl rfl⟩
  · split
    · exact .inr ⟨_, .inr rfl⟩
    · exact .inl rfl

/-- The checks of a vector instruction's issue: it waits, traps with MISALIGNED or ACM_BUSY, or goes on (R226, R231,
R233). -/
theorem vecIssue_cases (s : State) (srcs : List Stream) (dst : Option Stream) (also : List Stream) (go : Result) :
    vecIssue s srcs dst also go = .next s ∨ (∃ w, vecIssue s srcs dst also go = trap s causeMisaligned w) ∨
    (∃ w, vecIssue s srcs dst also go = trap s causeAcmBusy w) ∨ vecIssue s srcs dst also go = go := by
  unfold vecIssue
  split
  · exact .inl rfl
  · split
    · exact .inr (.inl ⟨_, rfl⟩)
    · split
      · exact .inr (.inr (.inl ⟨_, rfl⟩))
      · split
        · exact .inl rfl
        · exact .inr (.inr (.inr rfl))

/-- An exception is the entry of R107, or the end of a team whose core is in a trap (R112). -/
theorem trapAt_cases (s : State) (c : CoreId) (cause : BitVec 8) (aux : Word) (async : Bool) :
    (¬(s.coreAt c).csr.kstate.intrap ∧
      s.trapAt c cause aux async = s.setCoreAt c ((s.coreAt c).enterTrap cause aux async)) ∨
    ((s.coreAt c).csr.kstate.intrap ∧ s.trapAt c cause aux async =
      (s.setCoreAt c { s.coreAt c with wait := .ready }).endFatally c causeDoubleTrap
        ((s.coreAt c).pc <<< 8 ||| zext cause)) := by
  unfold State.trapAt
  dsimp only
  split
  · exact .inr ⟨by assumption, rfl⟩
  · exact .inl ⟨by assumption, rfl⟩

/-- An event that is enabled happens; one that is not changes nothing. -/
theorem fire_cases (s : State) (o : Option State) :
    (∃ t, o = some t ∧ fire s o = .next t) ∨ (o = none ∧ fire s o = .next s) := by
  cases o with
  | none => exact .inr ⟨rfl, rfl⟩
  | some t => exact .inl ⟨t, rfl, rfl⟩

/-- A write of a whole register is applied where its guard lets it, else discarded and counted (R380, R381). -/
theorem writeWhole_cases (s : State) (who : Requester) (r : Reg) (v : Word) :
    (s.mayConfigure who r ∧ s.writeWhole who r v = s.applyReg who v r) ∨
    (¬s.mayConfigure who r ∧ s.writeWhole who r v = s.rejectWrite who r.countDie) := by
  unfold State.writeWhole
  split
  · exact .inl ⟨by assumption, rfl⟩
  · exact .inr ⟨by assumption, rfl⟩

/-- A request leaves for its home through a queue of its way, or reaches the home at once (R52). -/
theorem depart_cases (s : State) (c : CoreId) (pa : Nat) (x : TransitItem) :
    (∃ q, wayQueue c pa = some q ∧ s.depart c pa x = some (s.enqueue q c x)) ∨
    (wayQueue c pa = none ∧ s.depart c pa x = s.reachHome pa x fun q => s.request q c x) := by
  unfold State.depart
  split
  · rename_i q h
    exact .inl ⟨q, h, rfl⟩
  · rename_i h
    exact .inr ⟨h, rfl⟩

/-- A granule of the copy engine at its home replaces a line, faults on one in error, or is merged (R135, R304, R305). -/
theorem landGranule_cases (s : State) (g : Granule) (u : Seal) :
    (g.whole = true ∧ s.landGranule g u = s.writeLine g.place g.data u) ∨
    (g.whole = false ∧ s.lineBad g.place = true ∧ s.landGranule g u = (s.mergeFault g).countBuddy g.place) ∨
    (g.whole = false ∧ s.lineBad g.place = false ∧ s.landGranule g u = s.mergeLine g.place (Memory.writeCells s.mem g.cells) u) := by
  unfold State.landGranule
  cases g.whole <;> cases s.lineBad g.place <;> simp

/-- Part of a line is merged, or dropped where the line is in error or fails its MAC (R135, R387). -/
theorem mergeLine_cases (s : State) (pa : Nat) (m : Mem) (u : Seal) :
    ((s.lineFault pa u).isSome ∧ s.mergeLine pa m u = s.countBuddy pa) ∨
    (s.lineFault pa u = none ∧ s.mergeLine pa m u = (s.sealOver pa m u).countBuddy pa) := by
  unfold State.mergeLine
  cases s.lineFault pa u <;> simp

/-- Cells of one granule of team memory are written, dropped and recorded out of range, or stall (R48, R49). -/
theorem writeTeamCells_cases (s : State) (c : CoreId) (sp : Space) (off : Nat) (cells : List Host.Cell) :
    (s.place c sp off = .stall ∧ s.writeTeamCells c sp off cells = none) ∨
    (∃ code, s.place c sp off = .out code ∧ s.writeTeamCells c sp off cells = some (s.outOfRange c code sp off)) ∨
    (∃ p, s.place c sp off = .ok p ∧ s.writeTeamCells c sp off cells = some (s.setCl (clusterOf c)
      ((s.cl (clusterOf c)).mergeGranule sp (p / 32) cells.length (Memory.writeCells ((s.cl (clusterOf c)).space sp)
        (cells.map fun e => (p + e.1 - off, e.2)))))) := by
  unfold State.writeTeamCells
  split <;> simp_all

/-- A run of bytes leaves the errors of the granules that it does not cover whole (R48, R281, notes/assumptions/26). -/
theorem mem_bad_writeSpan (x : Cluster) (sp : Space) (p g : Nat) (bs : List Byte) :
    g ∈ (x.writeSpan sp p bs).bad sp ↔ g ∈ x.bad sp ∧ coversGranule p bs.length g = false := by
  unfold Cluster.writeSpan
  cases sp <;> simp [Cluster.setBad, Cluster.bad, Cluster.setSpace]

/-- A run of bytes keeps the canonical form of its space. -/
theorem wf_writeSpan (x : Cluster) (sp : Space) (p : Nat) (bs : List Byte) (h : Memory.wf (x.space sp) = true) :
    Memory.wf ((x.writeSpan sp p bs).space sp) = true := by
  unfold Cluster.writeSpan
  cases sp <;> exact Memory.wf_splice _ _ h

/-- The acceptance of an atomic without reply at its home changes no memory, no cluster, and one core at most (R327). -/
theorem homeTook_frame (s : State) (t : Transit) :
    s.homeTook t = s ∨ ∃ n, s.homeTook t = s.setCoreAt t.core ((s.coreAt t.core).acceptStore n) := by
  unfold State.homeTook
  split
  · split
    · exact .inl rfl
    · split
      · exact .inr ⟨_, rfl⟩
      · exact .inl rfl
  · exact .inl rfl

/-- A declaration remembers no abort that was not there before it (R196). -/
theorem declared_aborts (s : State) (asid : BitVec 12) (gnum : BitVec 8) (turn : BitVec 4) (me : Nat) (mem : BitVec 128)
    (a : AbortedTurn) (h : a ∈ (s.declared asid gnum turn me mem).abortedTurns) : a ∈ s.abortedTurns := by
  unfold State.declared State.usedBy at h
  dsimp only at h
  split at h <;> simp_all

/-- A release at an id frees only cores of the releasing team that wait at that id (R209). -/
theorem waiters_hold (s : State) (k : ClusterId) (t : Slot) (id : BitVec 8) (c : CoreId) (h : c ∈ s.waiters k t id) :
    (s.coreAt c).slot = some t ∧ (s.coreAt c).waitsAt id = true := by
  unfold State.waiters at h
  simpa using (List.mem_filter.mp h).2

/-- A set of a cluster's TLB keeps at most `n` ways besides the one that enters (R122). -/
theorem keepWays_bound (p : TlbEntry → Bool) :
    ∀ (n : Nat) (l : List TlbEntry), ((keepWays p n l).filter p).length ≤ n
  | _, [] => by simp [keepWays]
  | n, e :: es => by
    by_cases h : p e
    · cases n with
      | zero => simpa [keepWays, h] using keepWays_bound p 0 es
      | succ m => simpa [keepWays, h] using keepWays_bound p m es
    · cases n with
      | zero => simpa [keepWays, h] using keepWays_bound p 0 es
      | succ m => simpa [keepWays, h] using keepWays_bound p (m + 1) es

end Sys2Proof.Machine
end

