-- ==== Sys2Proof/Tests/Slice0.lean ====
section
/-! SUPPORT. Tests: ill-formed terms that the check refuses, words written out from the spec's encodings, a witness for
the hypotheses of every statement, and single steps with results computed by hand from the spec. -/

namespace Sys2Proof.Tests

set_option Elab.async false

open Sys2Proof Sys2Proof.Machine

/-! ## Well-formedness: one term for each check, which is refused, and neighbours at the limits, which are not -/

/-- No acquire and no release. -/
def hd0 : Hdr := ⟨none, none⟩

theorem test_wf_refuses_core : ([.savemG 9 1 8, .loadmG 9 1 8, .loadmG 3 5 8, .savemF 9 1 8, .loadmF 9 1 8, .rdc 1 0x007, .wrc 1 0xFFF,
    .amoAdd 3 4 5 true false, .amoCas 3 4 5 6 true true, .ship 7 4 5 true, .mprb 0 6 7, .mprb 11 6 7, .mins 0 6 7 9,
    .mupsAdd 11 6 7 9, .mrem 11 6 7, .mhash 11 6 7, .miter 16 6 8 16, .miter 16 6 8 17, .waitc 3 0, .send 1 2 9, .enq 4 1 2 0,
    .vaddFp 4 0 0 0 0 false false, .vaddInt 3 0 0 0 0 false false, .vaddInt 7 0 0 0 0 false false, .vand 3 0 0 0 0 false false,
    .vceq 7 0 0 0 0 false false, .vsel 7 0 0 0 0 false, .vcvt 2 0 0 2 0 false, .vquant 0 0 0 0 0 false,
    .vquant 4 0 0 0 0 false, .vquant 5 0 0 0 0 false, .vredsum 7 0 0 0, .vmov 7 0 0 0 false, .vgath 7 0 0 0 0 false,
    .vscat 7 0 0 0 0] : List Instr).all (fun i => !i.wf) = true := by decide +kernel

theorem test_wf_refuses_commands : ([.arrMkboard hd0 0 0 0, .arrMkboard hd0 0 4097 0, .arrMkboard hd0 0 1 16,
    .arrMmt hd0 false false 1 0 0 0 0 0 0 0, .arrMmt hd0 false false 0 16 0 0 0 0 0 0, .arrMmt hd0 false false 0 0 4 0 0 0 0 0,
    .arrMmt hd0 false false 0 0 0 1 0 0 0 0, .arrMmt hd0 false false 0 0 0 0 4 0 0 0,
    .arrMmt hd0 false false 0 0 0 0 262152 0 0 0, .arrMmt hd0 false false 0 0 0 0 0 257 0 0,
    .arrMmt hd0 false false 0 0 0 0 0 0 0 0x7F, .arrAcmout hd0 false false 0 0 0 0 4 0 0 0,
    .arrAcmout hd0 false false 0 0 0 0 0 0 1 0, .arrAcmout hd0 false false 0 0 0 0 0 0 0 3,
    .cpyCopy hd0 true 0 false 0 false 0 0 0 0, .cpyCopy hd0 false 2 true 0 false 0 0 0 0,
    .cpyCopy hd0 false 0 false 0x200000 true 0 0 0 0, .cpyFill hd0 0 2 true 0 0 0, .cpyPref hd0 0x100000001 1,
    .cpyPref hd0 0xFFFF0000 1, .cpyTierq hd0 0xFFFFFFFF, .colAllgather hd0 0 1 0 32, .colAllgather hd0 0 0 0 0,
    .colAllgather hd0 0 0 0 1048608, .colRedscat hd0 0 0 0 32 3 0, .colRedscat hd0 0 0 0 32 0 3, .colMaxbar hd0 0 2 0,
    .agtMapnew hd0 0x100000001 1 0 0 0 0 false false 0, .agtMapnew hd0 0xFFFF0000 1 0 0 0 0 false false 0,
    .agtMapnew hd0 0x100000000 0 0 0 0 0 false false 0, .agtMapnew hd0 0x100000000 1 0x100000000 0 0 0 false false 0,
    .agtMapnew hd0 0x100000000 1 0 0 2 1 false false 0, .agtMapnew hd0 0x100000000 1 0 0 0 10 false false 0,
    .agtRtload hd0 32 128 1, .agtRtload hd0 0 127 1, .agtRtload hd0 0 128 0, .agtRtload hd0 0 255 2] :
      List Instr).all (fun i => !i.wf) = true := by decide +kernel

theorem test_wf_admits_limits : ([.savemG 8 1 8, .loadmG 3 9 8, .rdc 1 0x042, .amoAdd 0 4 5 true false, .mprb 10 6 7,
    .miter 16 6 8 15, .waitc 3 255, .send 1 2 8, .enq 3 1 2 0, .vaddFp 3 0 0 0 0 false false, .vaddInt 4 0 0 0 0 false false,
    .vceq 6 0 0 0 0 false false, .vcvt 7 0 0 2 0 false, .vquant 7 0 0 0 0 false, .arrMkboard hd0 7 4096 32,
    .arrMmt hd0 false false 0 0 8 0 262144 256 3 0x3F, .arrAcmout hd0 false true 0 0 0 0 32768 256 1 2,
    .cpyCopy hd0 true 0x1FFFFC true 0 false 4 1 0 2, .cpyPref hd0 0x100000000 0xFFFF, .cpyTierq hd0 0x100000000,
    .colAllgather hd0 0 0 0 1048576, .agtMapnew hd0 0x100000000 1 0xFFFFFFFF 0 0 9 false false 7,
    .agtRtload hd0 0 128 128] : List Instr).all Instr.wf = true := by decide +kernel

/-! ## Decoding: words written out from the spec -/

/-- Whether a word decodes to the instruction. -/
def decodesTo (e : Nat × Instr) : Bool := match decodeNat e.1 with
  | .ok i => decide (i = e.2)
  | .error _ => false

/-- The assembled examples of spec/04, 06 to 09, 13, 19, 20 and 22. -/
theorem test_words_of_the_spec : ([(0x04891001, .sub 4 9 2), (0x18A2FFEC, .slti 5 2 0xFFEC), (0x20840203, .srai 4 4 3),
    (0x29200000, .addpc 9 0), (0x2CE11004, .div 7 1 2), (0x3C48FFFA, .ldhu 2 8 0xFFFA), (0x6C344000, .savemG 1 20 8),
    (0x6C000013, .fenceDie), (0x7885FFFE, .blt 4 5 0xFFFE), (0x8BE00008, .jal 31 8), (0x8C1F0000, .jalr 0 31 0),
    (0x90611000, .fadd 3 1 2 false), (0x90611400, .fadd 3 1 2 true), (0x948110C0, .fmadd 4 1 2 3 false),
    (0x90A20022, .fcvtWS 5 2), (0x98490005, .resume 2 9), (0x98800200, .rdc 4 0x020), (0x98020121, .wrc 2 0x012),
    (0x98000002, .eret), (0x98000003, .wfi), (0x98000004, .endThread), (0xACA33000, .send 5 3 0), (0xAC404000, .recv 2),
    (0xAC600001, .waitc 3 1), (0xAC691000, .waitcReg 3 9), (0xAC832000, .rdcnt 4 3), (0xB0919200, .enq 1 2 6 9),
    (0xB4240000, .pset 1 4), (0xB4411806, .mkand 2 1 3), (0xB8470000, .acmrd 2 7), (0xA4040000, .claim 4),
    (0xA4050001, .acq 5), (0xA4450002, .acqT 2 5), (0xA4050003, .rel 5), (0xA4000004, .relall), (0xA4611005, .vclaim 3 1 2),
    (0xA4600006, .vreneg 3), (0xA8011000, .barDef 1 2), (0xA8010001, .barArrive 1), (0xA8010002, .barWait 1),
    (0xA8010003, .barSync 1), (0xA8010004, .barDrop 1), (0xA8611005, .barMax 3 1 2)] :
      List (Nat × Instr)).all decodesTo = true := by decide +kernel

theorem test_vector_and_shipped_words_of_the_spec : ([(0xC002802A, .vaddFp 1 4 0 1 2 true false),
    (0xC020C821, .vmulFp 0 6 4 1 0 false true), (0xC030402C, .vfma 0 2 0 1 3 false false),
    (0xC48C6240, .vadds 6 3 1 2 0 false false), (0xC86AAAC0, .vsrl 5 5 5 6 0 false false),
    (0xCC108041, .vclt 0 4 0 2 0 false true), (0xCC404034, .vsel 0 2 0 1 5 false), (0xD0046400, .vcvt 2 3 2 0 0 false),
    (0xD01464C1, .vquant 2 3 2 6 0 false), (0xD02EE200, .vpk3 7 7 1), (0xD03C4E00, .vupk3 6 2 7), (0xD410A000, .vredmax 0 5 0 0),
    (0xD4802000, .vexp2 1 0 0 false), (0xD8008061, .vmovScalar 0 4 3 0 false), (0xD8104020, .vgath 0 2 0 1 0 false),
    (0xD8200620, .vscat 0 0 3 1 0), (0xD830C8A0, .vtopk 6 4 5 0), (0xDC000000, .vfence), (0xDC100000, .vdrain),
    (0x9C642800, .amoAdd 3 4 5 false false), (0x9C642984, .amoCas 3 4 5 6 false false), (0x9C042820, .amoAdd 0 4 5 true false),
    (0x9C48481B, .amoFadd 2 8 9 false true), (0x9CE4281F, .ship 7 4 5 false), (0xA1463800, .mprb 10 6 7),
    (0xA1463A41, .mins 10 6 7 9), (0xA1463A42, .mupsAdd 10 6 7 9), (0xA186380A, .mrem 12 6 7), (0xA1C6380B, .mhash 14 6 7),
    (0xA206420C, .miter 16 6 8 8), (0xBCA63800, .grid 5 6 7), (0xB121C000, .enq 2 4 7 0), (0xB011C000, .enq 0 2 7 0),
    (0xB1AF5200, .enq 3 5 29 9)] : List (Nat × Instr)).all decodesTo = true := by decide +kernel

/-! Every core instruction, from the pattern of its row in the opcode table, with a value in every field. -/

theorem test_words_1 : ([
    (0x051D9800, .add 8 29 19), (0x0605D001, .sub 16 5 26), (0x06ED1002, .and 23 13 2), (0x07F45003, .or 31 20 10),
    (0x04FC8804, .xor 7 28 17), (0x05C4C805, .sll 14 4 25), (0x06CB0806, .srl 22 11 1), (0x07D34007, .sra 30 19 8),
    (0x04DB8008, .slt 6 27 16), (0x05A2C009, .sltu 13 2 24), (0x06AAF80A, .min 21 10 31), (0x07B2380B, .max 29 18 7),
    (0x0499780C, .minu 4 25 15), (0x0581B00D, .maxu 12 1 22), (0x0689F00E, .ror 20 9 30), (0x0771000F, .clz 27 17),
    (0x04780010, .ctz 3 24), (0x05600011, .popc 11 0), (0x0A48581D, .addi 18 8 22557),
    (0x0F4F60C4, .andi 26 15 24772), (0x1057696C, .ori 2 23 26988), (0x153F7214, .xori 9 31 29204),
    (0x1A267ABB, .slti 17 6 31419), (0x1F2E8363, .sltiu 25 14 33635), (0x2016000B, .slli 0 22 11),
    (0x211D0133, .srli 8 29 51), (0x2205021A, .srai 16 5 26), (0x22ED0302, .rori 23 13 2),
    (0x27E0EA34, .lui 31 59956), (0x28E0F2DC, .addpc 7 62172), (0x2DC4C800, .mul 14 4 25),
    (0x2ECB0801, .mulh 22 11 1), (0x2FD34002, .mulhu 30 19 8), (0x2CDB8003, .mulhsu 6 27 16),
    (0x2DA2C004, .div 13 2 24), (0x2EAAF805, .divu 21 10 31), (0x2FB23806, .rem 29 18 7),
    (0x2C997807, .remu 4 25 15), (0x31810536, .ldb 12 1 1334), (0x36890DDE, .ldbu 20 9 3550),
    (0x3B701686, .ldh 27 16 5766), (0x3C781F2D, .ldhu 3 24 7981), (0x416027D5, .ldw 11 0 10197),
    (0x4648307D, .ldwu 18 8 12413), (0x4B4F3924, .ld 26 15 14628), (0x4C5741CC, .stb 2 23 16844)] : List (Nat × Instr)).all decodesTo = true := by decide +kernel

theorem test_words_2 : ([
    (0x513F4A74, .sth 9 31 19060), (0x5626531B, .stw 17 6 21275), (0x5B2E5BC3, .st 25 14 23491),
    (0x5C16646B, .fldw 0 22 25707), (0x611D6D13, .fldd 8 29 27923), (0x660575BA, .fstw 16 5 30138),
    (0x6AED7E62, .fstd 23 13 32354), (0x6C744800, .savemG 3 20 9), (0x6C744801, .loadmG 3 20 9),
    (0x6C744802, .savemF 3 20 9), (0x6C744803, .loadmF 3 20 9), (0x6C000010, .fenceCore), (0x6C000011, .fenceTeam),
    (0x6C000012, .fenceCluster), (0x6C000013, .fenceDie), (0x6C000014, .fencePackage), (0x6C000015, .fenceFabric),
    (0x6C000016, .fenceSystem), (0x7289E63E, .beq 20 9 58942), (0x7770EEE6, .bne 27 16 61158),
    (0x7878F78D, .blt 3 24 63373), (0x7D600035, .bge 11 0 53), (0x824808DD, .bltu 18 8 2269),
    (0x874F1184, .bgeu 26 15 4484), (0x885A55B7, .jal 2 1725879), (0x8D3F22D4, .jalr 9 31 8916),
    (0x9226DC00, .fadd 17 6 27 true), (0x932E1801, .fsub 25 14 3 false), (0x90165802, .fmul 0 22 11 false),
    (0x911D9003, .fdiv 8 29 18 false), (0x92050004, .fsqrt 16 5 false), (0x92ED1405, .fmin 23 13 2 true),
    (0x93F45406, .fmax 31 20 10 true), (0x90FC8807, .fsgnj 7 28 17 false), (0x91C4C808, .fsgnjn 14 4 25 false),
    (0x92CB0809, .fsgnjx 22 11 1 false), (0x93D3440A, .feq 30 19 8 true), (0x90DB840B, .flt 6 27 16 true),
    (0x91A2C40C, .fle 13 2 24 true), (0x92AA040D, .fclass 21 10 true), (0x93B20020, .fcvtSD 29 18),
    (0x90990021, .fcvtDS 4 25), (0x91810022, .fcvtWS 12 1), (0x92890023, .fcvtLS 20 9), (0x93700024, .fcvtSW 27 16),
    (0x90780025, .fcvtSL 3 24)] : List (Nat × Instr)).all decodesTo = true := by decide +kernel

theorem test_words_3 : ([
    (0x91600026, .fcvtWD 11 0), (0x92480027, .fcvtLD 18 8), (0x934F0028, .fcvtDW 26 15), (0x90570029, .fcvtDL 2 23),
    (0x913F002A, .fmvX 9 31), (0x9226002B, .fmvF 17 6), (0x932E002C, .fcvtBfS 25 14), (0x9016002D, .fcvtSBf 0 22),
    (0x911D002E, .fcvtE4S 8 29), (0x9205002F, .fcvtSE4 16 5), (0x92ED0030, .fcvtE5S 23 13),
    (0x93F40031, .fcvtSE5 31 20), (0x94FC8980, .fmadd 7 28 17 6 false), (0x95C4CB85, .fmsub 14 4 25 14 true),
    (0x96CB0D86, .fnmadd 22 11 1 22 true), (0x97D34747, .fnmsub 30 19 8 29 true), (0x98C00200, .rdc 6 32),
    (0x980D0201, .wrc 13 32), (0x98000002, .eret), (0x98000003, .wfi), (0x98000004, .endThread),
    (0x99810005, .resume 12 1), (0x9E89F000, .amoAdd 20 9 30 false false), (0x9F703001, .amoMin 27 16 6 false false),
    (0x9C786802, .amoMax 3 24 13 false false), (0x9D60A813, .amoSwap 11 0 21 false true),
    (0x9E48EC84, .amoCas 18 8 29 18 false false), (0x9F4F2015, .amoAnd 26 15 4 false true),
    (0x9C576016, .amoOr 2 23 12 false true), (0x9D3FA007, .amoXor 9 31 20 false false),
    (0x9E26D808, .amoWimin 17 6 27 false false), (0x9F2E1809, .amoMinu 25 14 3 false false),
    (0x9C16581A, .amoMaxu 0 22 11 false true), (0x9D1D901B, .amoFadd 8 29 18 false true),
    (0x9E05D01F, .ship 16 5 26 false), (0xA14D1000, .mprb 10 13 2), (0xA15457C1, .mins 10 20 10 31),
    (0xA15C8982, .mupsAdd 10 28 17 6), (0xA144CB83, .mupsMin 10 4 25 14), (0xA14B0D84, .mupsMax 10 11 1 22),
    (0xA1534745, .mupsOr 10 19 8 29), (0xA15B8146, .mupsAnd 10 27 16 5), (0xA142C347, .mupsXor 10 2 24 13),
    (0xA14AFD08, .mupsReplace 10 10 31 20), (0xA1523F09, .mupsFirst 10 18 7 28), (0xA159780A, .mrem 10 25 15)] : List (Nat × Instr)).all decodesTo = true := by decide +kernel

theorem test_words_4 : ([
    (0xA141B00B, .mhash 10 1 22), (0xA149F20C, .miter 10 9 30 8), (0xA41B0000, .claim 27), (0xA4030001, .acq 3),
    (0xA5600002, .acqT 11 0), (0xA4120003, .rel 18), (0xA4000004, .relall), (0xA4576005, .vclaim 2 23 12),
    (0xA5200006, .vreneg 9), (0xA8113000, .barDef 17 6), (0xA8190001, .barArrive 25), (0xA8000002, .barWait 0),
    (0xA8080003, .barSync 8), (0xA8100004, .barDrop 16), (0xAAED1005, .barMax 23 13 2), (0xADE00014, .waitc 15 20),
    (0xACFC1000, .waitcReg 7 28), (0xADC42000, .rdcnt 14 4), (0xAECB3005, .send 22 11 5), (0xAFC04000, .recv 30),
    (0xACA04001, .recvT 5), (0xB1161A00, .enq 2 2 24 13), (0xB4AA0000, .pset 5 10), (0xB5B20001, .pstep 13 18),
    (0xB4890002, .prd 4 9), (0xB5810003, .prdstep 12 1), (0xB4890004, .mkset 4 9), (0xB7600005, .mkget 27 0),
    (0xB4602806, .mkand 3 0 5), (0xB4602807, .mkor 3 0 5), (0xB4472808, .mkxor 2 7 5), (0xB4472009, .mkandn 2 7 4),
    (0xB8570000, .acmrd 2 23), (0xB93F0001, .acmrdN 9 31), (0xB8113002, .acmwr 17 6), (0xBF2E1800, .grid 25 14 3),
    (0xC004D614, .vaddFp 2 6 11 0 5 false false), (0xC017A515, .vsubFp 3 13 2 8 5 false true),
    (0xC020B5F5, .vmulFp 0 5 10 15 5 false true), (0xC033A4F3, .vfma 1 13 2 7 4 true true),
    (0xC04495F2, .vfms 2 4 10 15 4 true false), (0xC05782D2, .vminFp 3 12 1 6 4 true false),
    (0xC06093CC, .vmaxFp 0 4 9 14 3 false false), (0xC073621A, .vabsFp 1 11 1 6 true),
    (0xC0847016, .vneg 2 3 8 5 true), (0xC40960A9, .vaddInt 4 11 0 5 2 false true)] : List (Nat × Instr)).all decodesTo = true := by decide +kernel

theorem test_words_5 : ([
    (0xC41A51AA, .vsubInt 5 2 8 13 2 true false), (0xC42D5E8A, .vmulInt 6 10 15 4 2 true false),
    (0xC4384F86, .vmulh 4 2 7 12 1 true false), (0xC44B3E85, .vminInt 5 9 15 4 1 false true),
    (0xC45C2D85, .vmaxInt 6 1 6 12 1 false true), (0xC4693C61, .vminu 4 9 14 3 0 false true),
    (0xC47A0D63, .vmaxu 5 0 6 11 0 true true), (0xC48D1A62, .vadds 6 8 13 3 0 true false),
    (0xC4980B5E, .vsubs 4 0 5 10 7 true false), (0xC4AAFA0A, .vabsInt 5 7 13 2 true),
    (0xC80DE95D, .vand 6 15 4 10 7 false true), (0xC818F839, .vor 4 7 12 1 6 false true),
    (0xC82BE93B, .vxor 5 15 4 9 6 true true), (0xC83CD63A, .vandn 6 6 11 1 6 true false),
    (0xC849C600, .vnot 4 14 3 0 false), (0xC85AD614, .vsll 5 6 11 0 5 false false),
    (0xC86DA515, .vsrl 6 13 2 8 5 false true), (0xC878B5F5, .vsra 4 5 10 15 5 false true),
    (0xCC0CA4F3, .vceq 6 5 2 7 4 true true), (0xCC1093F2, .vclt 0 4 9 15 4 true false),
    (0xCC2282D2, .vcle 1 4 1 6 4 true false), (0xCC3493CC, .vcne 2 4 9 14 3 false false),
    (0xCC4762CC, .vsel 3 11 1 6 3 false), (0xD00470EC, .vcvt 2 3 8 7 3 false),
    (0xD01760A9, .vquant 3 11 0 5 2 false), (0xD02C5000, .vpk3 6 2 8), (0xD03B5E00, .vupk3 5 10 15),
    (0xD4024E10, .vredsum 1 2 7 4), (0xD4153E10, .vredmax 2 9 15 4), (0xD4262C10, .vredmin 3 1 6 4),
    (0xD480921A, .vexp2 4 9 6 true), (0xD491601A, .vlog2 11 0 6 true), (0xD4A07016, .vrcp 3 8 5 true),
    (0xD4B16014, .vrsqrt 11 0 5 false), (0xD4C04E14, .vtanh 2 7 5 false), (0xD805E80A, .vmov 2 15 4 2 true),
    (0xD806E185, .vmovScalar 3 7 12 1 false), (0xD819E93A, .vgath 4 15 4 9 6 true), (0xD82AD638, .vscat 5 6 11 1 6),
    (0xD8313C60, .vtopk 9 14 3 0), (0xDC000000, .vfence), (0xDC100000, .vdrain)] : List (Nat × Instr)).all decodesTo = true := by decide +kernel
/-! Command words (spec/04 R87, spec/09 R194 and R197, spec/15, spec/17, spec/19 R332, spec/20 R338 and R340), and the
codes of the Rannen port (spec/23 R394). -/

/-- Whether a command word decodes, for its engine, to the instruction. -/
def commandTo (e : Engine × CmdWord × Instr) : Bool := match decodeCommand e.1 e.2.1 with
  | .ok i => decide (i = e.2.2)
  | .error _ => false

theorem test_command_words : ([(.arr, ⟨0x01, 3, 0x40, 0x1000, 0, 0, 0, 0⟩, .arrMkboard hd0 3 64 0x1000),
    (.arr, ⟨0x02, 3, 0, 0, 0, 0, 0, 0⟩, .arrClrboard hd0 3),
    (.arr, ⟨0x0300B003, 0x20, 0x40, 0x48, 0x60, 0x80, 0x00053009, 0⟩,
      .arrMmt ⟨some .die, none⟩ true true 0x20 0x40 0x48 0x60 0x80 9 3 5),
    (.arr, ⟨0x02000004, 0x20, 0x40, 0x60, 0x80, 0x000A0010, 0x3F800000, 2⟩,
      .arrAcmout hd0 false true 0x20 0x40 0x60 0x80 16 10 0x3F800000 2),
    (.cpy, ⟨0x000E0101, 0x80000, 0x1234, 0x400000, 0x0, 0x00300040, 0x100, 0xFFFFFFC0⟩,
      .cpyCopy ⟨none, some .system⟩ false 0x123400080000 false 0x400000 false 64 3 0x100 0xFFFFFFC0),
    (.cpy, ⟨0x01000101, 4, 0x10000, 2, 0, 0x00100008, 8, 4⟩, .cpyCopy hd0 true 4 true 2 false 8 1 8 4),
    (.cpy, ⟨0x0102, 0xDEADBEEF, 0, 4, 0x10000, 0x00100008, 0, 8⟩, .cpyFill hd0 0xDEADBEEF 4 true 8 1 8),
    (.cpy, ⟨0x0103, 0x10000, 1, 0, 0, 7, 0, 0⟩, .cpyPref hd0 0x100010000 7),
    (.cpy, ⟨0x0104, 0x12345, 1, 0, 0, 0, 0, 0⟩, .cpyTierq hd0 0x100012345),
    (.col, ⟨0x0201, 0x123, 1, 2, 4, 8, 16, 0⟩, .colDecl hd0 0x123 0x00000008000000040000000200000001 16),
    (.col, ⟨0x0202, 0x123, 1, 2, 4, 8, 16, 0⟩, .colDeclT hd0 0x123 0x00000008000000040000000200000001 16),
    (.col, ⟨0x0203, 0x123, 0x200020, 0x40, 0x60, 0, 0, 0⟩, .colAllgather hd0 0x123 0x200020 0x40 0x60),
    (.col, ⟨0x000AA204, 0x123, 0x20, 0x40, 0x60, 0x12, 0, 0⟩,
      .colRedscat ⟨some .cluster, some .cluster⟩ 0x123 0x20 0x40 0x60 2 1),
    (.col, ⟨0x0205, 0x123, 0x20, 0x40, 0x60, 0, 0, 0⟩, .colAlltoall hd0 0x123 0x20 0x40 0x60),
    (.col, ⟨0x0206, 0x123, 0x20, 0x40, 0x60, 0x50000, 0, 0⟩, .colBcast hd0 0x123 0x20 0x40 0x60 5),
    (.col, ⟨0x0207, 0x123, 0, 0, 0, 0, 0, 0⟩, .colBarrier hd0 0x123),
    (.col, ⟨0x0208, 0x123, 4, 8, 0, 0, 0, 0⟩, .colMaxbar hd0 0x123 4 8),
    (.agt, ⟨0x000C0301, 0x10000, 0x00010001, 3, 4, 5, 6, 0x00530902⟩,
      .agtMapnew ⟨none, some .package⟩ 0x100010000 1 0x400000003 0x600000005 2 9 true true 5),
    (.agt, ⟨0x0302, 0x3FF, 0, 0, 0, 0, 0, 0⟩, .agtMapdel hd0 0x3FF),
    (.agt, ⟨0x0303, 0x40, 1, 0x0280, 0, 0, 0, 0⟩, .agtRtload hd0 0x100000040 128 2)] :
      List (Engine × CmdWord × Instr)).all commandTo = true := by decide +kernel

theorem test_commands_refused : ([(.arr, ⟨0x05, 0, 0, 0, 0, 0, 0, 0⟩), (.cpy, ⟨0x01, 0, 0, 0, 0, 0, 0, 0⟩),
    (.arr, ⟨0x8001, 0, 1, 0, 0, 0, 0, 0⟩), (.arr, ⟨0xF001, 0, 1, 0, 0, 0, 0, 0⟩), (.arr, ⟨0x00100001, 0, 1, 0, 0, 0, 0, 0⟩),
    (.arr, ⟨0x01, 8, 1, 0, 0, 0, 0, 0⟩), (.arr, ⟨0x01, 0, 0, 0, 0, 0, 0, 0⟩)] : List (Engine × CmdWord)).all
      (fun e => match decodeCommand e.1 e.2 with | .ok _ => false | .error _ => true) = true := by decide +kernel

/-- R154 and R84: a destination of 9 to 15 is illegal, once bits 11:4 have been found 0. -/
theorem test_send_rejected : (match decode2B 0x3019, decode2B 0x3009, decode2B 0x3008 with
    | .error .reserved, .error .illegal, .ok (.send 0 0 8) => true
    | _, _, _ => false) = true := by decide +kernel

theorem test_port_codes : decodeTap 0x01 = .idcode ∧ decodeTap 0x10 = .fmaddr ∧ decodeTap 0x11 = .fmdata ∧
    decodeTap 0xFF = .bypass ∧ decodeTap 0x00 = .bypass := ⟨rfl, rfl, rfl, rfl, rfl⟩

/-! ## Small states -/

/-- After bring-up, nothing placed. -/
def up : State := { State.reset with power := .running }

/-- A running core of team slot 0, the only one of its team. -/
def core0 : Core := { Core.reset with run := .running, slot := some 0, csr := { Csr.reset with tsize := 1 } }

/-- A team of core 0. -/
def team0 : Team :=
  { grid := 0, teamid := 0, asid := 0, ptbase := 0x10000, prio := 0, evict := false, excl := false, cores := [0], pages := [], blocks := [],
    claim := none, lanes := [], ended := 0, boards := [], saved := [], bars := [], status := .running, saveSlot := 0,
    placedAt := 0, preemptedAt := 0, fatal := none }

/-- Core 0 of cluster 0 is `k`, of team slot 0, which is `x`. -/
def at0 (k : Core) (x : Team := team0) : State := (up.setCore k).setTeam 0 0 (some x)

/-- With values in g registers. -/
def withG (l : List (BitVec 5 × Word)) (k : Core) : Core := l.foldl (fun k e => k.writeG e.1 e.2) k

/-- With values in f registers. -/
def withF (l : List (BitVec 5 × Word)) (k : Core) : Core := l.foldl (fun k e => k.writeF e.1 e.2) k

/-- With another KSTATE. -/
def withK (f : KState → KState) (k : Core) : Core := { k with csr := { k.csr with kstate := f k.csr.kstate } }

/-- At supervisor level. -/
def super : Core := withK (fun x => { x with priv := .supervisor }) core0

/-- Inside a trap, at supervisor level. -/
def trapped : Core := withK (fun x => { x with priv := .supervisor, intrap := true, ie := false }) core0

/-- FIPS 202: SHA3-256 of the empty message. -/
theorem test_sha3_empty : sha3 [] =
    [0xA7, 0xFF, 0xC6, 0xF8, 0xBF, 0x1E, 0xD7, 0x66, 0x51, 0xC1, 0x47, 0x56, 0xA0, 0x61, 0xD6, 0x62,
     0xF5, 0x80, 0xFF, 0x4D, 0xE4, 0x3B, 0x49, 0xFA, 0x82, 0xD8, 0x0A, 0x4B, 0x80, 0xF8, 0x43, 0x4A] := by decide +kernel

/-- A store to a kind of memory that waits in the buffer. -/
def waiting (kind : StoreKind) (addr : Nat) : StoreEntry :=
  { released := false, sent := false, kind := kind, size := 3, addr := addr, data := 0x1122334455667788, amo := none, cmp := 0, va := 0, asid := 0,
    epoch := 0, buf := 0 }

/-- A computation that answered gives an answer. -/
theorem answeredWith {α : Type} {o : Option α} {p : α → Bool} (h : o.any p = true) : ∃ x, o = some x ∧ p x = true := by
  cases o with
  | some x => exact ⟨x, rfl, h⟩
  | none => cases h

/-- What holds of no idle core and not of `k` holds of no core where only core 0 is `k`. -/
theorem any_at0 (p : Core → Bool) (k : Core) (x : Team) (h : p k = false) (hr : p Core.reset = false) :
    (at0 k x).cores.any p = false := by
  have e : (at0 k x).cores = (Vector.replicate 1088 Core.reset).set 0 k := rfl
  rw [e, Bool.eq_false_iff, Ne, Vector.any_eq_true]
  rintro ⟨i, hi, hp⟩
  rw [Vector.getElem_set] at hp
  split at hp <;> simp_all

/-- An instruction that goes on gives a next state. -/
def goes (r : Result) : Bool := match r with
  | .next _ => true
  | _ => false

theorem went {r : Result} (h : goes r = true) : ∃ t, r = .next t := by
  cases r with
  | next t => exact ⟨t, rfl⟩
  | _ => simp [goes] at h

/-- An instruction goes on to a next state of which `p` holds. -/
def goesTo (r : Result) (p : State → Bool) : Bool := match r with
  | .next t => p t
  | _ => false

theorem wentTo {r : Result} {p : State → Bool} (h : goesTo r p = true) : ∃ t, r = .next t ∧ p t = true := by
  cases r with
  | next t => exact ⟨t, rfl, h⟩
  | _ => simp [goesTo] at h

/-! ## Witnesses: states that meet the hypotheses of the statements, at the limits of each clause -/

/-- g1 holds the last word's address. -/
def jumper : State := at0 (withG [(1, 0xFFFFFFFFFFFFFFFC)] core0)

theorem witness_BranchesAndJumpsComplete : let s := jumper;
    ((s.g 1).toNat + (0x7FFC : BitVec 16).toInt) % 4 = 0 ∧ ((s.g 1).toNat + (0x8003 : BitVec 16).toInt) % 4 ≠ 0 ∧
    ((s.g 1).toNat + (1 : BitVec 16).toInt) % 4 ≠ 0 ∧ s.core.csr.kstate.intrap = false := by decide +kernel

/-- A signalling NaN, a quiet NaN and the largest infinity, of binary64 or of binary32, in f1 to f3. -/
def nans (p : Bool) : State :=
  at0 (withF (if p then [(1, 0x7FF0000000000001), (2, 0xFFF8000000000000), (3, 0x7FF0000000000000)]
    else [(1, 0x7F800001), (2, 0xFFC00000), (3, 0x7F800000)]) core0)

theorem witness_FloatNaNsAndComparesComplete : ∀ p ∈ [true, false],
    let nan (a : BitVec 5) : Bool := decide ((if p then 0x7FF0000000000000 else 0x7F800000) <
      ((nans p).f a).toNat % 2 ^ (if p then 63 else 31))
    (nan 1 || nan 3) = true ∧ nan 3 = false ∧ (nan 2 || nan 1) = true := by decide +kernel

/-- f1 holds 1.0, f2 zero, and DZ is enabled. -/
def divides : State := at0 (withF [(1, 0x3FF0000000000000)] { core0 with csr := { core0.csr with fenable := 0x08 } })

theorem witness_EnabledFlagParks : (fp64.div (RMode.of divides.core.csr.fround) ((divides.f 1).toNat % 2 ^ 64)
      ((divides.f 2).toNat % 2 ^ 64)).2 &&& divides.core.csr.fenable ≠ 0 ∧ divides.core.run = .running ∧
    divides.core.csr.kstate.park = false ∧ divides.core.parkDue = none := by decide +kernel

/-- g1 is the first doubleword of TCM, g2 the last, g3 below TCM, g4 the first of the scratchpad window, g5 its last. -/
def windows : State := at0 (withG [(1, 0x80000), (2, 0xAFFF8), (3, 0x7FFFF), (4, 0x400000), (5, 0x5FFFF8)] core0)

/-- The same with the first page of the scratchpad mapped; the last is not. -/
def paged : State := at0 windows.core { team0 with pages := [(0, 3)] }

theorem witness_LoadsComplete : (∀ a ∈ [(1 : BitVec 5), 2], let ea := windows.g a + (0 : BitVec 16).signExtend 64;
      0x80000 ≤ ea.toNat ∧ ea.toNat < 0xB0000 ∧ ea.toNat % 8 = 0 ∧ ea.toNat % 4 = 0 ∧ ea.toNat % 2 = 0) ∧
    (let ea := windows.g 2 + (7 : BitVec 16).signExtend 64;
      0x80000 ≤ ea.toNat ∧ ea.toNat < 0xB0000) ∧ (∀ e ∈ windows.core.stores, e.kind ≠ .tcm) ∧
    (∀ a ∈ [(4 : BitVec 5), 5], let ea := paged.g a + (0 : BitVec 16).signExtend 64;
      0x400000 ≤ ea.toNat ∧ ea.toNat < 0x600000 ∧ ea.toNat % 8 = 0) ∧ (∀ e ∈ paged.core.stores, e.kind ≠ .spm) ∧
    paged.core.vq = [] ∧ paged.place paged.cur .spm 0 = .ok (3 * 16384) ∧ paged.granuleBad paged.cur .spm 0 = false ∧
    paged.place paged.cur .spm 0x1FFFF8 = .out 1 := by decide +kernel

theorem witness_StoresEnterTheBuffer : (∀ a ∈ [(1 : BitVec 5), 2], let ea := windows.g a + (0 : BitVec 16).signExtend 64;
      0x80000 ≤ ea.toNat ∧ ea.toNat < 0xB0000 ∧ ea.toNat % 8 = 0) ∧
    (at0 { core0 with stores := .replicate 7 (waiting .tcm 0x80000) }).core.stores.length < 8 := by decide +kernel

theorem witness_BadAddressesTrap : let ea (a : BitVec 5) (i : BitVec 16) := (windows.g a + i.signExtend 64).toNat
    windows.core.csr.kstate.intrap = false ∧ windows.core.stores.length < 8 ∧ ea 3 0 < 0x80000 ∧ ea 3 1 = 0x80000 ∧
    (ea 1 1 < 0xB0000 ∧ ea 1 1 % 2 ≠ 0 ∧ ea 1 2 % 4 ≠ 0 ∧ ea 1 4 % 8 ≠ 0) ∧ (ea 2 7 = 0xAFFFF ∧ ea 2 7 % 2 ≠ 0) ∧
    (ea 4 1 % 2 ≠ 0 ∧ 0x400000 ≤ ea 4 1) ∧ (ea 5 7 = 0x5FFFFF ∧ ea 5 7 % 8 ≠ 0) := by decide +kernel

/-- A vector instruction issued behind one store. -/
def behind : PendVec :=
  { writes := [], landed := [], steps := [], flags := 0, freg := none, mreg := none, pc := 0x80000, raises := false, before := 1, unit := false,
    list := false }

theorem witness_forwarding : let ea := windows.g 2 + (0 : BitVec 16).signExtend 64;
    (0x80000 ≤ ea.toNat ∧ ea.toNat < 0xB0000 ∧ ea.toNat % 8 = 0 ∧ windows.core.stores.length < 8) ∧
    ∃ t, exec (.st 1 2 0) windows = .next t ∧ decide (t.g 2 + (0 : BitVec 16).signExtend 64 = ea) = true :=
  ⟨by decide +kernel, wentTo (by decide +kernel)⟩

theorem witness_store_drains : let e := waiting .tcm 0xAFFF8
    (let s := at0 { core0 with stores := [e] }
     (s.coreAt 0).stores = [e] ∧ e.released = false ∧ ∀ v ∈ (s.coreAt 0).vq, 0 < v.before) ∧
    (let s := at0 { core0 with stores := [e], vq := [behind] }
     (s.coreAt 0).stores = [e] ∧ ∀ v ∈ (s.coreAt 0).vq, 0 < v.before) ∧
    (let s := at0 { core0 with stores := [{ e with released := true }] }
     (s.coreAt 0).stores = [{ e with released := true }] ∧ e.kind = .tcm ∧ 0x80000 ≤ e.addr ∧
       Memory.wf (s.coreAt 0).tcm = true) ∧
    (let s := at0 { core0 with stores := [{ waiting .spm 16376 with released := true }] } { team0 with pages := [(0, 3)] }
     s.place 0 .spm 16376 = .ok (3 * 16384 + 16376) ∧ s.granuleBad 0 .spm 16376 = false ∧
       Memory.wf (s.cl (clusterOf 0)).spm = true) ∧
    (let s := at0 { core0 with stores := [{ waiting .phys 0x78 with released := true }] }
     (waiting .phys 0x78).amo = none ∧ wayQueue 0 0x78 = none ∧ s.stackQueue 0x78 = none ∧ s.lineHeld 0x78 = false ∧
       s.lineFault 0x78 (s.sealFor 0) = none ∧ Memory.wf s.mem = true) := by decide +kernel

/-- An atomic without reply for die 1, released; and the operation that it is. -/
def farAtomic : StoreEntry := { waiting .phys 0x2000000000 with released := true, amo := some 0 }
def farOp : ShipOp :=
  { core := 0, reply := none, op := 0, pa := 0x2000000000, va := 0, x := 1, cmp := 0, asid := 0, epoch := 0,
    under := { owner := 0, keys := none, buf := 0, version := 0 }, stamp := 0, result := none }

theorem witness_far_atomic : (let s := at0 { core0 with stores := [farAtomic] }
     (s.coreAt 0).stores = [farAtomic] ∧ farAtomic.sent = false ∧ wayQueue 0 farAtomic.addr = some (.gateway 0 1)) ∧
    (let y : Transit := { seq := 0, stamp := 0, queue := .gateway 0 1, core := 0, item := .ship farOp }
     let s := { at0 { core0 with stores := [{ farAtomic with sent := true }] } with transit := [y] }
     (s.coreAt 0).stores = [{ farAtomic with sent := true }] ∧ s.transit = [y] ∧ y.item = .ship farOp ∧
       s.stackQueue farOp.pa = none) := by decide +kernel

/-- R327: over a gateway it stays in the buffer, so that FENCE.DIE waits for it, until its home has taken it. -/
theorem test_far_atomic_stays : let s := at0 { core0 with stores := [farAtomic] }
    (evCoreAccept 0 s).any (fun t => !t.core.dieFenced &&
      (t.advance (.gateway 0 1)).any fun u => u.core.dieFenced && decide (u.ships.length = 1)) = true := by decide +kernel

/-- What nothing is sealed under but buffer 0 of owner 0, never assigned. -/
def seal0 : Seal := { owner := 0, keys := none, buf := 0, version := 0 }

/-- A doubleword load that waits for the first line of T1. -/
def load0 : PendLoad :=
  { dst := .g 5 false, size := 3, pa := 0, va := 0x100000000, asid := 0, epoch := 0, under := seal0, stamp := 0 }

theorem witness_load_served : let s := at0 { core0 with wait := .load load0 }
    (s.coreAt 0).wait = .load load0 ∧ load0.dst = .g 5 false ∧ load0.size = 3 ∧ (∀ x ∈ s.transit, x.core ≠ 0) ∧
    s.lineHeld load0.pa = false ∧ s.awake load0.pa = true ∧ s.lineFault load0.pa load0.under = none := by decide +kernel

theorem witness_RegisterRangesMove : ∀ n ∈ [(3, 3, 0), (3, 9, 0), (3, 9, 6), (0, 31, 31)], let d := BitVec.ofNat 5 n.1
    let b := BitVec.ofNat 5 n.2.1
    let s := at0 { withG [(1, 0x80000)] core0 with csr := { core0.csr with mprog := .ofNat 6 n.2.2 } }
    let k := s.core.csr.mprog.toNat
    let ea := s.g 1 + .ofNat 64 (8 * k)
    d.toNat ≤ b.toNat ∧ k < b.toNat + 1 - d.toNat ∧ (s.g 1).toNat % 8 = 0 ∧ 0x80000 ≤ ea.toNat ∧ ea.toNat < 0xB0000 ∧
    s.core.stores.length < 8 ∧ (∀ e ∈ s.core.stores, e.kind ≠ .tcm) ∧
    (d ≠ 0 → ¬(d.toNat ≤ (1 : BitVec 5).toNat ∧ (1 : BitVec 5).toNat ≤ b.toNat)) := by decide +kernel

theorem witness_FencesWaitThenComplete :
    (let s := at0 core0
     s.core.stores = [] ∧ s.core.vq = [] ∧ s.transit = [] ∧ s.ships = [] ∧ s.cmds = []) ∧
    (let s := at0 { core0 with stores := [waiting .tcm 0x80000] }
     ∃ e ∈ s.core.stores, e.kind = .tcm) ∧
    (let s := at0 { core0 with stores := [waiting .spm 0] }
     ∃ e ∈ s.core.stores, e.kind = .spm) := by decide +kernel

theorem witness_ControlRegistersReadAndWrite : (at0 super).core.csr.kstate.priv = .supervisor ∧
    (at0 core0).core.csr.kstate.priv = .user ∧ (at0 core0).core.csr.kstate.intrap = false ∧
    ((0x028 : BitVec 12) ∈ ([0x010, 0x011, 0x012, 0x018, 0x028] : List (BitVec 12))) := by decide +kernel

theorem witness_WrcKstateAndPrivilege : let s := at0 (withG [(1, 0x5C0)] super)
    s.core.csr.kstate.priv = .supervisor ∧ (s.g 1).getLsbD 9 = false ∧ (at0 core0).core.csr.kstate.priv = .user ∧
    (at0 core0).core.csr.kstate.intrap = false := by decide +kernel

theorem witness_FetchTrapsEnterTheHandler : (at0 core0).core.csr.kstate.intrap = false := by decide +kernel

theorem witness_TrapInTrapEndsTheTeam : let s := at0 trapped
    (s.coreAt 0).csr.kstate.intrap = true ∧ (s.coreAt 0).slot = some 0 ∧ s.team (clusterOf 0) 0 = some team0 ∧ s.cur = 0 ∧
    (s.g 0 + (0x7FF8 : BitVec 16).signExtend 64).toNat < 0x80000 := by decide +kernel

/-- Inside the handler of a cause that only hardware ends. -/
def lostHandler : Core := { trapped with csr := { trapped.csr with trapc := ⟨true, true, 0xB1⟩ } }

theorem witness_EretRestores : ((at0 trapped).core.csr.kstate.priv = .supervisor ∧ (at0 trapped).core.csr.trapc.hwfatal = false) ∧
    ((at0 core0).core.csr.kstate.priv = .user ∧ (at0 core0).core.csr.kstate.intrap = false) ∧
    (let s := at0 lostHandler
     s.core.csr.kstate.priv = .supervisor ∧ s.core.csr.trapc.hwfatal = true ∧ s.core.slot = some 0 ∧
       s.team (clusterOf s.cur) 0 = some team0) ∧
    (at0 core0).core.csr.kstate.intrap = false ∧ ∃ t, exec (.illegalInstruction 0) (at0 core0) = .next t :=
  ⟨by decide +kernel, by decide +kernel, by decide +kernel, by decide +kernel, went (by decide +kernel)⟩

/-- R114, R146: between two registers of a savem no park takes effect; it is due at the next boundary. -/
theorem test_no_park_mid_range : ∀ n ∈ [0, (3 : BitVec 6)],
    let k := { core0 with pc := 0x80000, itcm := Memory.write32 [] 0 0x6C344000, csr := { core0.csr with mprog := n } }
    (((at0 k).duePark 0 4 0).core.parkDue.isSome, ((at0 k).duePark 0 4 0).core.csr.kstate.park) = (n != 0, n == 0) := by
  decide +kernel

/-- Two running cores of cluster 0: core 0, at supervisor level, and core 1, parked. -/
def parkedPair : State := (at0 (withG [(1, 1), (2, 1023), (3, 1024)] super)).setCoreAt 1 (withK (fun x => { x with park := true }) core0)

theorem witness_WaitEndResume : (at0 { core0 with wake := true }).core.wake = true ∧
    (let s := at0 core0
     s.core.wake = false ∧ (∀ m ∈ s.core.inbox, m.arrived = false) ∧ s.core.preempt = none ∧ s.core.lost = none ∧
       s.core.csr.kstate.intrap = false) ∧
    (let s := at0 { trapped with csr := { trapped.csr with trapc := ⟨false, true, 0xA0⟩ } }
     s.core.csr.kstate.intrap = true ∧ s.core.csr.kstate.priv = .supervisor ∧ s.core.csr.trapc.cause = 0xA0 ∧
       s.core.csr.trapc.hwfatal = false) ∧
    (let s := parkedPair
     s.core.csr.kstate.priv = .supervisor ∧ 1023 < (s.g 3).toNat ∧ (s.g 2).toNat ≤ 1023 ∧ (s.g 1).toNat ≤ 1023 ∧
       s.holderOf ((s.g 1).toNat / 8) = some 0 ∧ coreOf 0 ⟨(s.g 1).toNat % 8, Nat.mod_lt _ (by decide)⟩ ≠ s.cur ∧
       (s.coreAt 1).run = .running ∧ (s.coreAt 1).csr.kstate.park = true ∧ (s.coreAt 1).resumedBy = none ∧
       (let u := s.setCoreAt 1 { s.coreAt 1 with resumedBy := some (s.now, 1088) }
        (u.coreAt 1).resumedBy = some (u.now, 1088) ∧ u.globalId u.cur < 1088)) ∧
    (let s := parkedPair.setCl 135 { parkedPair.cl 133 with status := .lost, logical := none }
     let u := s.setCl 133 { s.cl 133 with status := .lost, logical := none }
     (u.g 2).toNat ≤ 1023 ∧ u.holderOf ((u.g 2).toNat / 8) = none) := by decide +kernel

theorem witness_AsynchronousTrapsAreTaken : (let k := (at0 { core0 with preempt := some 3 }).coreAt 0
      k.run = .running ∧ k.wait = .ready ∧ k.csr.kstate.intrap = false ∧ k.csr.kstate.park = false ∧ k.preempt = some 3 ∧
      k.csr.kstate.ie = true ∧ k.csr.fenable = 0) ∧
    (let k := (at0 { core0 with preempt := some 3, csr := { core0.csr with fenable := 0x1F }, vq := [behind] }).coreAt 0
     k.csr.fenable ≠ 0 ∧ ∀ v ∈ k.vq, v.raises = false) ∧
    (let k := (at0 { core0 with lost := some 127 }).coreAt 0
     k.run = .running ∧ k.wait = .ready ∧ k.csr.kstate.intrap = false ∧ k.csr.kstate.park = false ∧ k.lost = some 127) ∧
    (let s := at0 { core0 with heldEvent := [7, 8] }
     (s.coreAt 0).heldEvent = 7 :: [8] ∧ (s.svc[s.serviceOf 0]).length < 64) := by decide +kernel

theorem witness_ActionRegistersAct : let s := at0 core0
    (1 : Word).getLsbD 0 = true ∧ s.core.slot = some 0 ∧ s.team (clusterOf s.cur) 0 = some team0 ∧ s.core.csr.shoot.busy = false := by
  decide +kernel

/-- A shootdown of core 0 that no access holds up. -/
def shooting : State := { at0 core0 with shoots := [⟨0, 0, 0, .core 0⟩] }

theorem witness_shootdown : shooting.shoots = [⟨0, 0, 0, .core 0⟩] ∧ shooting.oldAccess ⟨0, 0, 0, .core 0⟩ = false := by
  refine ⟨rfl, ?_⟩
  have h : ∀ p : Core → Bool, p core0 = false → p Core.reset = false → shooting.cores.any p = false := fun p => any_at0 p core0 team0
  unfold State.oldAccess
  extract_lets old
  rw [h _ (by decide +kernel) (by decide +kernel)]
  decide +kernel
/-- Core 0, g1 to g5 set, with core 1 of the same team of two. -/
def pair (k : Core) (l : Core) : State :=
  (at0 (withG [(1, 0x80000), (2, 0x1234), (3, 255), (4, 256), (5, 1)] { k with csr := { k.csr with tsize := 2 } })
    { team0 with cores := [0, 1] }).setCoreAt 1 l

/-- An inbox of seven words and one of eight. -/
def seven : Core := { core0 with inbox := .replicate 7 ⟨true, 0⟩ }
def full : Core := { core0 with inbox := .replicate 8 ⟨true, 0⟩ }

/-- The service core's inbox of the pair is full. -/
def svcFull : State := { pair core0 core0 with svc := .replicate 16 (.replicate 64 ⟨0, 0, 0, 0, true⟩) }

theorem witness_MessagesAndCountersComplete : (let s := pair core0 seven
      s.core.storesDone .spm = true ∧ s.core.vq = [] ∧ (s.svc[s.serviceOf s.cur]).length < 64 ∧ s.core.csr.tsize.toNat = 2 ∧
      s.teamCore (1 : BitVec 4).toNat = some 1 ∧ (1 : CoreId) ≠ s.cur ∧ (s.coreAt 1).run = .running ∧
      (s.coreAt 1).csr.kstate.intrap = false ∧ (s.coreAt 1).inbox.length < 8) ∧
    ¬(svcFull.svc[svcFull.serviceOf svcFull.cur]).length < 64 ∧ 8 ≤ ((pair core0 full).coreAt 1).inbox.length ∧
    (pair { core0 with inbox := [⟨true, 9⟩, ⟨false, 8⟩] } core0).core.inbox = ⟨true, 9⟩ :: [⟨false, 8⟩] ∧
    (pair core0 core0).core.inbox = [] ∧
    ((pair core0 { core0 with inbox := [⟨false, 8⟩] }).coreAt 1).inbox = ⟨false, 8⟩ :: [] := by decide +kernel

theorem witness_counters : let s := pair (core0.writeC 3 254) core0
    (1 : BitVec 8) ≠ 0 ∧ (s.core.readC 3).toNat < (255 : BitVec 8).toNat ∧ (254 : BitVec 8).toNat ≤ (s.core.readC 3).toNat ∧
    (s.core.readC 3).toNat < (s.g 3).toNat ∧ s.g 0 = 0 ∧ 255 < (s.g 4).toNat ∧ 0 < (s.g 5).toNat ∧
    (s.g 5).toNat ≤ (s.core.readC 3).toNat := by decide +kernel

theorem witness_EnqQueuesTheCommand : (∀ e ∈ [(0 : BitVec 3), 3], ∀ s ∈ [pair core0 core0, pair (core0.writeC 5 254) core0],
      e.toNat ≤ 3 ∧ (s.g 1).toNat % 32 = 0 ∧ 0x80000 ≤ (s.g 1).toNat ∧ (s.g 1).toNat < 0xB0000 ∧
      (s.cmds.filter fun x => x.core == s.cur && x.engine == engineOf e.toNat && x.place == .queue).length < 2 ∧
      s.core.readC 5 ≠ 255 ∧ ∀ x ∈ s.core.stores, x.kind ≠ .tcm) ∧
    ((pair (core0.writeC 5 255) core0).core.readC 5 = 255 ∧ (pair core0 core0).core.csr.kstate.intrap = false ∧
      ((pair core0 core0).g 5).toNat % 32 ≠ 0) := by decide +kernel

/-- Block 0 of the team is physical block 5; g7 is the last accumulator of block 0. -/
def accs : State := at0 (withG [(7, 0xFFC)] core0) { team0 with blocks := [(0, 5)] }

/-- An arr.mmt of the team, queued, that covers from offset 0. -/
def mmt0 : Cmd :=
  { seq := 0, core := 0, engine := .arr, counter := 0, reply := none,
    word := ⟨0x03, 0, 0, 0, 0, 4096, 0x00010001, 0⟩, place := .queue, phase := .queued, row := 0, byte := 0, boards := 0, width := 0, ascales := [],
    wscales := [], fetched := [], count := 0, skipped := 0, unstaged := 0, pos := 0, turn := 0, matched := false, mixed := false, sent := false, got := [], written := 0,
    fault := none, result := 0 }

/-- The same with that command issued. -/
def accsBusy : State := { accs with cmds := [mmt0], nextSeq := 1 }

theorem witness_accumulators : (∀ s ∈ [accs, accsBusy], (s.g 7).toNat % 2 ^ 21 % 4 = 0 ∧ s.core.vq = [] ∧
      s.place s.cur .acc ((s.g 7).toNat % 2 ^ 21) = .ok 0x5FFC ∧ s.granuleBad s.cur .acc ((s.g 7).toNat % 2 ^ 21) = false ∧
      s.core.csr.kstate.intrap = false ∧ Memory.wf (s.cl (clusterOf s.cur)).acc = true) ∧
    accs.covered accs.cur ((accs.g 7).toNat % 2 ^ 21) = false ∧ accsBusy.covered accsBusy.cur ((accsBusy.g 7).toNat % 2 ^ 21) = true := by
  decide +kernel

/-- A page of T1 cached in cluster 0's translations: readable and writable, of plain memory or of maps. -/
def tlb0 (map : Bool) : List TlbEntry :=
  [{ asid := 0, vpage := 0x10000, ppage := 3, space := 0, map := map, write := true, read := true, buf := 0 }]

/-- With that page cached; g1 points into it, g2 at the 4-aligned place beside it, g3 names the valid routine 128. -/
def mappedPage (map : Bool) (k : Core) : State :=
  let s := at0 (withG [(1, 0x100000000), (2, 0x10000FFFC), (3, 0x8000000000000000), (4, 0x10000FFF8)]
    { k with csr := { k.csr with ptbase := 0x10000 } })
  { s.setCl 0 { s.cl 0 with tlb := tlb0 map } with routines := [⟨128, true, []⟩] }

/-- What a translation or a walk answers. -/
theorem answers {α : Type} {r : State × XRes α} {p : State → α → Bool}
    (h : (match r with | (u, .ok x) => p u x | _ => false) = true) : ∃ u x, r = (u, .ok x) ∧ p u x = true := by
  split at h
  · next u x => exact ⟨u, x, rfl, h⟩
  · cases h

/-- The translation keeps the current core, and no queue stands before the place it gives. -/
def open0 (u : State) (x : Xlat) : Bool := decide (u.cur = 0) && decide (u.stackQueue x.pa = none)

theorem witness_store_translated : let s := mappedPage false core0
    (0x100000000 ≤ (s.g 1).toNat ∧ (s.g 1).toNat < 0x1000000000000 ∧ (s.g 1).toNat % 8 = 0) ∧
    ∃ u x, s.translated (s.g 1).toNat .write = (u, .ok x) ∧ open0 u x = true := ⟨by decide +kernel, answers (by decide +kernel)⟩

theorem witness_ShippedOperationsIssue : (∀ l ∈ [(7 : Nat), 0], let s := mappedPage false { core0 with stores := .replicate l (waiting .spm 0) };
      s.core.stores.length < 8) ∧ (mappedPage false core0).core.stores = [] ∧ (mappedPage false core0).core.vq = [] ∧
    (let s := mappedPage false core0
     0x100000000 ≤ (s.g 1).toNat ∧ (s.g 1).toNat % 8 = 0 ∧ (s.g 2).toNat < 0x1000000000000 ∧ (s.g 2).toNat % 4 = 0 ∧
       128 ≤ (s.g 3).toNat / 2 ^ 56 ∧ s.routineValid ((s.g 3 >>> 56).setWidth 8) = true) ∧
    (let s := mappedPage false core0
     (∃ u x, s.translated (s.g 1).toNat .amo = (u, .ok x) ∧ open0 u x = true) ∧
     (∃ u x, s.translated (s.g 2).toNat .amo = (u, .ok x) ∧ open0 u x = true) ∧
     (∃ u x, s.translated (s.g 4).toNat .routine = (u, .ok x) ∧ open0 u x = true)) :=
  ⟨by decide +kernel, by decide +kernel, by decide +kernel, by decide +kernel, answers (by decide +kernel),
   answers (by decide +kernel), answers (by decide +kernel)⟩

/-- A shipped operation with reply into g5, at the second line of T1. -/
def ship0 (op : BitVec 5) (r : Option ShipResult) : ShipOp :=
  { core := 0, reply := some 5, op := op, pa := 0x78, va := 0x100000078, x := 7, cmp := 0, asid := 0, epoch := 0, under := seal0,
    stamp := 0, result := r }

theorem witness_AtomicsPerformAndReply : (∀ op ∈ [(0 : BitVec 5), 4, 10], let s := { at0 core0 with ships := [ship0 op none] }
      (ship0 op none).op.toNat ∈ [0, 1, 2, 3, 4, 5, 6, 7, 9, 10] ∧ Memory.wf s.mem = true ∧ s.ships[0]? = some (ship0 op none) ∧
      firstOnLine (ship0 op none) (s.ships.take 0) = true ∧ s.awake 0x78 = true ∧ s.filling 0x78 = false ∧
      (s.countBuddy 0x78).lineFault 0x78 seal0 = none ∧ (ship0 op none).reply = some 5) ∧
    (let o := ship0 0 (some (.value 9))
     let s := { at0 { core0 with wait := .reply } with ships := [o] }
     o.reply = some 5 ∧ o.result = some (.value 9) ∧ s.ships = [o]) := by decide +kernel

/-- An empty segment of level 0, and a map of one page per segment. -/
def seg0 : Segment := { level := 0, split := 0, count := 0, pending := 0, pool := 10, chains := [], splitting := none }
def map0 (seg : Segment) : MapDesc :=
  { asid := 0, handle := 0, base := 0x100000000, zpg := 1, dflt := 0, seed := 0, lmax := 9, kw := true, vw := true, comb := 0, live := true, written := true, maker := 0,
    header := 0, frames := [0, 1, 2, 3, 4, 5, 6, 7], seals := (List.finRange 8).map (·, seal0), segs := .replicate 8 seg }

/-- A map operation of core 0 into g10 and g11. -/
def mapOp0 (fn : BitVec 6) (r : Option MapResult) : MapOp :=
  { core := 0, pa := 0, fn := fn, d := 10, c := 0, base := 0x100000000, handle := 0, asid := 0, epoch := 0, buf := 0, under := [seal0],
    stamp := 0, key := 5, operand := 6,
    cursor := 0, scanned := 0, result := r }

/-- With one map and one operation on it. -/
def mapping (m : MapDesc) (o : MapOp) : State := { at0 { core0 with wait := .reply } with maps := [m], mapOps := [o] }

theorem witness_MapOperationsPerform : ∀ fn ∈ [(0 : BitVec 6), 8], ∀ g ∈ [seg0, { seg0 with chains := [(0, [(7, 8)])], count := 1 }],
    let m := map0 g
    let o := mapOp0 fn none
    let s := mapping m o
    s.mapOps = [o] ∧ s.mapOf o = some m ∧ s.maps = [m] ∧ o.result = none ∧ s.awake (o.place m) = true ∧
    (m.segs[segOf (m.hash o.key)]).splitting = none ∧
    ((m.segs[segOf (m.hash o.key)]).chain ((m.segs[segOf (m.hash o.key)]).bucket (m.hash o.key))).find? (fun e => e.1 == m.key o.key) = none ∧
    (let chain := (m.segs[segOf (m.hash o.key)]).chain ((m.segs[segOf (m.hash o.key)]).bucket (m.hash o.key))
     chain.length % m.slots ≠ 0 ∨ chain = []) ∧
    s.segBad m (segOf (m.hash o.key)) = .none ∧ m.stale o.under (segOf (m.hash o.key)) = .none := by decide +kernel

/-- Every channel of every stack withdrawn. -/
def withdrawn (s : State) : State := { s with hbm := s.hbm.map fun y => { y with withdrawn := (List.range 32).map (.ofNat 5) } }

theorem witness_mapFaults : let m := map0 seg0
    let o := mapOp0 0 none
    let s := withdrawn (mapping m o)
    s.mapOf o = some m ∧ s.awake (o.place m) = true ∧ (m.segs[segOf (m.hash o.key)]).splitting = none ∧ o.fn.toNat < 11 ∧
    s.segBad m (segOf (m.hash o.key)) = .all ∧ (mapping m o).segBad m (segOf (m.hash o.key)) = .none ∧
    m.stale [{ seal0 with version := 1 }] (segOf (m.hash o.key)) = .all := by decide +kernel

theorem witness_MapInstructionsIssueAndAreAnswered : (let s := mappedPage true core0
      s.core.stores = [] ∧ s.core.vq = [] ∧ 0x100000000 ≤ (s.g 1).toNat % 2 ^ 48 ∧ (s.g 1).toNat % 2 ^ 48 % 65536 = 0) ∧
    (let s := mappedPage true core0
     (∃ u x, s.translated ((s.g 1).toNat % 2 ^ 48) .mapRead = (u, .ok x) ∧ open0 u x = true) ∧
     (∃ u x, s.translated ((s.g 1).toNat % 2 ^ 48) .mapWrite = (u, .ok x) ∧ open0 u x = true)) ∧
    (let o := mapOp0 0 (some (.pair 1 2 none))
     let s := mapping (map0 seg0) o
     s.ships = [] ∧ s.mapOps = [o] ∧ o.result = some (.pair 1 2 none) ∧ o.d.toNat % 2 = 0 ∧ o.d ≠ 0) :=
  ⟨by decide +kernel, ⟨answers (by decide +kernel), answers (by decide +kernel)⟩, by decide +kernel⟩
/-! ### Agents -/

/-- A queued command of core 0. -/
def cmdOf (e : Engine) (w : CmdWord) : Cmd := { mmt0 with engine := e, word := w }

/-- Core 0 at supervisor level with one command, which starts next. -/
def starter : Core := { super with csr := { super.csr with ptbase := 0x800 } }
def starting (x : Cmd) : State := { at0 starter with cmds := [x], nextSeq := 1 }

/-- Tables that map the page of each of the eight stacks for a map region at the first translated address. -/
def tables : Mem :=
  let l : List (Nat × Nat) := [(0x800, 0x1001), (0x1008, 0x1801), (0x1800, 0x2001)]
  (l ++ (List.range 8).map fun i => (0x2000 + 8 * i, i * 2 ^ 36 + 0x1003D)).foldl (fun (m : Mem) (e : Nat × Nat) => Memory.writeNat m e.1 8 e.2) []

/-- With those tables, and a map of other frames. -/
def mapnews : State := { starting (cmdOf .agt ⟨0x301, 0, 0x10001, 0, 0, 0, 0, 0x30900⟩) with
  mem := tables, maps := [{ map0 seg0 with frames := [99] }] }

/-- With one map of the tenant. -/
def mapdels (x : Cmd) : State := { starting x with maps := [map0 seg0] }

/-- Routine 128, and a page of zeros as an image of one routine. -/
def rtloads : State :=
  let s := starting (cmdOf .agt ⟨0x303, 0, 1, 0x180, 0, 0, 0, 0⟩)
  { s.setCl 0 { s.cl 0 with tlb := tlb0 false } with routines := [⟨128, true, []⟩] }

/-- A running agt.rtload, routine 127 valid and 128 out of service. -/
def rtloading (x : Cmd) : State := { starting x with routines := [⟨127, true, []⟩, ⟨128, false, []⟩] }

/-- What an engine's read answers. -/
theorem engineRead {α : Type} {r : Eng α} {p : State → α → Bool} (h : (match r with | .ok u x => p u x | _ => false) = true) :
    ∃ u x, r = .ok u x ∧ p u x = true := by
  cases r with
  | ok u x => exact ⟨u, x, rfl, h⟩
  | _ => cases h

theorem witness_mapnew : (let s := mapnews
     let x := cmdOf .agt ⟨0x301, 0, 0x10001, 0, 0, 0, 0, 0x30900⟩
     s.cmd s.cmdRef = some x ∧ s.mayStart x = true ∧ s.acquired x = true) ∧
    ∃ u pages, walkRegion mapnews 0 0x800 ⟨0x100000000, 1, 0, 0, 0, 9, true, true, 0⟩ 8 0 [] = (u, .ok pages) ∧
      (decide (u.cmd mapnews.cmdRef = mapnews.cmd mapnews.cmdRef ∧ u.freeHandle 0 = some 1 ∧ u.liveMaps < 16384) &&
        u.maps.all fun y => y.frames.all fun f => !(pages.map (·.1)).contains f) = true :=
  ⟨by decide +kernel, answers (by decide +kernel)⟩

theorem witness_mapdel : let x := cmdOf .agt ⟨0x302, 0, 0, 0, 0, 0, 0, 0⟩
    let s := mapdels x
    let y := { x with phase := CmdPhase.running }
    let t := mapdels y
    (s.cmd s.cmdRef = some x ∧ s.mayStart x = true ∧ s.acquired x = true ∧ s.maps = [map0 seg0] ∧ (map0 seg0).live = true ∧
      (map0 seg0).written = true ∧ (map0 seg0).asid = (s.coreAt 0).csr.asid ∧ s.stackQueue (map0 seg0).header = none) ∧
    (t.cmd 0 = some y ∧ y.phase = .running ∧ commandTo (.agt, y.word, .agtMapdel hd0 0) = true ∧ t.mapOps = [] ∧
      t.transit = []) := by decide +kernel

/-- A segment whose split is due, at the last bucket of its level or the first of the next. -/
def due (level split : Nat) : Segment := { seg0 with level := level, split := split, pending := 1 }

theorem witness_split : ∀ g ∈ [due 0 0, due 1 0, due 1 1], let s := { at0 core0 with maps := [map0 g] }
    s.maps = [map0 g] ∧ (map0 g).live = true ∧ s.mapOps = [] ∧ s.ships = [] ∧ s.transit = [] ∧
    s.segBad (map0 g) 7 = .none ∧ (map0 g).stale (s.mapSeals (map0 g)) 7 = .none ∧ s.awake ((map0 g).segPlace 7) = true ∧
    ((map0 g).segs[(7 : Slot)]).splitting = none ∧ 0 < ((map0 g).segs[(7 : Slot)]).pending ∧
    ((map0 g).segs[(7 : Slot)]).chain ((map0 g).segs[(7 : Slot)]).split = [] := by decide +kernel

theorem witness_rtload : let x := cmdOf .agt ⟨0x303, 0, 1, 0x180, 0, 0, 0, 0⟩
    (rtloads.cmd rtloads.cmdRef = some x ∧ rtloads.mayStart x = true ∧ rtloads.acquired x = true ∧
      (rtloads.coreAt 0).csr.kstate.priv = .supervisor) ∧
    (∃ u image, copyReads rtloads x true false ((512 + 2420) / 32 + 1) 0x100000000 (512 + 2420) = .ok u image ∧
      (decide (u.cmd rtloads.cmdRef = some x) && decide (firstInvalid (image.take 512) 1 = none)) = true) ∧
    (let y := { x with phase := CmdPhase.running }
     (rtloading y).cmd 0 = some y ∧ y.phase = .running ∧ commandTo (.agt, y.word, .agtRtload hd0 0x100000000 128 1) = true) ∧
    ∀ y, (rtloading y).routineQueued 128 1 = false := by
  refine ⟨by decide +kernel, engineRead (by decide +kernel), by decide +kernel, fun y => ?_⟩
  have h : ∀ p : Core → Bool, p starter = false → p Core.reset = false → (rtloading y).cores.any p = false := fun p => any_at0 p starter team0
  unfold State.routineQueued
  extract_lets uses
  rw [h _ (by decide +kernel) (by decide +kernel)]
  rfl

/-! ### The Claim Unit -/

/-- A claim of two lots, three pages, one board and 256 blocks, and none. -/
def claimed : Team := { team0 with claim := some ⟨2, 128, 1, 256⟩ }

/-- Requests: g1 for the claim above, g2 three pages from 0, g3 the last page of all, g4 one more than is free. -/
def asks (x : Team) (k : Core) : State :=
  at0 (withG [(1, 0x100018002), (2, 0x00000301), (3, 0x7F000101), (4, 0x00008101), (5, 8), (6, 16)] k) x

/-- Another team, which holds all pages but one. -/
def hog : Team := { claimed with pages := (List.range 127).map fun i => (i, i) }

/-- With that team beside. -/
def crowded : State := (asks claimed core0).setTeam 0 1 (some hog)

theorem witness_ClaimsAndAcquiresComplete : (let s := asks team0 core0
      s.core.slot = some 0 ∧ s.claimLate = false ∧ s.team (clusterOf s.cur) 0 = some team0 ∧ vectorReserved (s.g 1).toNat = false ∧ team0.claim = none ∧
      (Counts.ofVector (s.g 1).toNat).overTotal = none) ∧
    (∀ a ∈ [(2 : BitVec 5), 3], let s := asks claimed core0
      s.core.slot = some 0 ∧ s.claimLate = false ∧ s.team (clusterOf s.cur) 0 = some claimed ∧ malformed (s.g a) = false ∧
      (Request.of (s.g a)).cls = 1 ∧ (Request.of (s.g a)).overlaps claimed = false ∧ claimed.claim = some ⟨2, 128, 1, 256⟩ ∧
      overClaim (s.allocation 0 0) (Request.of (s.g a)).counts ⟨2, 128, 1, 256⟩ = none ∧
      s.bankerDecide 0 0 (Request.of (s.g a)).counts = 0) ∧
    (let s := crowded
     s.core.slot = some 0 ∧ s.claimLate = false ∧ s.team (clusterOf s.cur) 0 = some claimed ∧ malformed (s.g 2) = false ∧
      (Request.of (s.g 2)).cls = 1 ∧ overClaim (s.allocation 0 0) (Request.of (s.g 2)).counts ⟨2, 128, 1, 256⟩ = none ∧
      s.bankerDecide 0 0 (Request.of (s.g 2)).counts ≠ 0) := by decide +kernel

/-- Of the hog's cluster, seen from the hog; its board slot 2 is data. -/
def holding : State :=
  let s := asks { claimed with pages := [(0, 7), (1, 8), (2, 3), (9, 1)], blocks := [(0, 5)] } core0
  s.setCl 0 { s.cl 0 with groups := (s.cl 0).groups.set 7 { Group.reset with holder := some (0, 2) } }

theorem witness_ReleasesComplete : holding.core.slot = some 0 ∧ holding.core.storesDone .spm = true ∧ holding.core.vq = [] ∧
    holding.cmds = [] ∧ claimed.saved = [] ∧ malformed (holding.g 2) = false ∧ (Request.of (holding.g 2)).cls = 1 ∧
    (Request.of (holding.g 2)).unheld (holding.cl 0) 0 { claimed with pages := [(0, 7), (1, 8), (2, 3), (9, 1)], blocks := [(0, 5)] } = false ∧
    (∀ g ∈ List.range 8, (((holding.cl 0).group g).holder.any fun h => h.1 == 0) = true → ((holding.cl 0).group g).mode = .data) := by
  decide +kernel

/-- Core 0 with one lot, asking for one to two. -/
def lanes1 : State := asks claimed { core0 with csr := { core0.csr with vlen := 8 }, minLots := 1, maxLots := 1 }

theorem witness_LaneClaimsComplete : let s := lanes1
    s.core.slot = some 0 ∧ s.team (clusterOf s.cur) 0 = some claimed ∧ s.core.vq = [] ∧ s.claimLate = false ∧ (s.g 5).toNat % 8 = 0 ∧ (s.g 6).toNat % 8 = 0 ∧
    (s.g 5).toNat ≤ (s.g 6).toNat ∧ (s.g 6).toNat ≤ 64 ∧ claimed.claim = some ⟨2, 128, 1, 256⟩ ∧
    (s.g 5).toNat / 8 + s.otherLots s.cur 0 ≤ 2 ∧ (s.g 5).toNat / 8 ≤ s.core.csr.vlen.toNat / 8 ∧
    (let u := s.setCl 0 { s.cl 0 with blocked := [⟨3, 1, ⟨1, 0, 0, 0⟩, .lanes 0 1 1⟩] }
     (∃ e ∈ (u.cl 0).blocked, e.team ≠ 0) ∧ u.core.csr.vlen.toNat / 8 ≤ 8) := by decide +kernel

/-- A blocked request for three pages of core 0. -/
def blocked0 : Blocked := { core := 0, team := 0, req := ⟨0, 3, 0, 0⟩, kind := .units 0x00000301 }

/-- With that request blocked, page 127 being zeroed, and page 7 to be moved. -/
def busyUnit : State :=
  let s := asks claimed { core0 with wait := .acquire }
  s.setCl 0 { s.cl 0 with blocked := [blocked0], zeroing := [.page 127], reloc := [(7, some 0)] }

theorem witness_ClaimUnitEventsComplete : (busyUnit.cl 0).blocked = [blocked0] ∧ blocked0.kind = .units 0x00000301 ∧
    (Request.of 0x00000301).cls = 1 ∧ busyUnit.team 0 blocked0.team = some claimed ∧
    (Request.of 0x00000301).overlaps claimed = false ∧
    overClaim (busyUnit.allocation 0 0) (Request.of 0x00000301).counts ⟨2, 128, 1, 256⟩ = none ∧
    busyUnit.bankerDecide 0 blocked0.team blocked0.req = 0 ∧ (busyUnit.cl 0).zeroing = .page 127 :: [] ∧
    Memory.wf (busyUnit.cl 0).spm = true ∧ (busyUnit.cl 0).reloc = (7, some 0) :: [] ∧
    (busyUnit.cl 0).pageFree 0 = true ∧ (0 : Nat) ≠ 7 ∧ .page 0 ∉ (busyUnit.cl 0).zeroing ∧
    .page 7 ∉ (busyUnit.cl 0).zeroing := by decide +kernel

theorem witness_GrantsTakeTheLowestUnits : let x := { claimed with pages := [(9, 0), (10, 2)] }
    let s := asks x core0
    s.claimLate = false ∧ s.core.slot = some 0 ∧ s.team (clusterOf s.cur) 0 = some x ∧ malformed (s.g 2) = false ∧ (Request.of (s.g 2)).cls ≠ 2 ∧
    (Request.of (s.g 2)).overlaps x = false ∧ x.claim = some ⟨2, 128, 1, 256⟩ ∧
    overClaim (s.allocation 0 0) (Request.of (s.g 2)).counts ⟨2, 128, 1, 256⟩ = none ∧
    s.bankerDecide 0 0 (Request.of (s.g 2)).counts = 0 ∧ [1, 3, 4].Nodup ∧ [1, 3, 4].length = (Request.of (s.g 2)).count ∧
    (∀ u ∈ [1, 3, 4], u < 128 ∧ (∀ m : Slot, ((s.team 0 m).map fun y => y.pages.all (·.2 != u)) ≠ some false) ∧
      ((s.cl 0).group (u / 16)).holder = none) := by decide +kernel

/-! ### Barriers -/

/-- A binding of barrier 7 to the team, with these sets. -/
def bar7 (parts dropped arrived maxDue : BitVec 8) : Barrier :=
  { id := 7, group := none, parts := parts, dropped := dropped, arrived := arrived, maxDue := maxDue, phase := 0, contrib := none,
    relMax := 0x3F800000, expired := none }

/-- Core 0 of two, g1 names barrier 7, g2 unbinds, g3 binds to the team, g4 binds to group 255. -/
def bars (l : List Barrier) (k : Core) : State :=
  at0 (withG [(1, 7), (2, 0x80000000), (3, 0), (4, 0x10FF0000)] { k with csr := { k.csr with tsize := 2 } })
    { team0 with cores := [0, 1], bars := l }

/-- With group 255 declared. -/
def grouped : State :=
  let s := bars [] core0
  s.setCl 0 { s.cl 0 with coll := [{ team := 0, asid := 0, gnum := 255, mem := 1, fab := 0, turn := 0, pos := 0, discards := 0,
                                     records := [], aborted := false }] }

/-- A barrier operation of core 5 has been decided in this cycle. -/
def late : State :=
  let s := bars [] core0
  s.setCl 0 { s.cl 0 with barDecided := some (0, 5) }

theorem witness_BarriersComplete : (late.core.barWait = none ∧ late.barLate = true) ∧
    ((bars [] core0).core.barWait = none ∧ (bars [] core0).barLate = false ∧ (bar7 3 2 1 0).expired ≠ some (bars [] core0).now) ∧
    (bars [] core0).core.slot = some 0 ∧ (bars [] core0).barId 1 = 7 ∧
    ({ team0 with cores := [0, 1], bars := [bar7 3 0 0 0] } : Team).bar 7 = some (bar7 3 0 0 0) ∧ (bar7 3 0 0 0).arrived = 0 ∧
    ((bars [] core0).g 2).getLsbD 31 = true ∧ ((bars [] core0).g 3).getLsbD 31 = false ∧ ((bars [] core0).g 3).getLsbD 28 = false ∧
    (grouped.g 4).getLsbD 28 = true ∧ (grouped.cl 0).groupEntry 0 ((grouped.g 4 >>> 16).setWidth 8) ≠ none ∧
    (let y := bar7 3 0 2 0
     inSet y.parts 0 = true ∧ inSet y.dropped 0 = false ∧ inSet y.arrived 0 = false ∧ inSet y.maxDue 0 = false ∧
       (bars [y] core0).barFenced 0 y = true ∧ (bars [y] core0).bar 0 0 7 = some y) ∧
    (inSet (bar7 3 0 1 0).arrived 0 = true ∧ inSet (bar7 3 0 1 0).dropped 0 = false) ∧
    (inSet (bar7 3 0 0 1).maxDue 0 = true ∧ inSet (bar7 3 0 0 1).arrived 0 = false) ∧
    (let y := bar7 3 2 1 0
     y.group = none ∧ y.parts &&& ~~~y.dropped &&& ~~~y.arrived = 0 ∧ y.arrived ≠ 0 ∧ (let s := bars [y] { core0 with barWait := some ⟨7, 5, some 4⟩ }
       (s.coreAt 0).slot = some 0 ∧ (s.coreAt 0).barWait = some ⟨7, 5, some 4⟩)) ∧
    (let y := bar7 3 0 1 0
     let s := { bars [y] { core0 with barWait := some ⟨7, 0, none⟩ } with now := 0x100000 }
     s.core.barWait = some ⟨7, 0, none⟩ ∧ y.group = none ∧ inSet y.arrived 0 = true ∧ 0 + max s.core.csr.bto.toNat 1 ≤ s.now ∧
       s.core.parked = false ∧ s.core.csr.kstate.intrap = false) := by decide +kernel

theorem witness_BarrierTrapsChangeNothing : ((bars [] core0).core.barWait = none ∧ (bars [] core0).barLate = false) ∧ (bars [] core0).core.csr.kstate.intrap = false ∧ (bars [] core0).core.slot = some 0 ∧
    ({ team0 with cores := [0, 1], bars := [] } : Team).bar 7 = none ∧ (bars [] core0).core.sync ≠ some (7, true) ∧
    ({ team0 with cores := [0, 1], bars := [bar7 2 0 0 0] } : Team).bar 7 = some (bar7 2 0 0 0) ∧ inSet (bar7 2 0 0 0).parts 0 = false ∧
    inSet (bar7 2 0 0 0).arrived 0 = false ∧ inSet (bar7 3 1 0 0).dropped 0 = true ∧ inSet (bar7 3 0 1 0).arrived 0 = true ∧
    inSet (bar7 3 0 1 0).maxDue 0 = false ∧ (bar7 3 0 1 0).arrived ≠ 0 := by decide +kernel
/-! ### Vector instructions -/

/-- Core 0 with eight lanes; p1 to p3 stream the first three rows of its scratchpad page, p4 an accumulator row, m2 picks every other
lane, f4 holds 1.0. -/
def vcore (vlen : BitVec 7) : Core :=
  withF [(4, 0x3F800000)] (((((({ core0 with csr := { core0.csr with vlen := vlen } }).writeP 1 0x0000100000000000).writeP 2
    0x0000100000000100).writeP 3 0x0000100000000200).writeP 4 0x200300).writeM 2 0x5555555555555555)

/-- The team maps one page and one block. -/
def vteam : Team := { team0 with pages := [(0, 3)], blocks := [(0, 2)] }

/-- With words in the first row. -/
def vec (vlen : BitVec 7) : State :=
  let s := at0 (vcore vlen) vteam
  s.setCl 0 { s.cl 0 with spm := Memory.writeNat [] (3 * 16384) 16 0x3F80000040000000C0000000FF800000 }

/-- What reading lane words answers. -/
theorem lanesRead {α : Type} {r : Got α} {p : State → α → Bool} (h : (match r with | .ok u x => p u x | _ => false) = true) :
    ∃ u x, r = .ok u x ∧ p u x = true := by
  cases r with
  | ok u x => exact ⟨u, x, rfl, h⟩
  | _ => cases h

/-- Streams that may be read and written: MayIssue without its quantifiers over accumulators, of which none is covered. -/
theorem mayIssue {s : State} {srcs : List Stream} {dst : Option Stream} (h : s.core.vq = [] ∧ s.core.storesDone .spm = true ∧ s.vlen ≠ 0 ∧
    ∀ x ∈ srcs ++ dst.toList, ptrAddr x.1 % 4 = 0) (c : s.teamCmds s.cur = []) : MayIssue s srcs dst :=
  ⟨h.1, h.2.1, h.2.2.1, h.2.2.2, fun _ _ _ _ _ => by simp [State.covered, State.coveredBefore, c]⟩

theorem witness_MayIssue (d : BitVec 4) (hd : d = 3 ∨ d = 4) : ∀ n ∈ [(8 : BitVec 7), 64],
    MayIssue (vec n) [((vec n).p 1, (vec n).vlen), ((vec n).p 2, (vec n).vlen)] (some ((vec n).p d, (vec n).vlen)) := by
  rintro n hn
  simp only [List.mem_cons, List.not_mem_nil, or_false] at hn
  rcases hn with rfl | rfl <;> rcases hd with rfl | rfl <;> exact mayIssue (by decide +kernel) rfl

theorem witness_VectorElementsComputed : elemOf 0 = .fp fp32 ∧ elemOf 3 = .fp e5m2 ∧ elemOf 4 = .int 32 ∧ elemOf 6 = .int 8 ∧
    (∀ m ∈ [(0 : BitVec 3), 2], ∀ sc ∈ [false, true], let s := vec 8;
      (match readOperands s (s.p 1) (srcB 2 sc) (some (s.p 4)) s.vlen (s.active m) with | .ok _ _ => true | _ => false) = true ∧
      (match readOperands s (s.p 1) .none none s.vlen (s.active m) with | .ok _ _ => true | _ => false) = true) := by decide +kernel

theorem witness_readOperands : ∃ u l, readOperands (vec 8) ((vec 8).p 1) (srcB 2 false) none 8 ((vec 8).active 2) = .ok u l ∧
    (decide (l.getD 0 (0, 0, 0) = (0xFF800000, 0, 0)) && decide (u.cur = 0)) = true := lanesRead (by decide +kernel)

theorem witness_VectorComparesReductionsAndConversions : (vec 64).vlen ≤ 64 ∧
    (let s := vec 8
     (∃ u la, readStream s (s.p 1) s.vlen (s.active 2) = .ok u la ∧
       (decide (u.cur = s.cur) && match (srcB 2 true).read s s.vlen (fun j => !s.active 2 j) with | .ok _ _ => true | _ => false) = true) ∧
     (∃ u l, readOperands s (s.p 1) (srcB 4 true) none s.vlen (s.active 2) = .ok u l ∧ decide (u.cur = s.cur) = true) ∧
     (∃ u la, readStream s (s.p 1) (s.vlen * 2 / 4) (fun _ => true) = .ok u la ∧ decide (u.cur = s.cur) = true)) :=
  ⟨by decide +kernel, lanesRead (by decide +kernel), lanesRead (by decide +kernel), lanesRead (by decide +kernel)⟩

/-- The packed bytes of the first row, legal, and with byte 2 above 242. -/
def packed (b : Nat) : State :=
  let s := at0 (vcore 8) vteam
  s.setCl 0 { s.cl 0 with spm := Memory.writeNat [] (3 * 16384) 4 (0xF2F2 + b * 65536) }

theorem witness_vupk3 : let nb := (8 * (elemOf 6).perWord + 4) / 5
    (∃ u la, readStream (packed 0xF2) ((packed 0xF2).p 1) ((nb + 3) / 4) (fun _ => true) = .ok u la ∧
      decide (∀ y, y < nb → elemAt 8 la y < 243) = true) ∧
    (∃ u la, readStream (packed 0xF3) ((packed 0xF3).p 1) ((nb + 3) / 4) (fun _ => true) = .ok u la ∧
      (decide (2 < nb) && decide (243 ≤ elemAt 8 la 2) && decide (elemAt 8 la 0 < 243 ∧ elemAt 8 la 1 < 243)) = true) ∧
    (packed 0xF3).core.csr.kstate.intrap = false := ⟨lanesRead (by decide +kernel), lanesRead (by decide +kernel), by decide +kernel⟩

/-- Seven entries wait in the unit queues of cluster 0. -/
def queued7 : State :=
  let s := vec 8
  let v : PendVec := { behind with before := 0, unit := true }
  s.setCl 0 { s.cl 0 with sfu := .replicate 7 ⟨1, v⟩, topk := .replicate 7 ⟨1, .spm, 0, [], v⟩ }

theorem witness_VectorUnitsAndFences : (queued7.cl (clusterOf queued7.cur)).sfu.length < 8 ∧
    (queued7.cl (clusterOf queued7.cur)).topk.length < 8 ∧ ptrAddr (queued7.p 3) % 8 = 0 ∧ queued7.core.vq = [] ∧ queued7.cmds = [] ∧
    (∃ u la, readStream queued7 (queued7.p 1) queued7.vlen (queued7.active 2) = .ok u la ∧ decide (u.cur = queued7.cur) = true) ∧
    (∃ u lb, readStream queued7 (queued7.p 2) queued7.vlen (queued7.active 2) = .ok u lb ∧
      (decide (u.cur = queued7.cur) && decide (∀ o ∈ (List.range 8).map fun j => (ptrAddr (queued7.p 1) + lb.getD j 0) % 2 ^ 21, o % 4 = 0)) = true) ∧
    (∀ sp l, queued7.anyCovered sp l = false) ∧
    (∃ u lg, readLanes queued7 (ptrSpace (queued7.p 1)) [some 0, none, some 12] = .ok u lg ∧ decide (u.cur = queued7.cur) = true) :=
  ⟨by decide +kernel, by decide +kernel, by decide +kernel, by decide +kernel, rfl, lanesRead (by decide +kernel),
   lanesRead (by decide +kernel), fun sp l => by
     simp [State.anyCovered, State.covered, State.coveredBefore, show queued7.teamCmds queued7.cur = [] from rfl], lanesRead (by decide +kernel)⟩

/-- An issued vector instruction that will write one lane word and the register files. -/
def pending : PendVec :=
  { writes := [⟨.spm, 8, -1, 0x11223344⟩], landed := [], steps := [1, 3], flags := 0x10, freg := some (5, 0x3F800000), mreg := some (2, 3), pc := 0x80000,
    raises := true, before := 0, unit := true, list := false }

/-- Core 0 with that instruction in both unit queues: the top-k list is one entry of the list at 0x40. -/
def unitQueues (k : Core) : State :=
  let s := at0 k vteam
  s.setCl 0 { s.cl 0 with
    sfu := [⟨0, pending⟩], topk := [⟨0, .spm, 0x40, [(0x3F800000, 1), (0x40000000, 2)], pending⟩],
    spm := Memory.writeNat (Memory.writeNat [] (3 * 16384 + 0x40) 4 1) (3 * 16384 + 0x48) 8 0x000000093FC00000 }

/-- With it issued, and with nothing issued before. -/
def retiring : State := unitQueues { vcore 8 with wait := .retiring, vq := [pending] }
def merging : State := unitQueues { vcore 8 with wait := .unit }

theorem witness_VectorRetirement : (retiring.coreAt 0).vq = pending :: [] ∧ (∃ u, retiring.writeLanes 0 pending.writes = some u ∧
      decide ((u.coreAt 0).vq = pending :: []) = true) ∧ pending.steps.Nodup ∧ pending.before = 0 ∧
    pending.writes = [⟨.spm, 8, -1, 0x11223344⟩] ∧ behind.writes = [] ∧ (pending.unit = true ∧ behind.unit = false) ∧
    ((unitQueues { vcore 8 with wait := .event, vq := [behind] }).coreAt 0).wait = .event ∧ behind.flags &&& (vcore 8).csr.fenable = 0 ∧
    retiring.place 0 .spm 8 = .ok (3 * 16384 + 8) ∧ ((retiring.cl 0).bad .spm).contains ((3 * 16384 + 8) / 32) = false ∧
    Memory.wf ((retiring.cl 0).space .spm) = true :=
  ⟨by decide +kernel, answeredWith (by decide +kernel), by decide +kernel, by decide +kernel, by decide +kernel, by decide +kernel,
   by decide +kernel, rfl, by decide +kernel, by decide +kernel, by decide +kernel, by decide +kernel⟩

theorem witness_unitQueues : (merging.cl 0).sfu = ⟨0, pending⟩ :: [] ∧
    (merging.cl 0).topk = ⟨0, .spm, 0x40, [(0x3F800000, 1), (0x40000000, 2)], pending⟩ :: [] ∧ (merging.coreAt (coreOf 0 0)).vq = [] ∧
    merging.merging 0 = false ∧ merging.readWords 0 .spm 0x40 1 = some (merging, [1]) ∧
    (∀ i, i ≤ 2 → merging.granuleBad 0 .spm ((0x40 + 4 * i) % 2 ^ 21) = false) ∧
    (∃ x, (merging.setCl 0 { merging.cl 0 with topk := [] }).readWords 0 .spm 0x48 2 = some x ∧ decide (x.2 = [0x3FC00000, 9]) = true) := by
  refine ⟨by decide +kernel, by decide +kernel, by decide +kernel, by decide +kernel, ?_, by decide +kernel,
    answeredWith (by decide +kernel)⟩
  have h : merging.place 0 .spm (0x40 % 2 ^ 21) = .ok (3 * 16384 + 0x40) := by decide +kernel
  have w : Memory.readNat ((merging.cl (clusterOf 0)).space .spm) (3 * 16384 + 0x40) 4 = 1 := by decide +kernel
  simp only [State.readWords, State.readTeam]
  rw [h]
  simp only [w]
  rfl
/-! ### Array commands -/

/-- The team of core 0 maps the first seventeen pages and blocks in place; team board slot 0 is bank group 0. -/
def boardTeam : Team :=
  { team0 with pages := (List.range 17).map fun i => (i, i), blocks := (List.range 16).map fun i => (i, i) }

/-- Bank group 0, of width 8, in a state, at work for command 0. -/
def group0 (mode : BoardMode) : Group :=
  { Group.reset with holder := some (0, 0), mode := mode, width := 8, wscale := 0x40000, cmd := some 0 }

/-- Core 0 with one array command and its bank group; TCM and memory are empty, the scratchpad holds `spm`. -/
def array (x : Cmd) (mode : BoardMode) (spm : Mem) : State :=
  let s := { at0 { core0 with credit := 1 } boardTeam with cmds := [x], nextSeq := 1 }
  s.setCl 0 { s.cl 0 with spm := spm, groups := (s.cl 0).groups.set 0 (group0 mode) }

/-- arr.mkboard of slot 0 and of slot 7, arr.clrboard of slot 0, arr.mmt over board 0, arr.acmout of one row. -/
def mkboard0 : Cmd := cmdOf .arr ⟨0x01, 0, 8, 0x40000, 0, 0, 0, 0⟩
def mkboard7 : Cmd := cmdOf .arr ⟨0x01, 7, 8, 0x40000, 0, 0, 0, 0⟩
def clrboard0 : Cmd := cmdOf .arr ⟨0x02, 0, 0, 0, 0, 0, 0, 0⟩
def mmt1 : Cmd := cmdOf .arr ⟨0x03, 0x40100, 0, 0x40200, 0, 8, 0x00010001, 0⟩
def acmout1 : Cmd := cmdOf .arr ⟨0x04, 0, 8, 0x40300, 0x20, 0x00010008, 0, 0⟩

theorem witness_ArrayCommandsComplete : (∀ p ∈ [(mkboard0, BoardMode.data), (mkboard7, .data), (clrboard0, .board), (clrboard0, .data), (mmt1, .board),
      (acmout1, .data)], let s := array p.1 p.2 []
      s.cmd s.cmdRef = some p.1 ∧ s.mayStart p.1 = true ∧ s.acquired p.1 = true ∧ s.behindHeld p.1 [0] = false ∧
      acmout1.row = 0 ∧ s.boardGroup p.1 0 = some 0 ∧ s.boardGroup p.1 7 = none ∧ ((s.cl 0).group 0).mode = p.2) ∧
    ((array mkboard0 .data []).cl 0).groupBusy 0 = false ∧ (array clrboard0 .board []).boardInUse clrboard0 0 = false ∧
    (let s := array acmout1 .data []
     acmout1.phase = .queued ∧ acmout1.row = 0 ∧ acmoutBlocked s acmout1 0 8 8 1 = false) := by decide +kernel

theorem witness_mmt : mmt1.phase ≠ .stopped ∧ (array mmt1 .board []).behindHeld mmt1 (maskBits (1 : BitVec 8)) = false ∧
    takeBoards (array mmt1 .board []) mmt1 (maskBits (1 : BitVec 8)) = .ok [0] ∧
    (∃ u as, engReads (array mmt1 .board []) 0 .spm 4 (ascaleOffs 0x40200 1 1) = .ok u as ∧
      (match engReads u 0 .spm 4 ([0].flatMap fun g => (((array mmt1 .board []).cl 0).group g).scaleOffs) with
        | .ok u' _ => decide (u'.cmd 0 = some mmt1)
        | _ => false) = true) ∧ mmt1.row < 1 :=
  ⟨by decide +kernel, by decide +kernel, by decide +kernel, engineRead (by decide +kernel), by decide +kernel⟩

/-- An arr.acmout inside its row, and with its row done. -/
def acmoutRuns (row : Nat) : Cmd := { acmout1 with phase := .running, row := row }

theorem witness_acmout : (let s := array (acmoutRuns 1) .data []
      s.cmd s.cmdRef = some (acmoutRuns 1) ∧ (acmoutRuns 1).phase = .running ∧ (acmoutRuns 1).row = 1) ∧
    (array (acmoutRuns 0) .data []).acmoutGoes (acmoutRuns 0) = true ∧
    (∃ u v, engRead (array (acmoutRuns 0) .data []) 0 .acc 0 32 = .ok u v ∧
      (u.writeTeam 0 .spm 0x40300 (List.replicate 32 0)).any (fun w => decide (w.cmd 0 = some (acmoutRuns 0))) = true) :=
  ⟨by decide +kernel, by decide +kernel, engineRead (by decide +kernel)⟩

/-- The scratchpad with a byte that is no trit byte, at an offset of the group. -/
def tritsBad (o : Nat) : Mem := Memory.writeNat [] o 1 243

theorem witness_conversions : (let s := array { mkboard0 with phase := .running } .converting []
      ((s.cl 0).group 0).mode = .converting ∧ ((s.cl 0).group 0).cmd = some 0 ∧ s.cmd 0 = some { mkboard0 with phase := .running } ∧
      illegalTrit (s.cl 0).spm 0 ((s.cl 0).group 0).width = none) ∧
    (∀ o ∈ [0, 511], let s := array { mkboard0 with phase := .running } .converting (tritsBad o)
      o < 64 * ((s.cl 0).group 0).width ∧ 243 ≤ (Memory.read (s.cl 0).spm o).toNat ∧
      (∀ o' ∈ List.range o, (Memory.read (s.cl 0).spm o').toNat < 243) ∧ Memory.wf (s.cl 0).spm = true) ∧
    (let x := { clrboard0 with phase := .running }
     let s := array x .clearing []
     ((s.cl 0).group 0).mode = .clearing ∧ s.clears 0 0 x = true ∧ s.cmd x.seq = some x) := by decide +kernel

/-- A running arr.mmt that has started on board 0. -/
def mmtRuns : Cmd := { mmt1 with phase := .running, boards := 1, width := 8, ascales := .replicate 2 0x3F800000, wscales := .replicate 64 0x3F800000 }

theorem witness_rowGrant : (let s := array mmtRuns .board []
      s.throttled = false ∧ (∀ n : Slot, n ≠ 0 → s.eligible (coreOf 0 n) = none) ∧ (s.eligible (coreOf 0 0)).isSome = true ∧
      (s.eligible (coreOf 0 0)).map (·.1) = some mmtRuns ∧ mmtRuns.core = coreOf 0 0 ∧ s.cmd mmtRuns.seq = some mmtRuns ∧
      (s.coreAt (coreOf 0 0)).credit ≠ 0 ∧ s.boardGroups mmtRuns = [some 0] ∧
      badBoard (s.cl 0) mmtRuns.width [0] = none) ∧
    ∃ u l, engReads (((array mmtRuns .board []).granted 0 0).noteReleased mmtRuns) (coreOf 0 0) .spm 32 ((List.range 10).map fun t => 0x40100 + 32 * t) = .ok u l ∧
      decide (u.cmd 0 = some mmtRuns) = true := ⟨by decide +kernel, engineRead (by decide +kernel)⟩

/-- A drain beat of that command, of the last accumulator granule of the team's first block. -/
def beat0 : DrainBeat := { seq := 0, lead := true, off := 4064, drains := [⟨0, .fin 3 0, 0x3F800000, true⟩, ⟨7, .fin 5 (-1), 0x40000000, false⟩] }

/-- With that beat queued. -/
def draining : State :=
  let s := array mmtRuns .board []
  s.setCl 0 { s.cl 0 with drain := [beat0], acc := Memory.writeNat [] 4092 4 0x3F800000 }

theorem witness_drainBeat : (draining.cl 0).drain = beat0 :: [] ∧ draining.cmd beat0.seq = some mmtRuns ∧ clusterOf mmtRuns.core = 0 ∧
    draining.place mmtRuns.core .acc beat0.off = .ok 4064 ∧ (draining.cl 0).badAcc.contains (4064 / 32) = false ∧
    Memory.wf (draining.cl 0).acc = true := by decide +kernel

/-- A finished command, with and without reply. -/
def finished (r : Option (BitVec 5)) (f : Option (BitVec 8 × Word)) : Cmd :=
  { mkboard0 with phase := .finished, place := .gone, reply := r, fault := f, result := 5 }

theorem witness_commandComplete : ∀ x ∈ [finished none none, finished (some 6) none, finished (some 6) (some (0x64, 1))],
    ∀ k ∈ [core0.writeC 0 1, { core0 with wait := .enqReply 0 6 }], ∀ st ∈ [TeamStatus.running, .preempting],
    let s := { at0 k { team0 with status := st } with cmds := [x] }
    s.cmd x.seq = some x ∧ x.phase = .finished ∧ s.released x = true ∧ s.collTurn x = true ∧ s.savesGranted x = false := by decide +kernel
/-! ### Copy commands -/

/-- A fill of two rows of 40 bytes to TCM, a copy from TCM to the scratchpad, cpy.pref and cpy.tierq of the first page. -/
def fill0 : Cmd := cmdOf .cpy ⟨0x102, 0xDDCCBBAA, 0, 0xAFFC1, 0, 0x00200028, 0, 0x100⟩
def copy0 : Cmd := cmdOf .cpy ⟨0x101, 0x80000, 0, 0x400010, 0, 0x00100008, 0, 0⟩
def copyNone : Cmd := cmdOf .cpy ⟨0x101, 0x80000, 0, 0x400010, 0, 0x00100000, 0, 0⟩
def pref0 : Cmd := cmdOf .cpy ⟨0x103, 0, 1, 0, 0, 1, 0, 0⟩
def tierq0 : Cmd := cmdOf .cpy ⟨0x104, 0, 1, 0, 0, 0, 0, 0⟩

/-- Core 0 with a command, its page tables mapping the first translated page as a leaf of this entry. -/
def copying (x : Cmd) (leaf : Nat) : State :=
  let s := { starting x with mem := Memory.writeNat (Memory.writeNat (Memory.writeNat (Memory.writeNat [] 0x800 8 0x1001) 0x1008 8 0x1801)
                                    0x1800 8 0x2001) 0x2000 8 leaf }
  (s.setCore { s.core with slot := some 0 }).setTeam 0 0 (some vteam)

/-- Leaves in T1, in T2, and none. -/
def leafT1 : Nat := 0x3001D
def leafT2 : Nat := 0x2000003005D

theorem witness_copyStarts : ∀ x ∈ [fill0, copy0, copyNone, { copy0 with row := 1, phase := .stopped }], let s := copying x leafT1
    s.cmd s.cmdRef = some x ∧ s.mayStart x = true ∧ s.acquired x = true := by decide +kernel

/-- A running command at a row and byte. -/
def running (x : Cmd) (row byte : Nat) : Cmd := { x with phase := .running, row := row, byte := byte }

theorem witness_copyGrants : (∀ x ∈ [running fill0 0 0, running fill0 0 31, running fill0 1 31, running copy0 0 0], let s := copying x leafT1
      s.cmd x.seq = some x ∧ x.phase = .running ∧ s.goesOn x = true ∧ s.outstanding (clusterOf x.core) < 64 ∧
      x.copyJob.any (fun j => decide (s.halfOf x (j.at_ x) = none)) = true ∧ s.cmds = [x]) ∧
    (running fill0 0 0).copyJob.any (fun j => decide (j.pattern = some 0xDDCCBBAA) && !j.dacc && decide (winAddr j.dst = 0xAFFC1)) = true ∧
    ∀ x ∈ [running fill0 0 31, running copy0 0 0], (x.copyJob).any (fun j =>
      match grantBytes (copying x leafT1) x j with
      | .ok u _ => decide (u.cmd x.seq = some x)
      | _ => false) = true := by decide +kernel

/-- R64, R300: two rows of 16 bytes that fill one granule are one grant, after which the command has only writes left. -/
theorem test_rows_share_granule : let x := running (cmdOf .cpy ⟨0x102, 0xDDCCBBAA, 0, 0x80000, 0, 0x00200010, 0, 0x10⟩) 0 0
    (evCopyGranuleGrant 0 (copying x leafT1)).any (fun t => decide (t.granules.map (fun g => g.cells.length) = [32]) &&
      (t.cmd 0).any fun y => decide (y.phase = .finished)) = true := by decide +kernel

/-- A granted granule of three bytes in a space. -/
def granule0 (sp : CopySpace) (o : Nat) : Granule :=
  { seq := 0, core := 0, space := sp, cells := [(o, 1), (o + 1, 2), (o + 2, 0)], whole := false, half := false, va := 0, asid := 0, epoch := 0, buf := 0, stamp := 0 }

/-- R48, R281: a run of bytes clears the error of the granule that it covers whole, and leaves one that it covers in part. -/
theorem test_span_over_bad_granules : let x := { (up.cl 0) with badSpm := [1, 2] }.writeSpan .spm 32 (.replicate 48 7)
    x.badSpm = [2] ∧ Memory.readNat x.spm 60 8 = 0x07070707 := by decide +kernel

/-- A fill of a line in translated space, at its upper granule, and fills of two rows of 64 bytes that lie 32 bytes apart:
the second row covers a line whole, of which the first row has a half granted, the lower or the upper one. -/
def fillLine : Cmd := running (cmdOf .cpy ⟨0x102, 0xDDCCBBAA, 0, 0, 1, 0x00100040, 0, 0⟩) 0 32
def fillUp : Cmd := cmdOf .cpy ⟨0x102, 0xDDCCBBAA, 0, 0x20, 1, 0x00200040, 0, 0x20⟩
def fillDown : Cmd := cmdOf .cpy ⟨0x102, 0xDDCCBBAA, 0, 0x20, 1, 0x00200040, 0, 0xFFFFFFE0⟩

/-- Half a line, outstanding at a place under an address. -/
def half0 (o : Nat) (va : Word) : Granule :=
  { granule0 .phys o with cells := (List.range 32).map fun i => (o + i, 0xAA), half := true, va := va }

/-- A command with half a line outstanding. -/
def halfDone (x : Cmd) (o : Nat) (va : Word) : State := { copying x leafT1 with granules := [half0 o va] }

theorem witness_secondHalf : ∀ e ∈ [(fillLine, 0x30000, 0x100000000), (running fillUp 1 32, 0x30040, 0x100000040),
      (running fillDown 1 0, 0x30020, (0x100000020 : Word))], let x : Cmd := e.1
    let s := halfDone x e.2.1 e.2.2
    x.copyJob.any (fun j => decide (j.pattern = some 0xDDCCBBAA) && (s.halfOf x (j.at_ x)).isSome) = true ∧
      s.cmd x.seq = some x ∧ x.phase = .running ∧ s.goesOn x = true ∧ s.outstanding 0 < 64 ∧ s.cmds = [x] := by decide +kernel

/-- R304: the half that the first row has granted waits, though the other one comes with the second row. -/
theorem test_line_of_two_rows : ∀ e ∈ [running fillUp 0 32, running fillDown 0 0],
    (evCopyGranuleGrant 0 (copying e leafT1)).any (fun t => t.granules.any (fun g => g.half && t.awaitsOther g)) = true := by
  decide +kernel

/-- R304: the two make one write of 64 bytes in ascending order. -/
theorem test_halves_join : ∀ e ∈ [(running fillUp 1 32, 0x30040, 0x100000040), (running fillDown 1 0, 0x30020, (0x100000020 : Word))],
    (evCopyGranuleGrant 0 (halfDone e.1 e.2.1 e.2.2)).any (fun t => t.granules.any (fun g => g.whole &&
      decide (g.cells.map (·.1) = (List.range 64).map (g.place + ·)) && decide (g.place % 64 = 0))) = true := by decide +kernel

/-- With it outstanding. -/
def granules (g : Granule) : State := { copying copy0 leafT1 with granules := [g] }

theorem witness_granuleWrites : (∀ g ∈ [granule0 .tcm 0, granule0 .tcm 0x2FFFD], let s := granules g
      s.granules = [] ++ g :: [] ∧ s.awaitsOther g = false ∧ g.cells = (List.range 3).map (fun i => ((g.cells.headD (0, 0)).1 + i, [1, 2, (0 : Byte)].getD i 0)) ∧
      g.space = .tcm ∧ Memory.wf (s.coreAt g.core).tcm = true) ∧
    (let g := granule0 .spm 16381
     let s := granules g
     g.space = .spm ∧ s.place g.core .spm 16381 = .ok (3 * 16384 + 16381) ∧
       (s.cl (clusterOf g.core)).badSpm.contains ((3 * 16384 + 16381) / 32) = false ∧ Memory.wf (s.cl (clusterOf g.core)).spm = true) := by
  decide +kernel

/-- A half that waits is passed by. -/
theorem witness_halfPassed : let s := { halfDone fillLine 0x30000 0x100000000 with
      granules := [half0 0x30000 0x100000000] ++ granule0 .tcm 0 :: [] }
    (∀ h ∈ [half0 0x30000 0x100000000], h.seq = (granule0 .tcm 0).seq → s.awaitsOther h = true) ∧
      s.awaitsOther (granule0 .tcm 0) = false := by decide +kernel

theorem witness_granuleLeaves : (wayQueue 0 0x800000000000 = some (.hostPort 0) ∧ wayQueue 0 0x2000000000 = some (.gateway 0 1)) ∧
    let g := granule0 .phys 0x30000
    let s := granules g
    g.space = .phys ∧ wayQueue g.core 0x30000 = none ∧ s.stackQueue 0x30000 = none ∧ s.lineHeld 0x30000 = false ∧
      Memory.wf s.mem = true ∧ s.lineFault 0x30000 (s.sealFor g.buf) = none ∧ g.whole = false := by decide +kernel

theorem witness_pref : (let s := copying pref0 leafT1
      s.cmd s.cmdRef = some pref0 ∧ pref0.phase = .queued ∧ s.mayStart pref0 = true ∧ s.acquired pref0 = true) ∧
    (∀ p ∈ [(0, leafT1), (0, leafT2), (0, 0), (1, leafT1)], let x := running pref0 p.1 0
      let s := copying x p.2
      s.cmd s.cmdRef = some x ∧ x.phase = .running ∧ (∀ m ∈ s.migrations, m.seq ≠ x.seq) ∧ s.goesOn x = true ∧
      s.migrating 0 0x10000 = false ∧
      (match (leafKind s 0 0x800 0x10000).2 with | .wait => false | _ => true) = true) ∧
    (match (leafKind (copying pref0 leafT1) 0 0x800 0x10000).2 with | .skip => true | _ => false) = true ∧
    (match (leafKind (copying pref0 leafT2) 0 0x800 0x10000).2 with | .migrate _ => true | _ => false) = true ∧
    (match (leafKind (copying pref0 0) 0 0x800 0x10000).2 with | .absent => true | _ => false) = true := by decide +kernel

theorem witness_tierq : (let s := copying tierq0 leafT2
      s.cmd s.cmdRef = some tierq0 ∧ s.mayStart tierq0 = true ∧ s.acquired tierq0 = true) ∧
    (match lookup (copying tierq0 leafT2) 0 0 0x800 0x100000000 with | (u, .ok _) => decide (u.cmd 0 = some tierq0) | _ => false) = true := by
  decide +kernel

/-- A migration of the first page from T2 to frame 7, for cpy.pref 0. -/
def migr0 (p : MigrPhase) : Migration :=
  { die := 0, seq := 0, asid := 0, vpage := 0x10000, phase := p, oldPage := 0x2000003, newPage := 7, oldSpace := 1, buf := 0 }

/-- With it first at die 0. -/
def migrating (p : MigrPhase) : State := { copying (running pref0 1 0) leafT2 with migrations := [migr0 p] }

theorem witness_tierMigration : (let s := migrating .queued
      s.migrations = [migr0 .queued] ∧ (migr0 .queued).die = 0 ∧ s.cmd 0 = some (running pref0 1 0) ∧ (s.dies[(0 : DieId)]).doneFull = false ∧
      s.shoots = [] ∧ (s.dies[(0 : DieId)]).tmfhead = (s.dies[(0 : DieId)]).tmftail ∧
      s.homeBusy 0 8 = false) ∧
    (∀ a ∈ [0x200000030000, 0x70000], (migrating .copying).stackQueue a = none) ∧ (migrating .copying).homeBusy 0 16 = false ∧
    (migr0 .copying).phase = .copying ∧ (migrating .copying).pageBusy (migr0 .copying).oldPage = false ∧ Memory.wf (migrating .copying).mem = true := by decide +kernel
/-! ### Collective commands -/

/-- An entry of group 0x12 in turn 3, of the clusters of a mask. -/
def entry (mem : BitVec 128) : CollEntry :=
  { team := 0, asid := 0, gnum := 0x12, mem := mem, fab := 0, turn := 3, pos := 0, discards := 5, records := [], aborted := false }

/-- A collective command word of group id 0x123, and a declaration of cluster 0 in it, of cluster 1 alone, of no member. -/
def colOf (w0 : BitVec 32) (m : BitVec 32) : Cmd := cmdOf .col ⟨w0, 0x123, m, 0, 0, 0, 0, 0⟩
def decls : List Cmd := [colOf 0x201 3, colOf 0x202 1, colOf 0x201 2, colOf 0x201 0]

/-- Core 0 with a collective command, and the cluster's group table. -/
def collective (x : Cmd) (es : List CollEntry) : State :=
  let s := starting x
  s.setCl 0 { s.cl 0 with coll := es }

theorem witness_declarations : (∀ x ∈ decls, ∀ es ∈ [[], [entry 1]], let s := collective x es
      clusterOf x.core = 0 ∧ (s.coreAt x.core).slot = some 0 ∧ s.cmd s.cmdRef = some x ∧ s.mayStart x = true ∧
      s.collEntry 0 0 0x12 = es.head?) ∧
    (let s := collective (colOf 0x201 3) (List.replicate 63 { entry 1 with gnum := 1 })
     s.namesSelf 0 3 0 = true ∧ (s.cl 0).coll.length < 64 ∧ s.turnAborted 0 0x12 3 (s.logicalId 0).toNat = false ∧ s.collEntry 0 0 0x12 = none) ∧
    (collective (colOf 0x201 2) []).namesSelf 0 2 0 = false ∧ (entry 1).team = 0 := by decide +kernel

/-- The six data commands, of 96 bytes from the scratchpad's start to offset 0x100, and root 0. -/
def dataWords : List Cmd := ([0x203, 0x204, 0x205, 0x206, 0x207, 0x208] : List (BitVec 32)).map fun w =>
  cmdOf .col ⟨w, 0x123, 0, if w = 0x207 then 0 else 0x100, if w = 0x207 ∨ w = 0x208 then 0 else 96, 0, 0, 0⟩

theorem witness_dataCommands : ∀ x ∈ dataWords, ∀ es ∈ [[], [entry 1], [entry 3]], let s := collective x es
    s.cmd s.cmdRef = some x ∧ s.mayStart x = true ∧ (match decodeCommand .col x.word with | .ok _ => true | .error _ => false) = true ∧
    x.collJob.any (fun j => decide (j.gid = 0x123) && es.all fun e => decide (j.root < (s.entryMembers e).length)) = true ∧
    (s.cl 0).groupEntry 0 0x12 = es.head? ∧ x.word.w2 = 0 ∧ (es.all fun e => decide (s.otherPorts e 0 = if e.mem = 1 then [] else [1])) = true := by
  decide +kernel

/-- The barrier at position 0 of its turn, and what its match packet carries among one member. -/
def barrier0 (matched : Bool) : Cmd := { colOf 0x207 0 with phase := .running, turn := 3, matched := matched }
def params0 : CollParams := { opc := 7, bytes := 0, op := 0, fmt := 0, root := 0, n := 1 }

theorem witness_matching : (∀ q ∈ [params0, { params0 with opc := 8 }], let e := { entry 1 with pos := 1, records := [⟨0, 0, q⟩] }
      let x := barrier0 false
      let s := collective x [e]
      s.cmd x.seq = some x ∧ x.phase = .running ∧ x.sent = false ∧ (s.cl 0).groupEntry 0 0x12 = some e ∧ e.turn = x.turn ∧
      x.matched = false ∧ s.hasAll 0 e x.pos = true ∧ (s.mismatched 0 e x.pos params0 = false ↔ q = params0) ∧ (s.cmds.map (·.seq)).Nodup ∧
      s.openBefore 0 e x.pos = false ∧ (q = params0 → s.collCmd 0 e x.pos = some x ∧ s.allMatched 0 e x.pos = true ∧
        (s.entryMembers e).any fun m => s.peerEntry e m == some (0, e)) ∧ (s.entryMembers e).length = 1 ∧
      x.collJob.any (fun j => decide (j.params 1 = params0)) = true) ∧
    (let x := barrier0 true
     let s := collective x [entry 1]
     x.matched = true ∧ x.collJob.any (fun j => decide (j.opc = 7)) = true ∧ s.acquired x = true ∧
       s.sendsFirst x = false ∧ x.mixed = false) := by decide +kernel

/-- A match packet of cluster 1 to cluster 0, of a turn, and on along a chain. -/
def packet0 (turn : BitVec 4) (chain : List (BitVec 7)) : Packet :=
  { src := 1, hop := 1, dst := 0, chain := chain, asid := 0, gnum := 0x12, turn := turn, pos := 0, rank := 1,
    body := .matching params0 }

theorem witness_packets : ∀ p ∈ [packet0 3 [], packet0 3 [2, 3], packet0 4 [], packet0 10 [], packet0 11 [], packet0 2 []],
    ∀ es ∈ [[], [entry 3]], let s := { collective (barrier0 false) es with packets := [p] }
    s.packets = p :: [] ∧ s.holderOf p.dst.toNat = some 0 ∧ s.collEntry 0 p.asid p.gnum = es.head? ∧
    (es.all fun e => decide (s.rankIn e p.src = some 1)) = true ∧ (s.cl 0).held.length < 16 ∧ s.chainSlots p.dst < 32 ∧
    (p.turn - 3 = 0 ↔ p.turn = 3) ∧ (8 ≤ (p.turn - 3 : BitVec 4).toNat ↔ p.turn ∈ [(11 : BitVec 4), 2]) := by decide +kernel

/-- A data command of two members whose tiles arrive, its team mapping the scratchpad's first page: a tile of four bytes
of rank 1, one of rank 0 received. -/
def tiled (x : Cmd) (got : List (Nat × Nat × List Byte)) : Cmd :=
  { x with phase := .running, turn := 3, matched := true, got := got }
def tile1 : Packet := { packet0 3 [] with body := .tile 0 [1, 2, 3, 4] }
def tiles (x : Cmd) : State :=
  { (collective x [entry 3]).setTeam 0 0 (some vteam) with packets := [tile1] }

/-- Whether bytes may land at offset 0x100 and up. -/
def lands (s : State) (y : Cmd) (j : CollJob) (w : Nat × List Byte) : Bool :=
  decide (w.2.length = 4) && (List.range 4).all fun i =>
    decide (s.place 0 .spm (0x100 + w.1 + i) = .ok (3 * 16384 + 0x100 + w.1 + i)) && decide (collOff j.dst = 0x100) &&
    decide (collSpace j.dst = .spm) && !((s.cl (clusterOf y.core)).bad .spm).contains ((3 * 16384 + 0x100 + w.1 + i) / 32) &&
    (List.range 5).all fun m => !j.undefinedAt 2 0 (0x100 + w.1 + i) m

theorem witness_tiles : ∀ x ∈ dataWords, x.word.w0 ≠ 0x207 → ∀ got ∈ [[(0, 0, [1, 0, 0, 0])], []], let y := tiled x got
    let s := tiles y
    s.packets = [tile1] ∧ s.holderOf tile1.dst.toNat = some 0 ∧ s.collEntry 0 tile1.asid tile1.gnum = some (entry 3) ∧
    tile1.turn = (entry 3).turn ∧ s.chainSlots tile1.dst < 32 ∧ s.collCmd 0 (entry 3) tile1.pos = some y ∧
    s.cmd y.seq = some y ∧ s.rankIn (entry 3) tile1.src = some 1 ∧ s.rankIn (entry 3) (s.logicalId 0) = some 0 ∧
    (s.entryMembers (entry 3)).length = 2 ∧ Memory.wf ((s.cl (clusterOf y.core)).space .spm) = true ∧
    (y.got.all fun b => b.2.2.length % 4 == 0) = true ∧
    y.collJob.any (fun j => decide (j.opc ≠ 7) && match tileGives y j 2 1 0 [1, 2, 3, 4] with
      | some w => lands s y j w
      | none => got.isEmpty && decide (j.opc = 4 ∨ j.opc = 8)) = true := by decide +kernel

theorem witness_own_tile : ∀ x ∈ dataWords, x.word.w0 ≠ 0x207 → let y := tiled x []
    let s := tiles y
    s.acquired y = true ∧ s.sendsFirst y = false ∧ y.mixed = false ∧ y.collJob.any (fun j =>
      match readSrc s y j 0 (j.srcBytes 2 0) with
      | .ok u src => decide (u.cmd y.seq = some y) && decide (j.opc = 6 → 0 = j.root) &&
        decide ((j.tilesFor 0 src).map (·.1) = [0])
      | _ => false) = true := by decide +kernel

/-! ### Launch -/

/-- A launch packet of one team of `cores` cores: its image at the first translated address, of 4 bytes. -/
def packet (cores prio compl : Nat) : Nat :=
  2 ^ 32 + 4 * 2 ^ 64 + ((cores - 1) * 2 ^ 48 + prio * 2 ^ 51) * 2 ^ 192 + compl * 2 ^ 384

/-- A good and a bad packet at a TCM offset, g1 its address, g2 the queue. -/
def submits (o : Nat) (good : Bool) (q : Word) : State :=
  at0 { withG [(1, .ofNat 64 (0x80000 + o)), (2, q)] core0 with tcm := Memory.writeNat [] o 64 (if good then packet 1 0 0 else 1) }

theorem witness_GridSubmitsAChild : ∀ o ∈ [0, 0x2FFC0], ∀ good ∈ [true, false], ∀ q ∈ [0, 31, 32], let s := submits o good (.ofNat 64 q)
    let w := (s.g 1).toNat
    w % 64 = 0 ∧ 0x80000 ≤ w ∧ w + 64 ≤ 0xB0000 ∧ s.packageFenced s.cur = true ∧ (s.g 2).toNat = q ∧
    s.packetStatus 32 (childPacket (Memory.readBytes s.core.tcm (w - 0x80000) 64) s.core.csr.gridid) false 3 = (if good then 0 else 2) := by
  decide +kernel

/-- Cluster 0 alone is active, and every die has one save slot. -/
def alone (s : State) : State :=
  { s with clusters := (Vector.replicate 136 { Cluster.reset 0 with status := .lost, logical := none }).set 0 (s.cl 0),
           dies := s.dies.map fun d => { d with lscount := 2 } }

/-- A grid of that packet. -/
def grid0 (cores prio compl : Nat) : Grid :=
  { id := 7, pkt := packetOf (leBytes 64 (packet cores prio compl)), asid := 0, queue := 0, acceptedAt := 0, placed := 0, ended := 0, bad := 0,
    status := 0, aux := 0, abandoned := false }

/-- It heads queue 0, behind no other. -/
def launching (s : State) (g : Grid) : State := { alone s with grids := [g], queues := s.queues.set 0 [7] }

theorem witness_placement : ∀ n ∈ [1, 8], let g := grid0 n 0 0
    let s := launching up g
    s.nextResume.isNone = true ∧ s.grids = [g] ∧ s.served g = true ∧ s.bestCluster g = some 0 ∧ g.pkt.teams = g.placed + 1 ∧
    s.freeBank 0 (((s.usableCores 0 g.id).take g.pkt.cores).headD 0) = some 0 ∧ (s.placeOn g 0).isSome = true := by decide +kernel

theorem witness_preemption : let g := grid0 8 1 0
    let s := launching (at0 core0) g
    s.nextResume.isNone = true ∧ s.grids = [g] ∧ s.served g = true ∧ s.bestCluster g = none ∧ g.placed < g.pkt.teams ∧ s.reservations = [] ∧
    s.allEnded 0 0 team0 = false ∧ ((s.markVictims g (s.victims g.pkt.prio) []).any fun
      | [v] => decide (s.team v.cluster v.slot = some v.team) && decide (v.cluster = 0)
      | _ => false) = true := by decide +kernel

/-- A team that starts, with its tenant's table. -/
def startTeam0 : Team := { team0 with grid := 7, ptbase := 0x800, status := .starting }

/-- With its image mapped. -/
def starts : State :=
  let s := copying (colOf 0x207 0) leafT1
  { (s.setTeam 0 0 (some startTeam0)) with cmds := [], grids := [grid0 1 0 0],
                                                                              tenants := [(0, ⟨0x800, 0, none⟩)] }

theorem witness_threadStart : starts.unitsReady 0 0 startTeam0 = true ∧ (starts.cl 0).status ≠ .lost ∧
    starts.grid 7 = some (grid0 1 0 0) ∧ team0.cores.Nodup ∧
    (match readImage starts 0 0 startTeam0.ptbase 2 0 0 with
      | .ok s1 _ => match readImage s1 0 0 startTeam0.ptbase 2 (grid0 1 0 0).pkt.image.toNat 4 with
        | .ok s2 l => decide (s2.team 0 0 = some startTeam0) && decide (l = [0, 0, 0, 0])
        | _ => false
      | _ => false) = true := by decide +kernel

/-- A victim of two cores, of which core 0 has handed over, or of core 0 alone. -/
def victim (cores : List Slot) : Team := { team0 with cores := cores, status := .preempting }
def hands (cores : List Slot) : State := (at0 { core0 with run := .handed } (victim cores)).setCoreAt 1 core0

theorem witness_coreFreed : ∀ cores ∈ [[(0 : Slot), 1], [0]], let s := hands cores
    clusterOf 0 = 0 ∧ (s.coreAt 0).slot = some 0 ∧ s.team 0 0 = some (victim cores) ∧ s.victimReady 0 0 (victim cores) 0 = true ∧
    ((1 : CoreId) ∈ (s.coresOf 0 0 (victim cores)).map (·.2) ↔ cores = [0, 1]) := by decide +kernel

/-- A team whose thread has ended, and one that ends fatally. -/
def overTeam (f : Option (BitVec 8 × Word)) : Team := { team0 with grid := 7, fatal := f, status := if f.isSome then .fatal else .running }
def ends (f : Option (BitVec 8 × Word)) : State := { at0 { core0 with run := .ended } (overTeam f) with grids := [{ grid0 1 0 0 with placed := 1 }] }

theorem witness_teamEnd : ∀ bad ∈ [false, true], let f := if bad then some ((0x64 : BitVec 8), (9 : Word)) else none
    let s := ends f
    s.team 0 0 = some (overTeam f) ∧ s.teamOver 0 0 (overTeam f) = true ∧ s.grid (overTeam f).grid = some { grid0 1 0 0 with placed := 1 } := by
  decide +kernel

/-- A grid that is over, its record at the first translated page. -/
def done (compl : Nat) : Grid := { grid0 1 0 compl with placed := 1, ended := 1 }
def completes (compl : Nat) : State := { starts with grids := [done compl] }

theorem witness_gridComplete : (∀ c ∈ [0, 2 ^ 32], let s := completes c
      s.grid (done c).id = some (done c) ∧ s.gridOver (done c) = true ∧ s.transit = [] ∧ (done c).abandoned = false) ∧
    (done 0).pkt.compl = 0 ∧ (done (2 ^ 32)).pkt.compl ≠ 0 ∧
    ∀ o ∈ [0, 8], (match (recordPlace (completes (2 ^ 32)) 0 ((done (2 ^ 32)).pkt.compl.toNat + o)).2 with | .ok _ => true | _ => false) = true := by
  decide +kernel

/-! ### Host, security, resilience -/

/-- Host port 0 holds semaphores 1 to 4. -/
def semHolder : State :=
  { up with hsem := ([1, 2, 3, 4] : List (Fin 64)).foldl (fun v n => v.set n.val (some (.port 0)) n.isLt) up.hsem }

/-- Service core 5 holds semaphore 1. -/
def svcHolder : State := { up with hsem := up.hsem.set 1 (some (.service 5)) }

/-- BUFCTL names buffer 9, at work. -/
def assigning : State := { up with bufctl := { up.bufctl with buf := 9, asid := 3, busy := true } }

theorem witness_ConfigurationWritesAct : (∀ n ∈ ([1, 2, 3, 4] : List (Fin 64)), MayWrite semHolder (.port 0) n) ∧
    MayWrite svcHolder (.service 5) 1 ∧ (up.hsem[(1 : Fin 64)] ≠ some (.service 5) ∧ assigning.bufctl.busy = true) ∧
    (semHolder.bufctl.busy = false ∧ semHolder.bufctl.dead = [] ∧ (semHolder.buffer 9).version ≠ 0xFFFFFFFF) ∧
    (∀ x ∈ semHolder.clusters.toList, ∀ e ∈ x.coll, e.fab = 0) ∧
    (up.power = .running ∧ (∀ p : Fin 2, up.hostLinks[p] = true) ∧ up.hsem[(2 : Fin 64)] ≠ some (.port 0) ∧
      up.hsem[(1 : Fin 64)] ≠ some (.port 0)) :=
  ⟨fun n hn => ⟨rfl, fun p _ => by revert p; decide +kernel, by revert n; decide +kernel⟩,
    ⟨rfl, (fun p h => by revert h; revert p; decide +kernel), by decide +kernel⟩, by decide +kernel, by decide +kernel, by decide +kernel, by decide +kernel⟩

theorem witness_bufferAssignDone : assigning.bufctl.busy = true ∧ assigning.bufferBusy assigning.bufctl.buf assigning.bufctl.since = false := by
  refine ⟨rfl, ?_⟩
  have h : ∀ p : Core → Bool, p core0 = false → p Core.reset = false → (at0 core0).cores.any p = false := fun p => any_at0 p core0 team0
  have r : ∀ p : Core → Bool, p Core.reset = false → assigning.cores.any p = false := fun p hp => by
    rw [Bool.eq_false_iff, Ne, Vector.any_eq_true]
    rintro ⟨i, hi, hq⟩
    have e : assigning.cores = Vector.replicate 1088 Core.reset := rfl
    simp only [e, Vector.getElem_replicate] at hq
    simp_all
  unfold State.bufferBusy
  extract_lets old
  rw [r _ (by decide +kernel)]
  decide +kernel

/-- Host queue 31 rung for a packet at the start of host memory. -/
def ringing (good : Bool) : State :=
  { up with hostq := up.hostq.set 31 { (up.hostq[31]) with busy := true, door := 0 },
            mem := Memory.writeNat [] (2 ^ 47) 64 (if good then packet 1 0 0 else 1) }

/-- Both queues of a service core rung, the second before the first. -/
def bothRung : State :=
  { up with hostq := (up.hostq.set 30 { (up.hostq[30]) with busy := true, rung := 9 }).set 31 { (up.hostq[31]) with busy := true, rung := 4 } }

theorem witness_hostQueue_order : (bothRung.hostq[(31 : Fin 32)]).busy = true ∧ (bothRung.hostq[(30 : Fin 32)]).busy = true ∧
    (bothRung.hostq[(31 : Fin 32)]).rung ≤ (bothRung.hostq[(30 : Fin 32)]).rung ∧ (30 : Fin 32).val / 2 = (31 : BitVec 5).toNat / 2 := by
  decide +kernel

theorem witness_hostQueues : (up.power = .running ∧ up.hostLinks[(0 : Fin 2)] = true) ∧
    ∀ good ∈ [true, false], let s := ringing good
      let h := s.hostq[(⟨(31 : BitVec 5).toNat, by decide⟩ : Fin 32)]
      let pa := 2 ^ 47 + h.door.toNat % 2 ^ 47
      h.busy = true ∧ (s.hostq[(30 : Fin 32)]).busy = false ∧ s.lineBad pa = false ∧
        s.packetStatus ⟨(31 : BitVec 5).toNat, by decide⟩ (Memory.readBytes s.mem pa 64) true 3 = (if good then 0 else 2) := by decide +kernel

theorem witness_semaphores : semHolder.answers (.port 0) 0x100000 = true ∧
    (∀ n ∈ [0, 63], up.hsem[(⟨n % 64, Nat.mod_lt _ (by decide)⟩ : Fin 64)] = none) ∧
    semHolder.hsem[(4 : Fin 64)] = some (.port 0) := by decide +kernel

/-- Window 0 of port 0 open on the first translated page, its leaf in T1. -/
def windowed : State :=
  { copying (colOf 0x207 0) leafT1 with cmds := [], tenants := [(0, ⟨0x800, 0, none⟩)], hdm := up.hdm.set 0 ⟨true, 0, 0x10000⟩ }

theorem witness_hostWindows : up.window 0 0 = none ∧
    (∀ o ∈ [0, 63], (windowed.window 0 (.ofNat 40 o)).any (fun e => decide (e.2 = 2 ^ 32 + o ∧ 1 + e.2 % 64 ≤ 64 ∧ e.1.asid = 0)) = true ∧
      (∀ a ∈ [Access.read, .write], (match windowPlace windowed 0 (2 ^ 32 + o) a with
        | (z, .ok p) => decide (z.lineFault p.1 (z.sealFor p.2) = none)
        | _ => false) = true)) ∧ Memory.wf windowed.mem = true := by decide +kernel

/-- With a live team of ASID 0. -/
def keyed : State := semHolder.setTeam 0 0 (some team0)

theorem witness_SecurityAndFreezeAct : (keyed.answers (.port 0) 0x400000 = true ∧ keyed.hsem[(2 : Fin 64)] = some (.port 0) ∧ keyed.mailbox.busy = none) ∧
    ({ keyed.mailbox with busy := some 2 } : Mailbox).busy = some 2 ∧ Memory.wf keyed.mailbox.buffer = true ∧
    (keyed.liveTeams keyed.keyAsid = true ∧ semHolder.liveTeams semHolder.keyAsid = false) ∧
    (up.answers (.port 0) 0x400000 = true ∧ up.hsem[(2 : Fin 64)] ≠ some (.port 0) ∧ (up.dies[(0 : DieId)]).cfgrej ≠ 0xFFFFFFFF) ∧
    (∀ f ∈ [0, 15, 16], let s := { up with freezeAsked := some f }
      s.freezeAsked = some f ∧ s.frozen = false) ∧
    (let s := { up with frozen := true, tap := { up.tap with fmaddr := .ofNat 64 (2 ^ 56 + 1087 * 256 + 31) } }
     s.frozen = true ∧ s.tap.fmaddr = .ofNat 64 (2 ^ 56 + (1087 : CoreId).val * 256 + (31 : BitVec 5).toNat)) :=
  ⟨by decide +kernel, rfl, by decide +kernel, by decide +kernel, by decide +kernel, by decide +kernel, by decide +kernel⟩

/-- Cluster 32, a spare, is tested for cluster 0, which is lost. -/
def testing : State :=
  let s := { up with now := Config.spareTestCycles }
  (s.setCl 0 { s.cl 0 with status := .lost, logical := none }).setCl 32 { s.cl 32 with status := .testing }

/-- Cluster 0 with bank group 7 in a state of rebuilding. -/
def banks (r : List Slot) : State := up.setCl 0 { up.cl 0 with groups := (up.cl 0).groups.set 7 { Group.reset with rebuilding := r } }

/-- Stack 0 in a state. -/
def stack0 (f : Stack → Stack) : State := { up with now := Config.stallReportCycles, hbm := up.hbm.set 0 (f (up.hbm[(0 : StackId)])) }

theorem witness_ResilienceEventsAct :
    ((at0 core0).cl 0).status = .active ∧ (at0 core0).team 0 0 = some team0 ∧ ((at0 core0).coreAt (coreOf 0 0)).slot.isSome = true ∧
    ((testing.cl 32).status = .testing ∧ (testing.cl 32).testSince + Config.spareTestCycles ≤ testing.now ∧
      testing.lostIds (dieOfCluster 32) = [0]) ∧
    (((banks []).cl 0).status = .active ∧ (((banks []).cl 0).group 7).spare = none ∧ (((banks []).cl 0).group 7).rebuilding = []) ∧
    (((banks [3]).cl 0).status = .active ∧ (((banks [3]).cl 0).group 7).rebuilding = 3 :: [] ∧ (banks [3]).spctl = true ∧
      (4 : Slot) ∉ (((banks [3]).cl 0).group 7).rebuilding) := by
  decide +kernel

theorem witness_stacks : (let y := (stack0 id).hbm[(0 : StackId)]
      y.failing = [] ∧ y.withdrawn = [] ∧ y.failing.length < y.spares ∧ y.asleepSince = none) ∧
    (let y := (stack0 fun y => { y with spares := 0 }).hbm[(0 : StackId)]
     y.failing = [] ∧ y.spares ≤ y.failing.length ∧ y.narrowed = [] ∧ y.withdrawn = []) ∧
    (let y := (stack0 fun y => { y with spares := 0, narrowed := [25] }).hbm[(0 : StackId)]
     y.spares ≤ y.failing.length ∧ 25 ∈ y.narrowed ∧ y.withdrawn = [] ∧ homeOf 0x30400 = .t1 0 ∧ homeOf 0x3FFFF = .t1 0 ∧
       0x3FFFF / 2 ^ 16 % 4 = (25 : BitVec 5).toNat / 8) ∧
    (let s := stack0 fun y => { y with failing := [31, 0] }
     (s.hbm[(0 : StackId)]).failing = 31 :: [0] ∧ s.spctl = true) ∧
    (∀ r ∈ [true, false], let s := stack0 fun y => { y with asleepSince := some 0, reported := r }
      let y := s.hbm[(0 : StackId)]
      y.asleepSince = some 0 ∧ y.reported = r ∧ 0 + Config.stallReportCycles ≤ s.now ∧ (s.svc[serviceOfStack 0]).length < 63) ∧
    (let s := { stack0 fun y => { y with asleepSince := some 1 } with now := Config.stallReportCycles }
     s.now < 1 + Config.stallReportCycles) := by
  decide +kernel

/-! ### Encoding, the step, freeze, and memories -/

theorem witness_WordsDecodeBack : ∀ i ∈ [Instr.sub 4 9 2, .eret, .barMax 3 1 2, .vfence], i.wf = true ∧
    (encodeNat i).any (fun w => decide (w < 2 ^ 32)) = true := by decide +kernel

theorem witness_WordsHaveOneMeaning : (match decode 0x04891001 with | .ok i => decide (i = .sub 4 9 2) | .error _ => false) = true := by
  decide +kernel

theorem witness_CommandsDecodeBack : (∀ i ∈ [Instr.colBarrier hd0 0x123, .arrClrboard hd0 3], i.wf = true ∧
      (encodeCommand i).isSome = true) ∧ encodeTap .idcode = some 0x01 := by decide +kernel

/-- Core 0 at the last word of TCM, where `add g0, g0, g0` stands, and word `l` of an agenda. -/
def stepping (l : List Input) : State :=
  { at0 { core0 with pc := 0xAFFFC, itcm := Memory.writeNat [] 0x2FFFC 4 0x04000000 } with agenda := l, tick := 5 }

theorem witness_step_of_a_core : ∀ l ∈ [[Input.run 0, .run 1], []], let s := stepping l
    let k := s.coreAt 0
    let o := k.pc.toNat - 0x80000
    s.frozen = false ∧ s.freezeDue = false ∧ s.cur = 0 ∧ s.teamStopped 0 = false ∧ k.run = .running ∧ k.parked = false ∧ k.wait = .ready ∧
    k.parkDue = none ∧ k.preempt = none ∧ k.lost = none ∧ k.vq = [] ∧ k.atHandler = false ∧ 0x80000 ≤ k.pc.toNat ∧
    k.pc.toNat < 0xB0000 ∧ k.pc.toNat % 4 = 0 ∧
    (match decode (Memory.read k.itcm (o + 3) ++ Memory.read k.itcm (o + 2) ++ Memory.read k.itcm (o + 1) ++ Memory.read k.itcm o) with
      | .ok i => decide (i = .add 0 0 0)
      | .error _ => false) = true := by decide +kernel

theorem witness_step_of_others : (let x := colOf 0x207 0
     let s := { starting x with agenda := [.start 0] }
     s.frozen = false ∧ s.freezeDue = false ∧ s.cmd x.seq = some x ∧ x.seq = 0 ∧
       (match decodeCommand x.engine x.word with | .ok _ => true | .error _ => false) = true) ∧
    isEvent .frzPin = true ∧ (stepping [.event .frzPin]).freezeDue = false ∧ (stepping [.tap 1 0]).freezeDue = false := by
  decide +kernel

theorem witness_FrozenMachineStays : ({ up with frozen := true } : State).frozen = true := rfl

theorem witness_StepKeepsMemoriesCanonical : State.reset.MemoriesWf ∧ ∃ t, step State.reset = .next t := by
  have spm (k : ClusterId) : (State.reset.clusters[k]).spm = [] ∧ (State.reset.clusters[k]).acc = [] := by
    have e : State.reset.clusters[k] = Cluster.reset k.val := by
      show State.reset.clusters[k.val] = _
      simp [State.reset]
    rw [e]; exact ⟨rfl, rfl⟩
  have core (c : CoreId) : State.reset.coreAt c = .reset := by
    show State.reset.cores[c.val] = _
    simp [State.reset]
  refine ⟨⟨rfl, rfl, fun c => ?_, fun c => ?_, fun k => ?_, fun k => ?_⟩, went (by decide +kernel)⟩
  · rw [core]; rfl
  · rw [core]; rfl
  · rw [(spm k).1]; rfl
  · rw [(spm k).2]; rfl

/-! ## Single steps, with results from the spec's worked examples or computed by hand from its rules -/

/-- An instruction on core 0 with values in g1, g2 and f1 to f3, at the first word of TCM. -/
def leaves (i : Instr) (g1 g2 f1 f2 f3 : Word) (p : State → Bool) : Bool :=
  goesTo (exec i (at0 (withG [(1, g1), (2, g2)] (withF [(1, f1), (2, f2), (3, f3)] core0)))) p

/-- g[d] and the pc after an instruction of g1 and g2. -/
def giving (i : Instr) (g1 g2 : Word) (d : BitVec 5) (v : Word) : Bool :=
  leaves i g1 g2 0 0 0 fun t => t.g d == v && t.pc == 0x80004

/-- f[d] and FFLAGS after an instruction of f1 to f3. -/
def fgiving (i : Instr) (f1 f2 f3 : Word) (d : BitVec 5) (v : Word) (fl : BitVec 5) : Bool :=
  leaves i 0 0 f1 f2 f3 fun t => t.f d == v && t.core.csr.fflags == fl

theorem test_add_wraps_into_its_source : giving (.add 1 1 2) (-1) 3 1 2 = true := by decide +kernel
theorem test_g0_discards : giving (.addi 0 1 5) 7 0 0 0 = true := by decide +kernel
theorem test_sltiu_all_ones : (giving (.sltiu 3 1 0xFFFF) (-2) 0 3 1 && giving (.sltiu 3 1 0xFFFF) (-1) 0 3 0) = true := by decide +kernel
theorem test_rori : giving (.rori 3 1 4) 0x123 0 3 0x3000000000000012 = true := by decide +kernel
theorem test_sra_amount_mod_64 : giving (.sra 3 1 2) 0x8000000000000000 65 3 0xC000000000000000 = true := by decide +kernel
theorem test_lui : giving (.lui 3 0x8000) 0 0 3 0xFFFFFFFF80000000 = true := by decide +kernel
theorem test_addpc : giving (.addpc 3 1) 0 0 3 0x90000 = true := by decide +kernel
theorem test_mulh : (giving (.mulh 3 1 2) (-1) 3 3 (-1) && giving (.mulhu 3 1 2) (-1) 3 3 2) = true := by decide +kernel
theorem test_div_rounds_to_zero : (giving (.div 3 1 2) (-7) 2 3 (-3) && giving (.rem 3 1 2) (-7) 2 3 (-1)) = true := by decide +kernel
theorem test_divu : (giving (.divu 3 1 2) (-7) 2 3 0x7FFFFFFFFFFFFFFC && giving (.remu 3 1 2) (-7) 2 3 1) = true := by decide +kernel
theorem test_div_by_zero : (giving (.div 3 1 2) 5 0 3 0x7FFFFFFFFFFFFFFF && giving (.div 3 1 2) (-5) 0 3 0x8000000000000000 &&
    giving (.rem 3 1 2) (-5) 0 3 (-5) && giving (.div 3 1 2) 0 0 3 0) = true := by decide +kernel
theorem test_div_overflow : (giving (.div 3 1 2) 0x8000000000000000 (-1) 3 0x7FFFFFFFFFFFFFFF &&
    giving (.rem 3 1 2) 0x8000000000000000 (-1) 3 0) = true := by decide +kernel
theorem test_branch_back : leaves (.bltu 1 2 0xFFFF) 1 2 0 0 0 (fun t => t.pc == 0x7FFFC) = true := by decide +kernel
theorem test_jalr_reads_before_it_links : leaves (.jalr 1 1 8) 0x80100 0 0 0 0 (fun t => t.pc == 0x80108 && t.g 1 == 0x80004) = true := by
  decide +kernel
theorem test_load_sign : (match exec (.ldb 3 1 0) (at0 (withG [(1, 0x80001)] { core0 with tcm := Memory.writeNat [] 0 2 0x80FF })) with
    | .next t => t.g 3 == 0xFFFFFFFFFFFFFF80
    | _ => false) = true := by decide +kernel

theorem test_fadd_source_is_destination : fgiving (.fadd 1 1 2 true) 0x3FF0000000000000 0x3FF0000000000000 0 1 0x4000000000000000 0 = true := by
  decide +kernel
theorem test_single_clears_the_upper_half : fgiving (.fmul 3 1 2 false) 0xDEAD00003FC00000 0x40000000 (-1) 3 0x40400000 0 = true := by
  decide +kernel
theorem test_zero_times_infinity : fgiving (.fmadd 4 1 2 3 true) 0 0x7FF0000000000000 0x7FF8000000000000 4 0x7FF8000000000000 0x10 = true := by
  decide +kernel
theorem test_fmin_of_zeros : fgiving (.fmin 4 1 2 true) 0 0x8000000000000000 0 4 0x8000000000000000 0 = true := by decide +kernel
theorem test_fclass : leaves (.fclass 3 1 true) 0 0 0xFFF0000000000000 0 0 (fun t => t.g 3 == 0xB) = true := by decide +kernel
theorem test_fcvt_saturates : leaves (.fcvtWS 3 1) 0 0 0x4F32D05E 0 0 (fun t => t.g 3 == 0x7FFFFFFF && t.core.csr.fflags == 0x10) = true := by
  decide +kernel
theorem test_user_eret_traps : leaves .eret 0 0 0 0 0 (fun t => t.core.csr.trapc.cause == 0x04 && t.pc == 0x80000 && t.core.csr.trappc == 0x80000 &&
    t.core.csr.kstate.priv == .supervisor && t.core.csr.kstate.intrap) = true := by decide +kernel
theorem test_step_runs_the_word : goesTo (step (State.reset.withFetchWord 32 0x2920FFFF)) (fun t => t.g 9 == 0x70000 && t.pc == t.core.csr.trapv + 4) = true := by
  decide +kernel
theorem test_step_starts_the_command : goesTo (step (State.reset.withFetchWord 256 (0x207 + 0x123 * 2 ^ 32)))
    (fun t => (t.cmd 0).any fun y => y.fault == some (0x95, 0x123)) = true := by decide +kernel
theorem test_step_answers_the_port : goesTo (step (State.reset.withFetchWord 8 0x01)) (fun t => t.tap.dataOut == 0x153400A3) = true := by
  decide +kernel

/-- Spec/09 R200's worked example. -/
theorem test_reduction_folds_by_rank : foldTiles 0 0 ([0x3F800000, 0x4B800000, 0xCB800000, 0x3F800000].map (leBytes 4)) =
    leBytes 4 0x3F800000 := by decide +kernel
theorem test_allgather_tile : (let y := tiled (cmdOf .col ⟨0x203, 0x123, 0, 0x100, 96, 0, 0, 0⟩) []
    goesTo (exec (.collectivePacketArrival 0) (tiles y)) fun t =>
      Memory.readBytes (t.cl 0).spm (3 * 16384 + 0x100 + 96) 4 == [1, 2, 3, 4] &&
      (t.cmd 0).any fun z => z.written == 1) = true := by decide +kernel
theorem test_barrier_turn : (match exec (.barWait 1) late with | .next t => decide (t.core.pc = late.core.pc) | _ => false) = true := by
  decide +kernel
theorem test_flag_of_the_cycle_stays : (let s := (at0 super).raiseBeside 0 0x04 1
    goesTo (exec (.wrc 0 0x010) s) fun t => t.core.csr.fflags == 0x04) = true := by decide +kernel

theorem test_pseudo_words : (pseudoNop ++ pseudoMov 3 4 ++ pseudoNot 3 4 ++ pseudoJ 8 ++ pseudoNeg 3 4 ++ pseudoBarSync 1).map encodeNat =
    [0x08000000, 0x04640003, 0x04602001, 0x0863FFFF, 0x88000008, 0x04602001, 0xA8010003, 0xA8010002].map some := by decide +kernel
theorem test_hi_lo : (hiOf 0x12348765 = 0x1235 ∧ loOf 0x12348765 = 0xFFFFFFFFFFFF8765 ∧ hiOf (-0x80000000) = 0xFFFFFFFFFFFF8000) := by decide +kernel

end Sys2Proof.Tests
end

/-! # Loads from TCM and through the scratchpad window (spec/06 R133, R134, R136, spec/03 R47, R48)

With no store to its space in the buffer, a load of any size and destination comes down to the delivery of one
little-endian number (`LoadAnswers`), proved once for TCM, once for a place in the scratchpad and once for an address with
no accessible location. The forms of load differ only in the width and the extension of that number. -/

namespace Sys2Proof.Machine

/-! ## Bytes as a little-endian number (R3) -/

/-- The little-endian number of the bytes `byte 0`, …, `byte (n - 1)` (R3). -/
def bytesNat (byte : Nat → Byte) (n : Nat) : Nat := leNat ((List.range n).map byte)

theorem Memory.readBytes_eq_map (m : Mem) :
    ∀ n a, Memory.readBytes m a n = (List.range n).map fun k => Memory.read m (a + k)
  | 0, _ => rfl
  | n + 1, a => by
    rw [Memory.readBytes, Memory.readBytes_eq_map m n (a + 1), List.range_succ_eq_map, List.map_cons, List.map_map]
    simp only [Nat.add_zero, Function.comp_def, Nat.succ_eq_add_one, Nat.add_assoc, Nat.add_comm 1]

theorem Memory.readNat_eq_bytesNat (m : Mem) (a n : Nat) :
    Memory.readNat m a n = bytesNat (fun k => Memory.read m (a + k)) n :=
  congrArg leNat (Memory.readBytes_eq_map m n a)

theorem leNat_replicate_zero : ∀ n, leNat (List.replicate n 0) = 0
  | 0 => rfl
  | n + 1 => by rw [List.replicate_succ, leNat, leNat_replicate_zero n]; rfl

theorem bytesNat_of_zeros (n : Nat) : bytesNat (fun _ => 0) n = 0 := by
  rw [bytesNat, List.map_const', List.length_range, leNat_replicate_zero]

theorem toNat_append_eq_add {m n : Nat} (x : BitVec m) (y : BitVec n) :
    (x ++ y).toNat = 2 ^ n * x.toNat + y.toNat := by
  rw [BitVec.toNat_append, ← Nat.shiftLeft_add_eq_or_of_lt y.isLt, Nat.shiftLeft_eq, Nat.mul_comm]

theorem bytesNat_one (byte : Nat → Byte) : bytesNat byte 1 = (byte 0).toNat := rfl

theorem bytesNat_two (byte : Nat → Byte) : bytesNat byte 2 = (byte 1 ++ byte 0).toNat := by
  simp only [bytesNat, List.range, List.range.loop, List.map, leNat, toNat_append_eq_add]
  omega

theorem bytesNat_four (byte : Nat → Byte) :
    bytesNat byte 4 = (byte 3 ++ byte 2 ++ (byte 1 ++ byte 0)).toNat := by
  simp only [bytesNat, List.range, List.range.loop, List.map, leNat, toNat_append_eq_add]
  omega

theorem bytesNat_eight (byte : Nat → Byte) :
    bytesNat byte 8 =
      (byte 7 ++ byte 6 ++ byte 5 ++ byte 4 ++ (byte 3 ++ byte 2 ++ (byte 1 ++ byte 0))).toNat := by
  simp only [bytesNat, List.range, List.range.loop, List.map, leNat, toNat_append_eq_add]
  omega

/-- A loaded value of exactly the width of its access is extended as R133 says. -/
theorem extendLoad_toNat (signed : Bool) (z : BitVec 2) (x : BitVec (8 * sizeBytes z)) :
    extendLoad signed z x.toNat = if signed then x.signExtend 64 else x.setWidth 64 := by
  rw [extendLoad, BitVec.ofNat_toNat, BitVec.setWidth_eq]

/-! ## What a delivery writes (R133) -/

theorem State.setCoreAt_coreAt (s : State) (c : CoreId) : s.setCoreAt c (s.coreAt c) = s := by
  simp [State.setCoreAt, State.coreAt]

theorem State.raiseAt_no_flags (s : State) (c : CoreId) (o : Nat) : s.raiseAt c 0 o = s := by
  have disabled : (0 : Flags) &&& (s.coreAt c).csr.fenable = 0 := BitVec.zero_and
  have same : (s.coreAt c).csr.fflags ||| 0 = (s.coreAt c).csr.fflags := BitVec.or_zero
  simp only [State.raiseAt, disabled, same, if_true]
  exact State.setCoreAt_coreAt s c

theorem State.delivered_g (s : State) (d : BitVec 5) (signed : Bool) (z : BitVec 2) (v : Nat) :
    Host.Outcome.next (s.delivered (.g d signed) z v) = finishG s d (extendLoad signed z v) := by
  rw [finishG, State.setG_retire]; rfl

theorem State.delivered_f (s : State) (d : BitVec 5) (z : BitVec 2) (v : Nat) :
    Host.Outcome.next (s.delivered (.f d) z v) = finishF s d (extendLoad false z v) 0 := by
  rw [finishF, State.raiseAt_no_flags, State.setF_retire]; rfl

/-! ## The checks of a load (R43, R134, R136) -/

theorem resolve_tcm (s : State) (ea : Word) (n : Nat) (a : Access) (lo : 0x80000 ≤ ea.toNat) (hi : ea.toNat < 0xB0000)
    (h : ea.toNat % n = 0) : resolve s ea n a = (s, .ok (.tcm (ea.toNat - 0x80000))) := by
  have lo' : ¬ ea.toNat < Config.tcmBase := by simpa [Config.tcmBase] using lo
  have hi' : ea.toNat < Config.tcmBase + Config.tcmBytes := hi
  simp only [resolve, h, beq_self_eq_true, if_neg lo', if_pos hi', if_true]; rfl

theorem resolve_spm (s : State) (ea : Word) (n : Nat) (a : Access) (lo : 0x400000 ≤ ea.toNat)
    (hi : ea.toNat < 0x600000) (h : ea.toNat % n = 0) :
    resolve s ea n a = (s, .ok (.spm (ea.toNat - 0x400000))) := by
  have above : ¬ ea.toNat < Config.tcmBase ∧ ¬ ea.toNat < Config.tcmBase + Config.tcmBytes := by
    simp only [Config.tcmBase, Config.tcmBytes]; omega
  have within : Config.spmBase ≤ ea.toNat ∧ ea.toNat < Config.spmBase + Config.spmBytes := ⟨lo, hi⟩
  simp only [resolve, h, beq_self_eq_true, if_neg above.1, if_neg above.2, if_pos within, if_true]; rfl

theorem forward_none {es : List StoreEntry} {k : StoreKind} (h : ∀ e ∈ es, e.kind ≠ k) (a n : Nat) :
    forward es k a n = .none := by
  have none_meets : es.reverse.find? (fun e => e.meets k a n) = none := by
    rw [List.find?_eq_none]
    intro e he
    simp [StoreEntry.meets, h e (List.mem_reverse.mp he)]
  rw [forward, none_meets]

theorem Core.granulePending_single {k : Core} {sp : Space} {o : Nat}
    (h : ∀ v ∈ k.vq, ∀ w ∈ v.writes ++ v.landed, w.space = sp → w.off / 32 ≠ o / 32) :
    k.granulePending sp [o] = false := by
  simp only [Core.granulePending, List.any_eq_false]
  intro v hv hany
  obtain ⟨w, hw, hit⟩ := List.any_eq_true.mp hany
  simp only [List.any_cons, List.any_nil, Bool.or_false, Bool.and_eq_true, beq_iff_eq] at hit
  exact h v hv w hw hit.1 hit.2.symm

theorem State.granuleBad_of_out {s : State} {c : CoreId} {sp : Space} {o : Nat} {code : BitVec 2}
    (h : s.place c sp o = .out code) : s.granuleBad c sp o = false := by
  rw [State.granuleBad, h]

/-- An out-of-range scratchpad offset of the window is recorded as R48 says. -/
theorem State.outOfRange_spm (s : State) (code : BitVec 2) {o : Nat} (h : o < 2 ^ 21) :
    s.outOfRange s.cur code .spm o = spflagNoted s code o := by
  simp only [State.outOfRange, Nat.mod_eq_of_lt h, reduceCtorEq, if_false, Nat.add_zero]; rfl

/-! ## The answer to a load of any form -/

/-- Every aligned load at `ea`, of any size and destination, delivers the little-endian number of the bytes `byte` in the
state `u`. -/
def LoadAnswers (s u : State) (ea : Word) (byte : Nat → Byte) : Prop :=
  ∀ (z : BitVec 2) (dst : LoadDst), ea.toNat % sizeBytes z = 0 →
    loadFrom s ea z dst = .next (u.delivered dst z (bytesNat byte (sizeBytes z)))

theorem loadAnswers_tcm (s : State) (ea : Word) (lo : 0x80000 ≤ ea.toNat) (hi : ea.toNat < 0xB0000)
    (buffered : ∀ e ∈ s.core.stores, e.kind ≠ .tcm) :
    LoadAnswers s s ea fun k => Memory.read s.core.tcm (ea.toNat - 0x80000 + k) := by
  intro z dst aligned
  simp only [loadFrom, resolve_tcm s ea _ _ lo hi aligned, loadAt, forward_none buffered, Memory.readNat_eq_bytesNat]

section Spm
variable {s : State} {ea : Word} (lo : 0x400000 ≤ ea.toNat) (hi : ea.toNat < 0x600000)
  (buffered : ∀ e ∈ s.core.stores, e.kind ≠ .spm)
  (pending : ∀ v ∈ s.core.vq, ∀ w ∈ v.writes ++ v.landed, w.space = .spm → w.off / 32 ≠ (ea.toNat - 0x400000) / 32)
include lo hi buffered pending

/-- An aligned load of the scratchpad window whose granule is correctable answers what the team's memory reads there. -/
theorem loadFrom_spm (z : BitVec 2) (dst : LoadDst) (aligned : ea.toNat % sizeBytes z = 0)
    (good : s.granuleBad s.cur .spm (ea.toNat - 0x400000) = false) {u : State} {v : Nat}
    (read : s.readTeam s.cur .spm (ea.toNat - 0x400000) (sizeBytes z) = some (u, v)) :
    loadFrom s ea z dst = .next (u.delivered dst z v) := by
  simp only [loadFrom, resolve_spm s ea _ _ lo hi aligned, loadAt, Core.granulePending_single pending,
    forward_none buffered, good, read, Bool.false_eq_true, if_false]

theorem loadAnswers_spm_placed {q : Nat} (place : s.place s.cur .spm (ea.toNat - 0x400000) = .ok q)
    (good : s.granuleBad s.cur .spm (ea.toNat - 0x400000) = false) :
    LoadAnswers s s ea fun k => Memory.read (s.cl (clusterOf s.cur)).spm (q + k) := by
  intro z dst aligned
  apply loadFrom_spm lo hi buffered pending z dst aligned good
  rw [State.readTeam, place, ← Memory.readNat_eq_bytesNat]; rfl

theorem loadAnswers_spm_out {code : BitVec 2} (place : s.place s.cur .spm (ea.toNat - 0x400000) = .out code) :
    LoadAnswers s (spflagNoted s code (ea.toNat - 0x400000)) ea fun _ => 0 := by
  intro z dst aligned
  apply loadFrom_spm lo hi buffered pending z dst aligned (State.granuleBad_of_out place)
  rw [State.readTeam, place, bytesNat_of_zeros, ← State.outOfRange_spm s code (by omega)]

end Spm

/-! ## From the answer to the forms of load (R133) -/

section Forms
variable {s u : State} {ea : Word} {byte : Nat → Byte} (h : LoadAnswers s u ea byte) (z : BitVec 2)
  (aligned : ea.toNat % sizeBytes z = 0) {x : BitVec (8 * sizeBytes z)} (bytes : bytesNat byte (sizeBytes z) = x.toNat)
include h aligned bytes

theorem LoadAnswers.wroteG (signed : Bool) (d : BitVec 5) : ∃ t, loadFrom s ea z (.g d signed) = .next t ∧
    WroteG u t d (if signed then x.signExtend 64 else x.setWidth 64) := by
  rw [h z _ aligned, bytes, State.delivered_g, extendLoad_toNat]
  exact finishG_wroteG u d _

theorem LoadAnswers.wroteF (d : BitVec 5) : ∃ t, loadFrom s ea z (.f d) = .next t ∧
    WroteF u t d (x.setWidth 64) 0 := by
  rw [h z _ aligned, bytes, State.delivered_f, extendLoad_toNat]
  exact finishF_wroteF u d _ 0

end Forms

/-- The nine forms of load complete where the load's answer is known: each is its size, its extension and its register
file. -/
theorem LoadAnswers.loadsGive {s u : State} {d a : BitVec 5} {i : BitVec 16} {byte : Nat → Byte}
    (h : LoadAnswers s u (s.ea a i) byte) : LoadsGive s u d a i (s.ea a i) byte := by
  unfold LoadsGive
  intro half word double
  have b1 := bytesNat_one byte
  have b2 := bytesNat_two byte
  have b4 := bytesNat_four byte
  have b8 := bytesNat_eight byte
  refine ⟨h.wroteG 0 (Nat.mod_one _) b1 true d, h.wroteG 0 (Nat.mod_one _) b1 false d, fun al => ⟨?_, ?_⟩,
    fun al => ⟨?_, ?_, ?_⟩, fun al => ⟨?_, ?_⟩⟩
  · exact h.wroteG 1 al b2 true d
  · exact h.wroteG 1 al b2 false d
  · exact h.wroteG 2 al b4 true d
  · exact h.wroteG 2 al b4 false d
  · exact h.wroteF 2 al b4 d
  · rw [← BitVec.setWidth_eq double]
    exact h.wroteG 3 al b8 false d
  · rw [← BitVec.setWidth_eq double]
    exact h.wroteF 3 al b8 d

/-- Settles O10: a load of any form delivers the number that its space reads (`loadAnswers_tcm`,
`loadAnswers_spm_placed`, `loadAnswers_spm_out`), and the forms follow from that. -/
theorem loadsComplete : Obligations.LoadsComplete := by
  unfold Obligations.LoadsComplete
  intro s d a i
  refine ⟨fun lo hi buffered => ?_, fun lo hi buffered pending => ⟨fun q place good => ?_, fun code place => ?_⟩⟩
  · exact (loadAnswers_tcm s (s.ea a i) lo hi buffered).loadsGive
  · exact (loadAnswers_spm_placed lo hi buffered pending place good).loadsGive
  · exact (loadAnswers_spm_out lo hi buffered pending place).loadsGive

end Sys2Proof.Machine

/-! # The values of reset (spec/05 R102, spec/01 R19, spec/23 R392)

A component of the reset state is the reset of its kind: the values of a register or a cluster are read off
`Core.reset` and `Cluster.reset`. -/

namespace Sys2Proof.Machine

@[simp] theorem State.reset_coreAt (c : CoreId) : State.reset.coreAt c = .reset := by
  simp [State.coreAt, State.reset]

@[simp] theorem State.reset_cl (k : ClusterId) : State.reset.cl k = .reset k.val := by
  simp [State.cl, State.reset]

theorem State.reset_hbm (st : StackId) : State.reset.hbm[st] = .reset := by
  simp [State.reset]

theorem State.reset_hsem (n : Fin 64) : State.reset.hsem[n] = none := by
  simp [State.reset]

theorem State.reset_dies (d : DieId) : State.reset.dies[d] = .reset := by
  simp [State.reset]

/-- Every memory of reset is empty, hence canonical (notes/assumptions/4). -/
theorem State.reset_memoriesWf : State.reset.MemoriesWf where
  mem := rfl
  buffer := rfl
  tcm c := by rw [State.reset_coreAt]; rfl
  itcm c := by rw [State.reset_coreAt]; rfl
  spm k := by rw [show State.reset.clusters[k] = .reset k.val from State.reset_cl k]; rfl
  acc k := by rw [show State.reset.clusters[k] = .reset k.val from State.reset_cl k]; rfl

theorem Cluster.reset_active {i : Nat} (h : i % 34 < 32) :
    (Cluster.reset i).status = .active ∧ (Cluster.reset i).logical = some (.ofNat 7 (i / 34 * 32 + i % 34)) := by
  simp [Cluster.reset, h]

theorem Cluster.reset_spare {i : Nat} (h : 32 ≤ i % 34) :
    (Cluster.reset i).status = .spare ∧ (Cluster.reset i).logical = none := by
  simp [Cluster.reset, Nat.not_lt.mpr h]

/-- What stays of the memory through a reset: the host's own part reads as before, and the rest reads zero, whatever
form the memory has (notes/assumptions/43). -/
theorem read_hostCells (m : Mem) (a : Nat) :
    Memory.read (hostCells m) a = if 2 ^ 47 ≤ a then Memory.read m a else 0 := by
  unfold hostCells
  induction m with
  | nil => simp [Memory.read]
  | cons c m ih =>
    obtain ⟨k, b⟩ := c
    by_cases hk : 2 ^ 47 ≤ k
    · -- A kept cell is met at the same addresses of the host's part, and ends every read below it.
      rw [List.filter_cons_of_pos (by simpa using hk), Memory.read, Memory.read, ih]
      by_cases ha : 2 ^ 47 ≤ a
      · simp only [if_pos ha]
      · simp only [if_neg ha, if_pos (show a < k by omega)]
    · -- A dropped cell lies below every address of the host's part.
      rw [List.filter_cons_of_neg (by simpa using hk), ih, Memory.read]
      by_cases ha : 2 ^ 47 ≤ a
      · rw [if_neg (show ¬ a < k by omega), if_neg (show a ≠ k by omega)]
      · simp only [if_neg ha]

/-- Settles O59: the components of the reset state are `Core.reset`, `Cluster.reset`, `Stack.reset` and
`DieRegs.reset`, and RESET keeps of the memory what `read_hostCells` says. -/
theorem resetValues : Obligations.ResetValues := by
  unfold Obligations.ResetValues
  refine ⟨rfl, rfl, State.reset_memoriesWf, fun c => ?cores, fun k => ?clusters, fun st => ?channels, State.reset_hsem,
    rfl, rfl, fun d => ?dies, fun s ok => ?resets⟩
  case cores =>
    rw [State.reset_coreAt]
    decide
  case clusters =>
    rw [State.reset_cl]
    exact ⟨Cluster.reset_active, Cluster.reset_spare⟩
  case channels => rw [State.reset_hbm]; rfl
  case dies => rw [State.reset_dies]; exact ⟨rfl, rfl⟩
  case resets => exact ⟨_, rfl, rfl, rfl, rfl, rfl, rfl, rfl, read_hostCells s.mem⟩

end Sys2Proof.Machine

/-! # Failures, spares, sleeping stacks and throttling (spec/01 R18 and R19, spec/19 R334, spec/23 R390 to R392)

Each event is enabled under its guard and leads to one named state (the lemmas `exec_…`). What that state holds follows
from the rules of the operations that the events share: a report to a service core, the same change to every core of a
cluster, the test of spares, and the loss of a cluster. -/

namespace Sys2Proof.Machine

/-! ## Reports to a service core (R383) -/

/-- The entry of a hardware message. -/
def hardwareEntry (kind : BitVec 3) (word : Word) : SvcEntry :=
  { word := word, kind := kind, asid := 0, src := 0, arrived := true }

/-- An inbox with entries that have arrived: they stand behind those that had, and before the words in flight. -/
def inboxWith (inbox es : List SvcEntry) : List SvcEntry :=
  inbox.filter (·.arrived) ++ es ++ inbox.filter (!·.arrived)

/-- A report changes the service core's inbox, or what its source holds, and nothing else. -/
theorem State.report_eq (s : State) (v : ServiceId) (kind : BitVec 3) (word : Word) :
    ∃ svc held, s.report v kind word = { s with svc := svc, heldMsgs := held } := by
  unfold State.report State.deliver
  split
  · exact ⟨_, _, rfl⟩
  · exact ⟨_, _, rfl⟩

section ReportFrame
variable (s : State) (v : ServiceId) (kind : BitVec 3) (word : Word)

@[simp] theorem State.report_cores : (s.report v kind word).cores = s.cores := by
  obtain ⟨_, _, h⟩ := s.report_eq v kind word; rw [h]

@[simp] theorem State.report_clusters : (s.report v kind word).clusters = s.clusters := by
  obtain ⟨_, _, h⟩ := s.report_eq v kind word; rw [h]

@[simp] theorem State.report_mem : (s.report v kind word).mem = s.mem := by
  obtain ⟨_, _, h⟩ := s.report_eq v kind word; rw [h]

@[simp] theorem State.report_hbm : (s.report v kind word).hbm = s.hbm := by
  obtain ⟨_, _, h⟩ := s.report_eq v kind word; rw [h]

@[simp] theorem State.cl_report (k : ClusterId) : (s.report v kind word).cl k = s.cl k := by
  simp [State.cl]

end ReportFrame

/-- A report finds room in an inbox of fewer than 64 words. -/
theorem State.report_svc {s : State} {v : ServiceId} (room : (s.svc[v]).length < 64) (kind : BitVec 3) (word : Word) :
    (s.report v kind word).svc[v] = inboxWith s.svc[v] [hardwareEntry kind word] := by
  have hasRoom : s.svcRoom v = true := decide_eq_true room
  simp [State.report, State.deliver, hasRoom, State.svcPush, inboxWith, hardwareEntry]

theorem inboxWith_length (inbox es : List SvcEntry) : (inboxWith inbox es).length = inbox.length + es.length := by
  have parts : (inbox.filter (·.arrived)).length + (inbox.filter (!·.arrived)).length = inbox.length := by
    induction inbox with
    | nil => rfl
    | cons x inbox ih =>
      cases h : x.arrived with
      | true =>
        rw [List.filter_cons_of_pos (by rw [h]), List.filter_cons_of_neg (by rw [h]; decide), List.length_cons, List.length_cons]
        omega
      | false =>
        rw [List.filter_cons_of_neg (by rw [h]; decide), List.filter_cons_of_pos (by rw [h]; rfl), List.length_cons,
          List.length_cons]
        omega
  simp only [inboxWith, List.length_append]
  omega

theorem filter_arrived_of_in_flight (inbox : List SvcEntry) :
    (inbox.filter (!·.arrived)).filter (·.arrived) = [] := by
  refine List.filter_eq_nil_iff.mpr fun x hx arrived => ?_
  have inFlight : (!x.arrived) = true := (List.mem_filter.mp hx).2
  rw [arrived] at inFlight
  exact Bool.false_ne_true inFlight

theorem filter_in_flight_of_arrived (inbox : List SvcEntry) :
    (inbox.filter (·.arrived)).filter (!·.arrived) = [] := by
  refine List.filter_eq_nil_iff.mpr fun x hx inFlight => ?_
  have arrived : x.arrived = true := (List.mem_filter.mp hx).2
  rw [arrived] at inFlight
  exact Bool.false_ne_true inFlight

/-- Of two messages the first that arrives stands first. -/
theorem inboxWith_inboxWith (inbox : List SvcEntry) {e f : SvcEntry} (he : e.arrived = true) :
    inboxWith (inboxWith inbox [e]) [f] = inboxWith inbox [e, f] := by
  have arrived : (inboxWith inbox [e]).filter (·.arrived) = inbox.filter (·.arrived) ++ [e] := by
    rw [inboxWith, List.filter_append, List.filter_append, filter_arrived_of_in_flight, List.append_nil,
      List.filter_filter, List.filter_cons_of_pos he, List.filter_nil]
    simp only [Bool.and_self]
  have inFlight : (inboxWith inbox [e]).filter (!·.arrived) = inbox.filter (!·.arrived) := by
    rw [inboxWith, List.filter_append, List.filter_append, filter_in_flight_of_arrived, List.nil_append,
      List.filter_filter, List.filter_cons_of_neg (by rw [he]; decide), List.filter_nil, List.nil_append]
    simp only [Bool.and_self]
  rw [inboxWith, arrived, inFlight, inboxWith, List.append_assoc (inbox.filter _) [e] [f]]
  rfl

/-! ## The cores of one cluster -/

theorem clusterOf_coreOf (k : ClusterId) (n : Slot) : clusterOf (coreOf k n) = k := by
  ext; simp only [clusterOf, coreOf]; omega

theorem coreOf_injective (k : ClusterId) : Function.Injective (coreOf k) := by
  intro m n h
  have : k.val * 8 + m.val = k.val * 8 + n.val := congrArg Fin.val h
  ext; omega

/-- The same change to every core of a cluster that is listed. -/
def State.mapCores (f : Core → Core) (k : ClusterId) (l : List Slot) (s : State) : State :=
  l.foldl (fun z n => z.setCoreAt (coreOf k n) (f (z.coreAt (coreOf k n)))) s

/-- CLUSTER_LOST is due to a core that is held (R108). -/
def Core.toLose (id : Word) (x : Core) : Core := if x.slot.isSome then { x with lost := some id } else x

theorem State.loseCores_eq_mapCores (s : State) (k : ClusterId) (id : Word) :
    s.loseCores k id = s.mapCores (Core.toLose id) k (List.finRange 8) := by
  unfold State.loseCores State.mapCores
  congr 1
  funext z n
  dsimp only [Core.toLose]
  split
  · rfl
  · exact (State.setCoreAt_coreAt z _).symm

theorem State.resetCores_eq_mapCores (s : State) (k : ClusterId) :
    s.resetCores k = s.mapCores (fun _ => .reset) k (List.finRange 8) := rfl

theorem State.mapCores_eq (f : Core → Core) (k : ClusterId) (l : List Slot) (s : State) :
    ∃ cores, s.mapCores f k l = { s with cores := cores } := by
  induction l generalizing s with
  | nil => exact ⟨_, rfl⟩
  | cons n l ih => exact ih _

@[simp] theorem State.cl_mapCores (f : Core → Core) (k : ClusterId) (l : List Slot) (s : State) (e : ClusterId) :
    (s.mapCores f k l).cl e = s.cl e := by
  obtain ⟨_, h⟩ := s.mapCores_eq f k l; rw [h]; rfl

@[simp] theorem State.mapCores_mem (f : Core → Core) (k : ClusterId) (l : List Slot) (s : State) :
    (s.mapCores f k l).mem = s.mem := by
  obtain ⟨_, h⟩ := s.mapCores_eq f k l; rw [h]

/-- A core that is none of those listed stays. -/
theorem State.coreAt_mapCores_of_ne (f : Core → Core) (k : ClusterId) {l : List Slot} {c : CoreId}
    (h : ∀ n ∈ l, c ≠ coreOf k n) (s : State) : (s.mapCores f k l).coreAt c = s.coreAt c := by
  induction l generalizing s with
  | nil => rfl
  | cons n l ih =>
    obtain ⟨hn, hl⟩ := List.forall_mem_cons.mp h
    exact (ih hl _).trans (State.coreAt_setCoreAt_ne s _ hn)

/-- Each core listed, once, is changed. -/
theorem State.coreAt_mapCores_of_mem (f : Core → Core) (k : ClusterId) {l : List Slot} (distinct : l.Nodup) {n : Slot}
    (h : n ∈ l) (s : State) : (s.mapCores f k l).coreAt (coreOf k n) = f (s.coreAt (coreOf k n)) := by
  induction l generalizing s with
  | nil => exact absurd h List.not_mem_nil
  | cons m l ih =>
    obtain ⟨hm, hl⟩ := List.nodup_cons.mp distinct
    let s1 := s.setCoreAt (coreOf k m) (f (s.coreAt (coreOf k m)))
    change (s1.mapCores f k l).coreAt (coreOf k n) = _
    by_cases e : n = m
    · subst e
      rw [State.coreAt_mapCores_of_ne f k fun i hi same => hm (by rwa [coreOf_injective k same])]
      exact State.coreAt_setCoreAt_self s _ _
    · rw [ih hl ((List.mem_cons.mp h).resolve_left e),
        State.coreAt_setCoreAt_ne s _ fun same => e (coreOf_injective k same)]

theorem State.coreAt_mapCores_finRange (f : Core → Core) (k : ClusterId) (n : Slot) (s : State) :
    (s.mapCores f k (List.finRange 8)).coreAt (coreOf k n) = f (s.coreAt (coreOf k n)) :=
  State.coreAt_mapCores_of_mem f k (List.nodup_finRange 8) (List.mem_finRange n) s

theorem State.coreAt_mapCores_elsewhere (f : Core → Core) {k : ClusterId} {c : CoreId} (h : clusterOf c ≠ k)
    (l : List Slot) (s : State) : (s.mapCores f k l).coreAt c = s.coreAt c :=
  State.coreAt_mapCores_of_ne f k (fun n _ same => h (by rw [same, clusterOf_coreOf])) s

/-! ## Tests of spares, and the loss of a cluster (R19, R390) -/

/-- The test of spares changes clusters alone. -/
theorem State.testSpares_eq (d : DieId) (n : Nat) (s : State) :
    ∃ clusters, s.testSpares d n = { s with clusters := clusters } := by
  induction n generalizing s with
  | zero => exact ⟨_, rfl⟩
  | succ n ih =>
    unfold State.testSpares
    split
    · exact ⟨_, rfl⟩
    · split
      · exact ih _
      · exact ⟨_, rfl⟩

@[simp] theorem State.testSpares_cores (d : DieId) (n : Nat) (s : State) : (s.testSpares d n).cores = s.cores := by
  obtain ⟨_, h⟩ := s.testSpares_eq d n; rw [h]

@[simp] theorem State.coreAt_testSpares (d : DieId) (n : Nat) (s : State) (c : CoreId) :
    (s.testSpares d n).coreAt c = s.coreAt c := by
  simp [State.coreAt]

@[simp] theorem State.testSpares_mem (d : DieId) (n : Nat) (s : State) : (s.testSpares d n).mem = s.mem := by
  obtain ⟨_, h⟩ := s.testSpares_eq d n; rw [h]

theorem State.status_of_mem_clustersWith {s : State} {d : DieId} {st : ClusterStatus} {k : ClusterId}
    (h : k ∈ s.clustersWith d st) : (s.cl k).status = st := by
  simp only [State.clustersWith, List.mem_filter, Bool.and_eq_true, beq_iff_eq] at h
  exact h.2.2

/-- Only a spare is taken to a test. -/
theorem State.cl_testSpares_of_not_spare {k : ClusterId} (d : DieId) (n : Nat) (s : State)
    (h : (s.cl k).status ≠ .spare) : (s.testSpares d n).cl k = s.cl k := by
  induction n generalizing s with
  | zero => rfl
  | succ n ih =>
    unfold State.testSpares
    split
    · rfl
    · next e _ spares =>
      have spare : (s.cl e).status = .spare := State.status_of_mem_clustersWith (spares ▸ List.mem_cons_self)
      have other : k ≠ e := fun same => h (same ▸ spare)
      split
      · rw [ih _ (by rwa [State.cl_setCl_ne s _ other]), State.cl_setCl_ne s _ other]
      · rfl

/-- A cluster that is lost: its teams are fatal with CLUSTER_LOST (R108). -/
def Cluster.asLost (x : Cluster) (id : Word) : Cluster :=
  { x with status := .lost, teams := x.teams.map fun o => o.map fun t => { t with fatal := some (causeClusterLost, id) } }

/-- The loss of a cluster drops its reservations, marks it and its cores, and starts the test of spares. -/
theorem State.loseCluster_eq (s : State) (k : ClusterId) : s.loseCluster k =
    ((({ s with reservations := s.reservations.filter (·.cluster != k) } : State).setCl k
      ((s.cl k).asLost (zext (s.logicalId k)))).mapCores (Core.toLose (zext (s.logicalId k))) k
        (List.finRange 8)).testSpares (dieOfCluster k) 2 := by
  rw [← State.loseCores_eq_mapCores]; rfl

section LoseCluster
variable (s : State) (k : ClusterId)

theorem State.cl_loseCluster_self : (s.loseCluster k).cl k = (s.cl k).asLost (zext (s.logicalId k)) := by
  rw [State.loseCluster_eq, State.cl_testSpares_of_not_spare]
  · simp
  · simp [Cluster.asLost]

theorem State.loseCluster_status : ((s.loseCluster k).cl k).status = .lost := by
  rw [State.cl_loseCluster_self]; rfl

theorem State.loseCluster_team {m : Slot} {z : Team} (h : s.team k m = some z) :
    (s.loseCluster k).team k m = some { z with fatal := some (causeClusterLost, zext (s.logicalId k)) } := by
  have h' : (s.cl k).teams[m] = some z := h
  simp [State.team, State.cl_loseCluster_self, Cluster.asLost] at h' ⊢
  simp [h']

theorem State.loseCluster_coreOf (n : Slot) : (s.loseCluster k).coreAt (coreOf k n) =
    (s.coreAt (coreOf k n)).toLose (zext (s.logicalId k)) := by
  rw [State.loseCluster_eq, State.coreAt_testSpares, State.coreAt_mapCores_finRange]; rfl

theorem State.loseCluster_coreAt_elsewhere {c : CoreId} (h : clusterOf c ≠ k) :
    (s.loseCluster k).coreAt c = s.coreAt c := by
  rw [State.loseCluster_eq, State.coreAt_testSpares, State.coreAt_mapCores_elsewhere _ h]; rfl

theorem State.loseCluster_mem : (s.loseCluster k).mem = s.mem := by
  rw [State.loseCluster_eq, State.testSpares_mem, State.mapCores_mem]; rfl

end LoseCluster

/-- A cluster that fails its test is lost, and the next spare is tested. -/
theorem State.setCl_testSpares_status (s : State) (k : ClusterId) {x : Cluster} (h : x.status = .lost) (d : DieId)
    (n : Nat) : (((s.setCl k x).testSpares d n).cl k).status = .lost := by
  rw [State.cl_testSpares_of_not_spare] <;> simp [h]

/-! ## The events of clusters (R19, R390) -/

theorem exec_clusterFailure_active {s : State} {k : ClusterId} (h : (s.cl k).status = .active) :
    exec (.clusterFailure k) s = .next (s.loseCluster k) := by
  change fire s (evClusterFailure k s) = _
  rw [evClusterFailure, h]; rfl

/-- A spare that has passed its test is a cluster at reset, active under a logical id. -/
def State.spareTaken (s : State) (k : ClusterId) (l : Nat) : State :=
  (s.setCl k { Cluster.reset k.val with status := .active, logical := some (.ofNat 7 l) }).resetCores k

theorem State.spareTaken_cl_self (s : State) (k : ClusterId) (l : Nat) : (s.spareTaken k l).cl k =
    { Cluster.reset k.val with status := .active, logical := some (.ofNat 7 l) } := by
  rw [State.spareTaken, State.resetCores_eq_mapCores, State.cl_mapCores, State.cl_setCl_self]

theorem State.spareTaken_cl_ne (s : State) {k e : ClusterId} (l : Nat) (h : e ≠ k) :
    (s.spareTaken k l).cl e = s.cl e := by
  rw [State.spareTaken, State.resetCores_eq_mapCores, State.cl_mapCores, State.cl_setCl_ne s _ h]

theorem State.spareTaken_coreOf (s : State) (k : ClusterId) (l : Nat) (n : Slot) :
    (s.spareTaken k l).coreAt (coreOf k n) = .reset := by
  rw [State.spareTaken, State.resetCores_eq_mapCores, State.coreAt_mapCores_finRange]

section SpareTest
variable {s : State} {k : ClusterId} (testing : (s.cl k).status = .testing)
  (elapsed : (s.cl k).testSince + Config.spareTestCycles ≤ s.now)
include testing elapsed

theorem exec_spareTestDone_passed {l : Nat} {ls : List Nat} (ids : s.lostIds (dieOfCluster k) = l :: ls) :
    exec (.spareTestDone k true) s = .next (s.spareTaken k l) := by
  change fire s (evSpareTestDone k true s) = _
  simp [evSpareTestDone, testing, Nat.not_lt.mpr elapsed, ids, fire, State.spareTaken]

theorem exec_spareTestDone_failed : exec (.spareTestDone k false) s =
    .next ((s.setCl k { s.cl k with status := .lost }).testSpares (dieOfCluster k) 2) := by
  change fire s (evSpareTestDone k false s) = _
  simp [evSpareTestDone, testing, Nat.not_lt.mpr elapsed, fire]

end SpareTest

/-! ## The events of banks (R390) -/

@[simp] theorem Cluster.group_setGroup_self (x : Cluster) (g : Nat) (v : Group) : (x.setGroup g v).group g = v :=
  vector_get_set_self ..

@[simp] theorem Cluster.setGroup_spm (x : Cluster) (g : Nat) (v : Group) : (x.setGroup g v).spm = x.spm := rfl

/-- A bank's copy onto the spare starts: with takeovers held back it is reported besides. -/
def State.bankCopyStarted (s : State) (k : ClusterId) (grp bank : Slot) : State :=
  let s1 := s.setCl k ((s.cl k).setGroup grp.val { (s.cl k).group grp.val with rebuilding := [bank] })
  if s.spctl then s1 else s1.reportBank k grp bank

/-- A bank's copy is done: its group's spare stands for it, which is reported. -/
def State.bankCopied (s : State) (k : ClusterId) (grp bank : Slot) : State :=
  (s.setCl k ((s.cl k).setGroup grp.val
    { (s.cl k).group grp.val with rebuilding := [], spare := some bank })).reportBank k grp bank

section Banks
variable {s : State} {k : ClusterId} {grp bank : Slot} (active : (s.cl k).status = .active)
include active

theorem exec_bankRebuildStart_spare (spare : ((s.cl k).group grp.val).spare = none)
    (idle : ((s.cl k).group grp.val).rebuilding = []) :
    exec (.bankRebuildStart k grp bank) s = .next (s.bankCopyStarted k grp bank) := by
  change fire s (evBankRebuildStart k grp bank s) = _
  simp [evBankRebuildStart, active, spare, idle, fire, State.bankCopyStarted]

theorem exec_bankRebuildStart_taken (new : bank ∉ ((s.cl k).group grp.val).rebuilding)
    (taken : ((s.cl k).group grp.val).spare ≠ none ∨
      (s.spctl = true ∧ ((s.cl k).group grp.val).rebuilding ≠ [])) :
    exec (.bankRebuildStart k grp bank) s = .next (s.loseCluster k) := by
  have noSpare : (((s.cl k).group grp.val).spare.isSome ||
      (s.spctl && !((s.cl k).group grp.val).rebuilding.isEmpty)) = true := by
    simpa [Option.isSome_iff_ne_none] using taken
  change fire s (evBankRebuildStart k grp bank s) = _
  simp only [evBankRebuildStart, active, List.contains_eq_mem, new, noSpare]; rfl

theorem exec_bankRebuilt {l : List Slot} (copied : ((s.cl k).group grp.val).rebuilding = bank :: l)
    (allowed : s.spctl = true) : exec (.bankRebuilt k grp) s = .next (s.bankCopied k grp bank) := by
  change fire s (evBankRebuilt k grp s) = _
  simp [evBankRebuilt, active, copied, allowed, fire, State.bankCopied]

end Banks

/-- The start of a bank's copy changes that group of its cluster, and no core. -/
theorem State.bankCopyStarted_frame (s : State) (k : ClusterId) (grp bank : Slot) :
    (s.bankCopyStarted k grp bank).cl k =
      (s.cl k).setGroup grp.val { (s.cl k).group grp.val with rebuilding := [bank] } ∧
    (s.bankCopyStarted k grp bank).cores = s.cores := by
  unfold State.bankCopyStarted
  dsimp only
  split
  · simp
  · simp [State.reportBank]

/-- The end of a bank's copy changes that group of its cluster, and no core. -/
theorem State.bankCopied_frame (s : State) (k : ClusterId) (grp bank : Slot) :
    (s.bankCopied k grp bank).cl k =
      (s.cl k).setGroup grp.val { (s.cl k).group grp.val with rebuilding := [], spare := some bank } ∧
    (s.bankCopied k grp bank).cores = s.cores := by
  simp [State.bankCopied, State.reportBank]

/-! ## The events of channels (R390) -/

theorem State.setStack_hbm_self (s : State) (st : StackId) (x : Stack) : (s.setStack st x).hbm[st] = x := by
  simp [State.setStack]

@[simp] theorem State.setStack_mem (s : State) (st : StackId) (x : Stack) : (s.setStack st x).mem = s.mem := rfl
@[simp] theorem State.abandonFull_hbm (s : State) : s.abandonFull.hbm = s.hbm := rfl
@[simp] theorem State.abandonFull_mem (s : State) : s.abandonFull.mem = s.mem := rfl

@[simp] theorem State.reportChannel_hbm (s : State) (st : StackId) (ch : BitVec 5) (w : Bool) :
    (s.reportChannel st ch w).hbm = s.hbm := by simp [State.reportChannel]

@[simp] theorem State.reportChannel_mem (s : State) (st : StackId) (ch : BitVec 5) (w : Bool) :
    (s.reportChannel st ch w).mem = s.mem := by simp [State.reportChannel]

/-- No further team of a FULLCH grid is placed once a channel is lost (R372). -/
theorem State.abandonFull_grids {s : State} {h : Grid} (mem : h ∈ s.abandonFull.grids) (full : h.pkt.fullch = true)
    (unplaced : h.placed < h.pkt.teams) : h.abandoned = true := by
  obtain ⟨g, -, rfl⟩ := List.mem_map.mp mem
  by_cases gone : (g.pkt.fullch && decide (g.placed < g.pkt.teams)) = true
  · rw [if_pos gone]
  · rw [if_neg gone] at full unplaced
    simp [full, unplaced] at gone

theorem channelOf_group (pa : Nat) : (channelOf pa).toNat / 8 = pa / 2 ^ 16 % 4 := by
  simp only [channelOf, BitVec.toNat_ofNat]
  omega

/-- Every line of a withdrawn channel's agent is beyond correction (notes/assumptions/38). -/
theorem State.lineBad_of_withdrawn {s : State} {st : StackId} {ch : BitVec 5} {pa : Nat}
    (withdrawn : ch ∈ (s.hbm[st]).withdrawn) (home : homeOf pa = .t1 st) (group : pa / 2 ^ 16 % 4 = ch.toNat / 8) :
    s.lineBad pa = true := by
  have gone : s.frameWithdrawn pa = true := by
    simp only [State.frameWithdrawn, home, List.any_eq_true, beq_iff_eq, channelOf_group]
    exact ⟨ch, withdrawn, group.symm⟩
  rw [State.lineBad, gone, Bool.or_true]

/-- A failed channel's copy starts: with takeovers held back it is reported besides. -/
def State.channelCopyStarted (s : State) (st : StackId) (ch : BitVec 5) : State :=
  let s1 := s.setStack st { s.hbm[st] with failing := (s.hbm[st]).failing ++ [ch] }
  if s.spctl then s1 else s1.reportChannel st ch false

theorem State.channelCopyStarted_hbm (s : State) (st : StackId) (ch : BitVec 5) :
    (s.channelCopyStarted st ch).hbm[st] = { s.hbm[st] with failing := (s.hbm[st]).failing ++ [ch] } ∧
    (s.channelCopyStarted st ch).mem = s.mem := by
  unfold State.channelCopyStarted
  dsimp only
  split
  · exact ⟨State.setStack_hbm_self .., rfl⟩
  · simp only [State.reportChannel_hbm, State.reportChannel_mem, State.setStack_hbm_self, State.setStack_mem, and_self]

/-- A channel that fails where it is narrowed already is withdrawn. -/
def State.withdrawChannel (s : State) (st : StackId) (ch : BitVec 5) : State :=
  (s.setStack st { s.hbm[st] with withdrawn := ch :: (s.hbm[st]).withdrawn }).reportChannel st ch true

/-- A channel that fails with no spare left is narrowed. -/
def State.narrowChannel (s : State) (st : StackId) (ch : BitVec 5) : State :=
  ((s.setStack st { s.hbm[st] with narrowed := ch :: (s.hbm[st]).narrowed }).reportChannel st ch false).abandonFull

/-- A failed channel whose lines are copied is retired, `rest` being those that still fail, and its spare is used up. -/
def State.retireChannel (s : State) (st : StackId) (ch : BitVec 5) (rest : List (BitVec 5)) : State :=
  ((s.setStack st { s.hbm[st] with
    failing := rest, retired := ch :: (s.hbm[st]).retired.filter (· != ch),
    spares := (s.hbm[st]).spares - 1 }).reportChannel st ch false).abandonFull

theorem State.withdrawChannel_hbm (s : State) (st : StackId) (ch : BitVec 5) :
    (s.withdrawChannel st ch).hbm[st] = { s.hbm[st] with withdrawn := ch :: (s.hbm[st]).withdrawn } := by
  simp only [State.withdrawChannel, State.reportChannel_hbm, State.setStack_hbm_self]

theorem State.narrowChannel_hbm (s : State) (st : StackId) (ch : BitVec 5) :
    (s.narrowChannel st ch).hbm[st] = { s.hbm[st] with narrowed := ch :: (s.hbm[st]).narrowed } := by
  simp only [State.narrowChannel, State.abandonFull_hbm, State.reportChannel_hbm, State.setStack_hbm_self]

theorem State.retireChannel_hbm (s : State) (st : StackId) (ch : BitVec 5) (rest : List (BitVec 5)) :
    (s.retireChannel st ch rest).hbm[st] = { s.hbm[st] with
      failing := rest, retired := ch :: (s.hbm[st]).retired.filter (· != ch), spares := (s.hbm[st]).spares - 1 } := by
  simp only [State.retireChannel, State.abandonFull_hbm, State.reportChannel_hbm, State.setStack_hbm_self]

section Channels
variable {s : State} {st : StackId} {ch : BitVec 5} (working : ch ∉ (s.hbm[st]).failing)
  (present : ch ∉ (s.hbm[st]).withdrawn)
include working present

theorem exec_channelFailure_spare (spare : (s.hbm[st]).failing.length < (s.hbm[st]).spares) :
    exec (.channelFailure st ch) s = .next (s.channelCopyStarted st ch) := by
  change fire s (evChannelFailure st ch s) = _
  simp only [evChannelFailure, List.contains_eq_mem, working, present, spare]; rfl

theorem exec_channelFailure_withdrawn (none_left : (s.hbm[st]).spares ≤ (s.hbm[st]).failing.length)
    (narrowed : ch ∈ (s.hbm[st]).narrowed) :
    exec (.channelFailure st ch) s = .next (s.withdrawChannel st ch) := by
  change fire s (evChannelFailure st ch s) = _
  simp only [evChannelFailure, List.contains_eq_mem, working, present, Nat.not_lt.mpr none_left, narrowed]; rfl

theorem exec_channelFailure_narrowed (none_left : (s.hbm[st]).spares ≤ (s.hbm[st]).failing.length)
    (wide : ch ∉ (s.hbm[st]).narrowed) : exec (.channelFailure st ch) s = .next (s.narrowChannel st ch) := by
  change fire s (evChannelFailure st ch s) = _
  simp only [evChannelFailure, List.contains_eq_mem, working, present, Nat.not_lt.mpr none_left, wide]; rfl

end Channels

theorem exec_channelRetired {s : State} {st : StackId} {ch : BitVec 5} {rest : List (BitVec 5)}
    (copied : (s.hbm[st]).failing = ch :: rest) (allowed : s.spctl = true) :
    exec (.channelRetired st) s = .next (s.retireChannel st ch rest) := by
  change fire s (evChannelRetired st s) = _
  simp [-Fin.getElem_fin, evChannelRetired, copied, allowed, fire, State.retireChannel]

/-! ## The events of sleeping stacks (R334) -/

theorem exec_stackSelfRefresh {s : State} {st : StackId} (awake : (s.hbm[st]).asleepSince = none) :
    exec (.stackSelfRefresh st) s =
      .next (s.setStack st { s.hbm[st] with asleepSince := some s.now, reported := false }) := by
  change fire s (evStackSelfRefresh st s) = _
  simp [-Fin.getElem_fin, evStackSelfRefresh, awake, fire]

/-- The stack awake again. -/
def State.woken (s : State) (st : StackId) : State :=
  s.setStack st { s.hbm[st] with asleepSince := none, reported := false }

theorem State.woken_hbm (s : State) (st : StackId) :
    (s.woken st).hbm[st] = { s.hbm[st] with asleepSince := none, reported := false } := State.setStack_hbm_self ..

@[simp] theorem State.woken_mem (s : State) (st : StackId) : (s.woken st).mem = s.mem := rfl

/-- MEMORY_STALL's report of a stack, which bit 8 marks where it has woken. -/
def State.reportStack (s : State) (st : StackId) (word : Nat) : State :=
  s.report (serviceOfStack st) 2 (.ofNat 64 word)

@[simp] theorem State.reportStack_hbm (s : State) (st : StackId) (word : Nat) :
    (s.reportStack st word).hbm = s.hbm := State.report_hbm ..

@[simp] theorem State.reportStack_mem (s : State) (st : StackId) (word : Nat) :
    (s.reportStack st word).mem = s.mem := State.report_mem ..

theorem State.reportStack_svc {s : State} {st : StackId} (room : (s.svc[serviceOfStack st]).length < 64) (word : Nat) :
    (s.reportStack st word).svc[serviceOfStack st] =
      inboxWith s.svc[serviceOfStack st] [hardwareEntry 2 (.ofNat 64 word)] := State.report_svc room ..

theorem State.reportStack_reportStack_svc {s : State} {st : StackId} (room : (s.svc[serviceOfStack st]).length < 63)
    (v w : Nat) : ((s.reportStack st v).reportStack st w).svc[serviceOfStack st] =
      inboxWith s.svc[serviceOfStack st] [hardwareEntry 2 (.ofNat 64 v), hardwareEntry 2 (.ofNat 64 w)] := by
  have first := State.reportStack_svc (Nat.lt_succ_of_lt room) v
  have room' : ((s.reportStack st v).svc[serviceOfStack st]).length < 64 := by
    rw [first, inboxWith_length]; exact Nat.succ_lt_succ room
  rw [State.reportStack_svc room', first, inboxWith_inboxWith _ rfl]

section Sleep
variable {s : State} {st : StackId} {since : Nat} (asleep : (s.hbm[st]).asleepSince = some since)
include asleep

theorem exec_memoryStall (unreported : (s.hbm[st]).reported = false)
    (long : since + Config.stallReportCycles ≤ s.now) : exec (.memoryStall st) s =
      .next ((s.setStack st { s.hbm[st] with reported := true }).reportStack st st.val) := by
  change fire s (evMemoryStall st s) = _
  simp [-Fin.getElem_fin, evMemoryStall, asleep, unreported, Nat.not_lt.mpr long, fire, State.reportStack]

theorem exec_stackWake_short (unreported : (s.hbm[st]).reported = false)
    (short : s.now < since + Config.stallReportCycles) : exec (.stackWake st) s = .next (s.woken st) := by
  change fire s (evStackWake st s) = _
  simp [-Fin.getElem_fin, evStackWake, asleep, unreported, Nat.not_le.mpr short, fire, State.woken]

theorem exec_stackWake_unreported (unreported : (s.hbm[st]).reported = false)
    (long : since + Config.stallReportCycles ≤ s.now) : exec (.stackWake st) s =
      .next (((s.woken st).reportStack st st.val).reportStack st (256 + st.val)) := by
  change fire s (evStackWake st s) = _
  simp [-Fin.getElem_fin, evStackWake, asleep, unreported, long, fire, State.woken, State.reportStack]

theorem exec_stackWake_reported (reported : (s.hbm[st]).reported = true) :
    exec (.stackWake st) s = .next ((s.woken st).reportStack st (256 + st.val)) := by
  change fire s (evStackWake st s) = _
  simp [-Fin.getElem_fin, evStackWake, asleep, reported, fire, State.woken, State.reportStack]

end Sleep

/-! ## The obligation -/

/-- Settles O50: each clause is the event's state (`exec_…`) and what the operations that lead to it change. -/
theorem resilienceEventsAct : Obligations.ResilienceEventsAct := by
  unfold Obligations.ResilienceEventsAct
  intro s k grp bank st ch link x g y inbox note told
  refine ⟨fun active => ?failure, fun testing elapsed => ⟨fun l ls ids => ?passed, ?failed⟩,
    fun active => ⟨fun spare idle => ?copied, fun new taken => ?taken, fun l copied allowed => ?rebuilt⟩,
    fun working present => ⟨fun spare => ?channelCopied, fun noneLeft => ?channelLost⟩,
    fun rest copied allowed => ?retired, fun awake => ?sleeps,
    fun since asleep => ⟨fun unreported long room => ?stalls, ?wakes⟩,
    ⟨_, rfl, rfl⟩, ⟨_, rfl, rfl⟩, ⟨_, rfl, rfl⟩, ⟨_, rfl, rfl, ?linkDown⟩⟩
  case failure =>
    refine ⟨_, exec_clusterFailure_active active, s.loseCluster_status k, fun m z => s.loseCluster_team k,
      fun n held => ?_, fun c => s.loseCluster_coreAt_elsewhere k, s.loseCluster_mem k⟩
    rw [State.loseCluster_coreOf, Core.toLose, if_pos held]; rfl
  case passed =>
    have cluster := s.spareTaken_cl_self k l
    exact ⟨_, exec_spareTestDone_passed testing elapsed ids, by rw [cluster], by rw [cluster], s.spareTaken_coreOf k l,
      fun e => s.spareTaken_cl_ne l⟩
  case failed =>
    exact ⟨_, exec_spareTestDone_failed testing elapsed, State.setCl_testSpares_status s k rfl ..,
      State.testSpares_cores .., State.testSpares_mem ..⟩
  case copied =>
    obtain ⟨cluster, cores⟩ := s.bankCopyStarted_frame k grp bank
    refine ⟨_, exec_bankRebuildStart_spare active spare idle, ?_, ?_, cores⟩
    · rw [cluster, Cluster.group_setGroup_self]
    · rw [cluster, Cluster.setGroup_spm]
  case taken =>
    exact ⟨_, exec_bankRebuildStart_taken active new taken, s.loseCluster_status k, s.loseCluster_mem k⟩
  case rebuilt =>
    obtain ⟨cluster, cores⟩ := s.bankCopied_frame k grp bank
    refine ⟨_, exec_bankRebuilt active copied allowed, ?_, ?_, cores⟩
    · rw [cluster, Cluster.group_setGroup_self]
    · rw [cluster, Cluster.setGroup_spm]
  case channelCopied =>
    exact ⟨_, exec_channelFailure_spare working present spare, s.channelCopyStarted_hbm st ch⟩
  case channelLost =>
    by_cases narrowed : ch ∈ y.narrowed
    · have stack := s.withdrawChannel_hbm st ch
      exact ⟨_, exec_channelFailure_withdrawn working present noneLeft narrowed, State.reportChannel_mem ..,
        stack.trans (if_pos narrowed).symm,
        fun pa _ => State.lineBad_of_withdrawn (ch := ch) (by rw [stack]; exact List.mem_cons_self)⟩
    · exact ⟨_, exec_channelFailure_narrowed working present noneLeft narrowed, State.reportChannel_mem ..,
        (s.narrowChannel_hbm st ch).trans (if_neg narrowed).symm, fun pa held => absurd held narrowed⟩
  case retired =>
    exact ⟨_, exec_channelRetired copied allowed, State.reportChannel_mem .., s.retireChannel_hbm st ch rest,
      fun h => State.abandonFull_grids⟩
  case sleeps => exact ⟨_, exec_stackSelfRefresh awake, rfl, State.setStack_hbm_self ..⟩
  case stalls =>
    refine ⟨_, exec_memoryStall asleep unreported long, ?_,
      State.reportStack_svc (s := s.setStack st _) room st.val⟩
    simp only [State.reportStack_hbm, State.setStack_hbm_self]; rfl
  case wakes =>
    by_cases reported : y.reported = true
    · have notUnreported : y.reported ≠ false := fun held => Bool.false_ne_true (held.symm.trans reported)
      refine ⟨_, exec_stackWake_reported asleep reported, ?_, State.reportStack_mem ..,
        fun held => absurd held notUnreported, fun held => absurd held notUnreported,
        fun _ room => State.reportStack_svc (s := s.woken st) room (256 + st.val)⟩
      simp only [State.reportStack_hbm, State.woken_hbm]; rfl
    · have unreported : y.reported = false := eq_false_of_ne_true reported
      by_cases long : since + Config.stallReportCycles ≤ s.now
      · refine ⟨_, exec_stackWake_unreported asleep unreported long, ?_, ?_,
          fun _ short => absurd long (Nat.not_le.mpr short),
          fun _ _ room => State.reportStack_reportStack_svc (s := s.woken st) room st.val (256 + st.val),
          fun held => absurd held reported⟩
        · simp only [State.reportStack_hbm, State.woken_hbm]; rfl
        · rw [State.reportStack_mem, State.reportStack_mem, State.woken_mem]
      · exact ⟨_, exec_stackWake_short asleep unreported (Nat.not_le.mp long), State.woken_hbm .., rfl, fun _ _ => rfl,
          fun _ held => absurd held long, fun held => absurd held reported⟩
  case linkDown => simp

end Sys2Proof.Machine

/-! # Scalar floating point (spec/02 R22 to R35, spec/07 R143 to R145)

An instruction answers its result through one of three endings, whose effect is known; what is left is the result. For
the results of NaNs, the comparisons and the classes, the codes of FP64 and FP32 are taken as sign and magnitude: a
magnitude above the infinity's is a NaN, and below it the value grows with the magnitude. -/

namespace Sys2Proof.Machine

/-! ## Operands and endings (R98, R143, R145) -/

theorem State.fcode_eq_mod (s : State) (n : BitVec 5) (p : Bool) :
    s.fcode n p = (s.f n).toNat % 2 ^ (fmtOf p).width := by
  cases p with
  | false => rfl
  | true => exact (Nat.mod_eq_of_lt (s.f n).isLt).symm

theorem State.gint32_eq_setWidth (s : State) (n : BitVec 5) : s.gint32 n = ((s.g n).setWidth 32).toInt := by
  rw [State.gint32, bits, BitVec.setWidth_eq_extractLsb' (by decide)]

section Endings
variable {s : State} {i : Instr} {d : BitVec 5}

theorem wroteF_of_finishFRes {r : FRes} (h : exec i s = finishFRes s d r) :
    ∃ t, exec i s = .next t ∧ WroteF s t d (.ofNat 64 r.1) r.2 := by
  rw [h]; exact finishF_wroteF s d _ _

theorem wroteGF_of_finishToInt {r : Int × Flags} (h : exec i s = finishToInt s d r) :
    ∃ t, exec i s = .next t ∧ WroteGF s t d (.ofInt 64 r.1) r.2 := by
  rw [h]; exact finishGF_wroteGF s d _ _

theorem wroteGF_of_finishCompare {r : Bool × Flags} (h : exec i s = finishCompare s d r) :
    ∃ t, exec i s = .next t ∧ WroteGF s t d (ofBool r.1) r.2 := by
  rw [h]; exact finishGF_wroteGF s d _ _

end Endings

/-! ## Codes as sign and magnitude (R22 to R25)

A code is a sign above a magnitude, and a magnitude an exponent field above a mantissa field. -/

/-- A format laid out as FP64 and FP32 are: the exponent fields below `top` are the numbers', and `top` holds the
infinities and the NaNs, of which the canonical one is the first quiet one. -/
structure Fmt.Interchange (F : Fmt) (top : Nat) : Prop where
  hasInf : F.hasInf = true
  signBit : F.signBit = (top + 1) * 2 ^ F.mant
  infinity : F.maxCode + 1 = top * 2 ^ F.mant
  nan : F.nan = top * 2 ^ F.mant + 2 ^ (F.mant - 1)
  mant_pos : 0 < F.mant

theorem fmtOf_interchange (p : Bool) : (fmtOf p).Interchange (if p then 2047 else 255) := by
  cases p <;> constructor <;> decide

/-- The magnitude of a code, its bits below the sign. -/
def Fmt.size (F : Fmt) (x : Nat) : Nat := x % 2 ^ (F.width - 1)

/-- Whether a code is negative. -/
def Fmt.negative (F : Fmt) (x : Nat) : Bool := x.testBit (F.width - 1)

/-- Whether a code is a NaN: its magnitude is above the infinity's. -/
def Fmt.isNan (F : Fmt) (x : Nat) : Bool := decide (F.maxCode + 1 < F.size x)

/-- Whether a code is a signalling NaN: its quiet bit is clear. -/
def Fmt.isSignalling (F : Fmt) (x : Nat) : Bool := F.isNan x && !x.testBit (F.mant - 1)

/-- A magnitude with a sign as an integer. -/
def signed (neg : Bool) (m : Nat) : Int := if neg then -m else m

/-- The place of a code in the order of the codes; the two zeros share one. -/
def Fmt.rank (F : Fmt) (x : Nat) : Int := signed (F.negative x) (F.size x)

/-- The integer significand of a finite magnitude. -/
def Fmt.significand (F : Fmt) (c : Nat) : Nat :=
  if c / 2 ^ F.mant = 0 then c % 2 ^ F.mant else c % 2 ^ F.mant + 2 ^ F.mant

/-- The binary places by which a finite magnitude's significand stands above the subnormals'. -/
def Fmt.shift (F : Fmt) (c : Nat) : Nat := c / 2 ^ F.mant - 1

/-- The exponent of the smallest subnormal's unit. -/
def Fmt.unit (F : Fmt) : Int := 1 - (F.bias : Int) - F.mant

theorem Fmt.signOf_eq_negative (F : Fmt) (x : Nat) : F.signOf x = F.negative x := by
  rw [negative, Nat.testBit_eq_decide_div_mod_eq]; rfl

/-- A code's value in these terms: above the largest finite magnitude an infinity or a NaN, and else a number. -/
theorem Fmt.unpack_eq (F : Fmt) (x : Nat) : F.unpack x =
    if F.maxCode < F.size x then
      if F.hasInf = true ∧ F.size x % 2 ^ F.mant = 0 then .inf (F.negative x)
      else .nan (F.hasInf && decide (F.size x % 2 ^ F.mant < 2 ^ (F.mant - 1)))
    else .fin (F.negative x) (F.significand (F.size x)) (F.unit + F.shift (F.size x)) := by
  have code : x % F.signBit = F.size x := rfl
  simp only [unpack, code, ← F.signOf_eq_negative, significand, shift, unit, Bool.and_eq_true, decide_eq_true_eq]
  by_cases zero : F.size x / 2 ^ F.mant = 0
  · rw [if_pos zero, if_pos zero, zero]
    simp [signOf]
  · have one : ((F.size x / 2 ^ F.mant - 1 : Nat) : Int) = (F.size x / 2 ^ F.mant : Nat) - 1 :=
      Int.ofNat_sub (Nat.pos_of_ne_zero zero)
    rw [if_neg zero, if_neg zero, one]
    congr 2
    omega

theorem decide_mod_lt_half {x k : Nat} (hk : 0 < k) :
    decide (x % 2 ^ k < 2 ^ (k - 1)) = !x.testBit (k - 1) := by
  obtain ⟨j, rfl⟩ := Nat.exists_eq_succ_of_ne_zero (Nat.ne_of_gt hk)
  have low : x % 2 ^ j < 2 ^ j := Nat.mod_lt _ (Nat.two_pow_pos j)
  rw [Nat.succ_eq_add_one, Nat.add_sub_cancel, Nat.testBit_eq_decide_div_mod_eq, Nat.mod_pow_succ, ← decide_not]
  congr 1
  rcases Nat.mod_two_eq_zero_or_one (x / 2 ^ j) with h | h <;> rw [h] <;> simp [low]

namespace Fmt.Interchange
variable {F : Fmt} {top : Nat} (h : F.Interchange top) {x y : Nat}
include h

theorem size_lt : F.size x < (top + 1) * 2 ^ F.mant := by
  rw [← h.signBit]; exact Nat.mod_lt _ (Nat.two_pow_pos _)

theorem size_mod (x : Nat) : F.size x % 2 ^ F.mant = x % 2 ^ F.mant :=
  Nat.mod_mod_of_dvd _ ⟨top + 1, by rw [Nat.mul_comm]; exact h.signBit⟩

/-- The exponent field is `top` exactly from the infinity's magnitude on. -/
theorem infinity_le_size_iff : F.maxCode + 1 ≤ F.size x ↔ F.size x / 2 ^ F.mant = top := by
  have below := Nat.div_lt_of_lt_mul (Nat.mul_comm .. ▸ h.size_lt (x := x))
  rw [h.infinity, ← Nat.le_div_iff_mul_le (Nat.two_pow_pos _)]
  omega

theorem size_eq_of_top (e : F.size x / 2 ^ F.mant = top) : F.size x = F.maxCode + 1 + x % 2 ^ F.mant := by
  rw [h.infinity, ← h.size_mod x, ← e]
  exact (Nat.div_add_mod' ..).symm

theorem top_of_infinity (inf : F.size x = F.maxCode + 1) :
    F.size x / 2 ^ F.mant = top ∧ x % 2 ^ F.mant = 0 := by
  have e := h.infinity_le_size_iff.mp (Nat.le_of_eq inf.symm)
  have size := h.size_eq_of_top e
  exact ⟨e, by omega⟩

theorem top_of_nan (nan : F.isNan x = true) : F.size x / 2 ^ F.mant = top ∧ x % 2 ^ F.mant ≠ 0 := by
  have above : F.maxCode + 1 < F.size x := of_decide_eq_true nan
  have e := h.infinity_le_size_iff.mp (Nat.le_of_lt above)
  have size := h.size_eq_of_top e
  exact ⟨e, by omega⟩

theorem ne_top_of_finite (finite : F.size x < F.maxCode + 1) : F.size x / 2 ^ F.mant ≠ top :=
  fun e => absurd (h.infinity_le_size_iff.mpr e) (Nat.not_le.mpr finite)

theorem unpack_of_nan (nan : F.isNan x = true) : F.unpack x = .nan (!x.testBit (F.mant - 1)) := by
  have above : F.maxCode + 1 < F.size x := of_decide_eq_true nan
  rw [F.unpack_eq, if_pos (Nat.lt_of_succ_lt above), h.size_mod, if_neg (fun both => (h.top_of_nan nan).2 both.2),
    h.hasInf, Bool.true_and, decide_mod_lt_half h.mant_pos]

theorem unpack_of_infinity (inf : F.size x = F.maxCode + 1) : F.unpack x = .inf (F.negative x) := by
  have code : F.maxCode < F.size x := Nat.lt_of_succ_le (Nat.le_of_eq inf.symm)
  rw [F.unpack_eq, if_pos code, h.size_mod, if_pos ⟨h.hasInf, (h.top_of_infinity inf).2⟩]

end Fmt.Interchange

theorem Fmt.unpack_of_finite {F : Fmt} {x : Nat} (finite : F.size x < F.maxCode + 1) :
    F.unpack x = .fin (F.negative x) (F.significand (F.size x)) (F.unit + F.shift (F.size x)) := by
  rw [unpack_eq, if_neg (Nat.not_lt.mpr (Nat.le_of_lt_succ finite))]

theorem Fmt.finite_or_infinity {F : Fmt} {x : Nat} (number : F.isNan x = false) :
    F.size x < F.maxCode + 1 ∨ F.size x = F.maxCode + 1 :=
  Nat.lt_or_eq_of_le (Nat.le_of_not_lt (of_decide_eq_false number))

theorem Fmt.Interchange.unpack_of_number {F : Fmt} {top : Nat} (h : F.Interchange top) {x : Nat}
    (number : F.isNan x = false) : (F.unpack x).isNan = false ∧ (F.unpack x).signalling = false := by
  rcases Fmt.finite_or_infinity number with finite | inf
  · rw [Fmt.unpack_of_finite finite]; exact ⟨rfl, rfl⟩
  · rw [h.unpack_of_infinity inf]; exact ⟨rfl, rfl⟩

theorem Fmt.Interchange.isNan_unpack {F : Fmt} {top : Nat} (h : F.Interchange top) (x : Nat) :
    (F.unpack x).isNan = F.isNan x := by
  cases kind : F.isNan x with
  | true => rw [h.unpack_of_nan kind]; rfl
  | false => exact (h.unpack_of_number kind).1

theorem Fmt.Interchange.signalling_unpack {F : Fmt} {top : Nat} (h : F.Interchange top) (x : Nat) :
    (F.unpack x).signalling = F.isSignalling x := by
  rw [Fmt.isSignalling]
  cases kind : F.isNan x with
  | true => rw [h.unpack_of_nan kind]; rfl
  | false => exact (h.unpack_of_number kind).2

/-! ## Values in the order of their magnitudes -/

/-- The magnitude's value, counted in the unit of the smallest subnormal. -/
def Fmt.scaled (F : Fmt) (c : Nat) : Nat := F.significand c * 2 ^ F.shift c

theorem Fmt.scaled_zero (F : Fmt) : F.scaled 0 = 0 := by
  simp [scaled, significand]

theorem Fmt.scaled_subnormal (F : Fmt) {m : Nat} (lt : m < 2 ^ F.mant) : F.scaled m = m := by
  simp [scaled, significand, shift, Nat.div_eq_of_lt lt, Nat.mod_eq_of_lt lt]

theorem Fmt.scaled_normal (F : Fmt) {m : Nat} (lt : m < 2 ^ F.mant) (k : Nat) :
    F.scaled ((k + 1) * 2 ^ F.mant + m) = (m + 2 ^ F.mant) * 2 ^ k := by
  have exponent : ((k + 1) * 2 ^ F.mant + m) / 2 ^ F.mant = k + 1 := by
    rw [Nat.mul_comm, Nat.mul_add_div (Nat.two_pow_pos _), Nat.div_eq_of_lt lt, Nat.add_zero]
  rw [scaled, significand, shift, exponent, Nat.mul_add_mod', Nat.mod_eq_of_lt lt]
  simp

/-- A step within an exponent adds one unit of it; a step to the next exponent goes from its last significand to the
first of the next. -/
theorem Fmt.scaled_lt_succ (F : Fmt) (c : Nat) : F.scaled c < F.scaled (c + 1) := by
  have pos := Nat.two_pow_pos F.mant
  have lt : c % 2 ^ F.mant < 2 ^ F.mant := Nat.mod_lt _ pos
  rw [← Nat.div_add_mod' c (2 ^ F.mant)]
  generalize c % 2 ^ F.mant = m at lt
  by_cases last : m + 1 < 2 ^ F.mant
  case pos =>
    cases c / 2 ^ F.mant with
    | zero => simp [F.scaled_subnormal, lt, last]
    | succ k =>
      rw [Nat.add_assoc, F.scaled_normal lt, F.scaled_normal last]
      exact Nat.mul_lt_mul_of_pos_right (by omega) (Nat.two_pow_pos k)
  case neg =>
    have next (e : Nat) : e * 2 ^ F.mant + m + 1 = (e + 1) * 2 ^ F.mant + 0 := by
      rw [Nat.succ_mul]; omega
    rw [next, F.scaled_normal pos]
    cases c / 2 ^ F.mant with
    | zero => simp [F.scaled_subnormal, lt]
    | succ k =>
      rw [F.scaled_normal lt, Nat.pow_succ, Nat.mul_comm (2 ^ k), ← Nat.mul_assoc]
      exact Nat.mul_lt_mul_of_pos_right (by omega) (Nat.two_pow_pos k)

theorem Fmt.scaled_lt_of_lt (F : Fmt) {m n : Nat} (lt : m < n) : F.scaled m < F.scaled n := by
  induction lt with
  | refl => exact F.scaled_lt_succ m
  | step _ ih => exact Nat.lt_trans ih (F.scaled_lt_succ _)

theorem Fmt.scaled_lt_iff (F : Fmt) (m n : Nat) : F.scaled m < F.scaled n ↔ m < n := by
  refine ⟨fun lt => Nat.lt_of_not_le fun le => ?_, F.scaled_lt_of_lt⟩
  rcases Nat.lt_or_eq_of_le le with gt | rfl
  · exact Nat.lt_asymm lt (F.scaled_lt_of_lt gt)
  · exact Nat.lt_irrefl _ lt

theorem Fmt.signed_scaled_lt_iff (F : Fmt) (a b : Bool) (m n : Nat) :
    signed a (F.scaled m) < signed b (F.scaled n) ↔ signed a m < signed b n := by
  have lt := F.scaled_lt_iff m n
  have gt := F.scaled_lt_iff n m
  have m_pos := F.scaled_lt_iff 0 m
  have n_pos := F.scaled_lt_iff 0 n
  rw [F.scaled_zero] at m_pos n_pos
  cases a <;> cases b <;> simp only [signed, if_true, if_false, Bool.false_eq_true] <;> omega

theorem signed_mul (neg : Bool) (m k : Nat) : signed neg (m * k) = signed neg m * k := by
  cases neg with
  | false => exact Int.natCast_mul m k
  | true => exact (congrArg Int.neg (Int.natCast_mul m k)).trans (Int.neg_mul ..).symm

/-- A significand brought down to a lower exponent, and then on to the unit `u`. -/
theorem signedAt_mul (neg : Bool) (m : Nat) (u : Int) {j k : Nat} (le : j ≤ k) :
    signedAt neg m (u + k) (u + j) * (2 ^ j : Nat) = signed neg (m * 2 ^ k) := by
  have places : (u + k - (u + j)).toNat = k - j := by omega
  have whole : m * 2 ^ k = m * 2 ^ (k - j) * 2 ^ j := by rw [Nat.mul_assoc, ← Nat.pow_add, Nat.sub_add_cancel le]
  rw [whole, signed_mul, ← places]
  rfl

/-- Finite values compare as their significands brought to a common unit `u`. -/
theorem FVal.lt_fin (a b : Bool) (m n : Nat) (u : Int) (j k : Nat) :
    (FVal.fin a m (u + j)).lt (.fin b n (u + k)) = decide (signed a (m * 2 ^ j) < signed b (n * 2 ^ k)) := by
  have lower : (if u + j < u + k then u + j else u + k : Int) = u + (min j k : Nat) := by split <;> omega
  have pos : (0 : Int) < (2 ^ min j k : Nat) := by exact_mod_cast Nat.two_pow_pos _
  rw [lt, lower, ← signedAt_mul a m u (Nat.min_le_left j k), ← signedAt_mul b n u (Nat.min_le_right j k)]
  exact decide_eq_decide.mpr (Int.mul_lt_mul_right pos).symm

theorem signed_bounds (neg : Bool) (m : Nat) : -(m : Int) ≤ signed neg m ∧ signed neg m ≤ m := by
  cases neg <;> simp only [signed, if_true, if_false, Bool.false_eq_true] <;> omega

/-- Of two magnitudes with signs, the sign of the greater one decides. -/
theorem decide_signed_lt_of_gt {m n : Nat} (gt : n < m) (a b : Bool) : decide (signed a m < signed b n) = a := by
  obtain ⟨lower, upper⟩ := signed_bounds b n
  cases a with
  | true => exact decide_eq_true (show -(m : Int) < signed b n by omega)
  | false => exact decide_eq_false (show ¬(m : Int) < signed b n by omega)

theorem decide_signed_lt_of_lt {m n : Nat} (lt : m < n) (a b : Bool) : decide (signed a m < signed b n) = !b := by
  obtain ⟨lower, upper⟩ := signed_bounds a m
  cases b with
  | true => exact decide_eq_false (show ¬signed a m < -(n : Int) by omega)
  | false => exact decide_eq_true (show signed a m < (n : Int) by omega)

theorem decide_signed_lt_self {m : Nat} (pos : 0 < m) (a b : Bool) :
    decide (signed a m < signed b m) = (a && !b) := by
  cases a with
  | true =>
    cases b with
    | true => exact decide_eq_false (Int.lt_irrefl _)
    | false => exact decide_eq_true (show -(m : Int) < m by omega)
  | false => exact decide_eq_false (Int.not_lt.mpr (signed_bounds b m).2)

/-- Numbers and infinities are in the order of their ranks. -/
theorem Fmt.Interchange.lt_unpack {F : Fmt} {top : Nat} (h : F.Interchange top) {x y : Nat}
    (hx : F.isNan x = false) (hy : F.isNan y = false) :
    (F.unpack x).lt (F.unpack y) = decide (F.rank x < F.rank y) := by
  rcases Fmt.finite_or_infinity hx with finx | infx <;> rcases Fmt.finite_or_infinity hy with finy | infy
  · rw [Fmt.unpack_of_finite finx, Fmt.unpack_of_finite finy, FVal.lt_fin]
    exact decide_eq_decide.mpr (F.signed_scaled_lt_iff ..)
  · rw [Fmt.unpack_of_finite finx, h.unpack_of_infinity infy]
    exact (decide_signed_lt_of_lt (infy ▸ finx) ..).symm
  · rw [h.unpack_of_infinity infx, Fmt.unpack_of_finite finy]
    exact (decide_signed_lt_of_gt (infx ▸ finy) ..).symm
  · rw [h.unpack_of_infinity infx, h.unpack_of_infinity infy, Fmt.rank, Fmt.rank, infx, infy]
    exact (decide_signed_lt_self F.maxCode.succ_pos ..).symm

/-! ## Operations on NaNs (R24, R143) -/

theorem FVal.isNan_neg (v : FVal) : v.neg.isNan = v.isNan := by cases v <;> rfl

theorem FVal.signalling_neg (v : FVal) : v.neg.signalling = v.signalling := by cases v <;> rfl

/-- A result that is the canonical NaN for a NaN as the first operand, and for a NaN as the second beside a number or an
infinity, is so for any NaN operand, with the flags of both. -/
theorem FVal.eq_nanRes_of_nan {F : Fmt} {u v : FVal} {r : FRes} (nan : (u.isNan || v.isNan) = true)
    (left : ∀ s, u = .nan s → r = F.nanRes (s || v.signalling))
    (infinite : ∀ a s, u = .inf a → v = .nan s → r = F.nanRes (s || false))
    (finite : ∀ a m e s, u = .fin a m e → v = .nan s → r = F.nanRes (s || false)) :
    r = F.nanRes (u.signalling || v.signalling) := by
  cases u with
  | nan s => exact left s rfl
  | inf a =>
    cases v with
    | nan s => exact (infinite a s rfl rfl).trans (congrArg F.nanRes (Bool.or_comm s false))
    | _ => cases nan
  | fin a m e =>
    cases v with
    | nan s => exact (finite a m e s rfl rfl).trans (congrArg F.nanRes (Bool.or_comm s false))
    | _ => cases nan

section NaNs
variable (F : Fmt) (mode : RMode)

theorem Fmt.sum_of_nan {u v : FVal} (nan : (u.isNan || v.isNan) = true) :
    F.sum mode u v = F.nanRes (u.signalling || v.signalling) :=
  FVal.eq_nanRes_of_nan nan (fun _ hu => by rw [hu]; rfl) (fun _ _ hu hv => by rw [hu, hv]; rfl)
    (fun _ _ _ _ hu hv => by rw [hu, hv]; rfl)

theorem Fmt.product_of_nan {u v : FVal} (nan : (u.isNan || v.isNan) = true) :
    F.product mode u v = F.nanRes (u.signalling || v.signalling) :=
  FVal.eq_nanRes_of_nan nan (fun _ hu => by rw [hu]; rfl) (fun _ _ hu hv => by rw [hu, hv]; rfl)
    (fun _ _ _ _ hu hv => by rw [hu, hv]; rfl)

theorem Fmt.div_of_nan {x y : Nat} (nan : ((F.unpack x).isNan || (F.unpack y).isNan) = true) :
    F.div mode x y = F.nanRes ((F.unpack x).signalling || (F.unpack y).signalling) :=
  FVal.eq_nanRes_of_nan nan (fun _ hu => by simp only [div, hu])
    (fun _ _ hu hv => by simp only [div, hu, hv, FVal.signalling])
    (fun _ _ _ _ hu hv => by simp only [div, hu, hv, FVal.signalling])

end NaNs

/-- The flags of an operation that is invalid under a condition (R35). -/
def nvIf (c : Bool) : Flags := if c then flagNV else 0

namespace Fmt.Interchange
variable {F : Fmt} {top : Nat} (h : F.Interchange top) (mode : RMode) {x y : Nat}
include h

theorem nanRes_unpack (x y : Nat) : F.nanRes ((F.unpack x).signalling || (F.unpack y).signalling) =
    (F.nan, nvIf (F.isSignalling x || F.isSignalling y)) := by
  rw [h.signalling_unpack, h.signalling_unpack]; rfl

section Operands
variable (nan : (F.isNan x || F.isNan y) = true)
include nan

theorem unpack_of_either_nan : ((F.unpack x).isNan || (F.unpack y).isNan) = true := by
  rw [h.isNan_unpack, h.isNan_unpack, nan]

theorem add_of_nan : F.add mode x y = (F.nan, nvIf (F.isSignalling x || F.isSignalling y)) :=
  (F.sum_of_nan mode (h.unpack_of_either_nan nan)).trans (h.nanRes_unpack x y)

theorem sub_of_nan : F.sub mode x y = (F.nan, nvIf (F.isSignalling x || F.isSignalling y)) := by
  have either := h.unpack_of_either_nan nan
  rw [← (F.unpack y).isNan_neg] at either
  rw [sub, F.sum_of_nan mode either, FVal.signalling_neg, h.nanRes_unpack]

theorem mul_of_nan : F.mul mode x y = (F.nan, nvIf (F.isSignalling x || F.isSignalling y)) :=
  (F.product_of_nan mode (h.unpack_of_either_nan nan)).trans (h.nanRes_unpack x y)

theorem div_of_nan : F.div mode x y = (F.nan, nvIf (F.isSignalling x || F.isSignalling y)) :=
  (F.div_of_nan mode (h.unpack_of_either_nan nan)).trans (h.nanRes_unpack x y)

end Operands

/-- One NaN operand gives the other (minimumNumber and maximumNumber). -/
theorem minMax_of_left_nan (wantMax : Bool) (hx : F.isNan x = true) (hy : F.isNan y = false) :
    F.minMax wantMax x y = (y, nvIf (F.isSignalling x)) := by
  simp [minMax, h.isNan_unpack, h.signalling_unpack, hx, hy, isSignalling, nvIf]

/-! ## The comparisons (R143) -/

theorem feq_eq : F.feq x y = (!(F.isNan x || F.isNan y) && decide (F.rank x = F.rank y),
    nvIf (F.isSignalling x || F.isSignalling y)) := by
  rw [feq, FVal.eq, h.isNan_unpack, h.isNan_unpack, h.signalling_unpack, h.signalling_unpack]
  cases hx : F.isNan x with
  | true => rfl
  | false =>
    cases hy : F.isNan y with
    | true => rfl
    | false =>
      rw [h.lt_unpack hx hy, h.lt_unpack hy hx]
      have antisymm : F.rank x = F.rank y ↔ ¬F.rank x < F.rank y ∧ ¬F.rank y < F.rank x := by omega
      simp only [antisymm, Bool.decide_and, decide_not, nvIf, Bool.not_false, Bool.or_false, Bool.true_and]

theorem flt_eq : F.flt x y = (!(F.isNan x || F.isNan y) && decide (F.rank x < F.rank y),
    nvIf (F.isNan x || F.isNan y)) := by
  rw [flt, h.isNan_unpack, h.isNan_unpack]
  cases hx : F.isNan x with
  | true => rfl
  | false =>
    cases hy : F.isNan y with
    | true => rfl
    | false => rw [h.lt_unpack hx hy]; rfl

theorem fle_eq : F.fle x y = (!(F.isNan x || F.isNan y) && decide (F.rank x ≤ F.rank y),
    nvIf (F.isNan x || F.isNan y)) := by
  rw [fle, h.isNan_unpack, h.isNan_unpack]
  cases hx : F.isNan x with
  | true => rfl
  | false =>
    cases hy : F.isNan y with
    | true => rfl
    | false => rw [h.lt_unpack hy hx, ← decide_not]; simp [nvIf]

/-! ## The classes (R143) -/

omit h in
theorem significand_eq_zero_iff (c : Nat) : F.significand c = 0 ↔ c / 2 ^ F.mant = 0 ∧ c % 2 ^ F.mant = 0 := by
  have pos := Nat.two_pow_pos F.mant
  unfold significand
  split <;> omega

omit h in
theorem significand_lt_iff (c : Nat) : F.significand c < 2 ^ F.mant ↔ c / 2 ^ F.mant = 0 := by
  have lt : c % 2 ^ F.mant < 2 ^ F.mant := Nat.mod_lt _ (Nat.two_pow_pos _)
  unfold significand
  split <;> omega

end Fmt.Interchange

/-- KIND of fclass by the exponent field `e` and the mantissa field of a code, `top` being the highest exponent. -/
def Fmt.kind (F : Fmt) (top x : Nat) : Nat :=
  let e := F.size x / 2 ^ F.mant
  let m := x % 2 ^ F.mant
  if e = top then (if m = 0 then 3 else if x.testBit (F.mant - 1) then 4 else 5)
  else if e = 0 then (if m = 0 then 0 else 1) else 2

theorem Fmt.Interchange.classify_eq {F : Fmt} {top : Nat} (h : F.Interchange top) (x : Nat) :
    F.classify x = F.kind top x + if F.negative x then 8 else 0 := by
  rw [classify, F.signOf_eq_negative, Nat.add_comm]
  congr 1
  cases number : F.isNan x with
  | true =>
    obtain ⟨e, m⟩ := h.top_of_nan number
    rw [h.unpack_of_nan number]
    cases quiet : x.testBit (F.mant - 1) <;> simp [kind, e, m, quiet]
  | false =>
    rcases Fmt.finite_or_infinity number with finite | inf
    · rw [Fmt.unpack_of_finite finite]
      have e := h.ne_top_of_finite finite
      simp only [kind, if_neg e, significand_eq_zero_iff, significand_lt_iff, h.size_mod]
      by_cases zero : F.size x / 2 ^ F.mant = 0 <;> simp [zero]
    · obtain ⟨e, m⟩ := h.top_of_infinity inf
      rw [h.unpack_of_infinity inf]
      simp [kind, e, m]

/-! ## The obligations -/

/-- Settles O6: each instruction ends in `finishFRes` with the result of its operation on the operands' codes. -/
theorem floatArithmeticCompletes : Obligations.FloatArithmeticCompletes := by
  unfold Obligations.FloatArithmeticCompletes
  intro s d a b c p F x y z m writes
  have hx : x = s.fcode a p := (s.fcode_eq_mod a p).symm
  have hy : y = s.fcode b p := (s.fcode_eq_mod b p).symm
  have hz : z = s.fcode c p := (s.fcode_eq_mod c p).symm
  rw [hx, hy, hz]
  have writes_of {i : Instr} {r : FRes} (h : exec i s = finishFRes s d r) : writes i r := wroteF_of_finishFRes h
  exact ⟨writes_of rfl, writes_of rfl, writes_of rfl, writes_of rfl, writes_of rfl, writes_of rfl, writes_of rfl,
    writes_of rfl, writes_of rfl, writes_of rfl, writes_of rfl, writes_of rfl, writes_of rfl, writes_of rfl⟩

/-- Settles O8: each conversion ends in `finishFRes` or `finishToInt` with the converted value, and the moves end in
`finishG` and `finishF` with the bits themselves. -/
theorem floatConversionsComplete : Obligations.FloatConversionsComplete := by
  unfold Obligations.FloatConversionsComplete
  intro s d a low m toF toG
  have toF_of {i : Instr} {r : FRes} (h : exec i s = finishFRes s d r) : toF i r := wroteF_of_finishFRes h
  have toG_of {i : Instr} {r : Int × Flags} (h : exec i s = finishToInt s d r) : toG i r := wroteGF_of_finishToInt h
  rw [← s.gint32_eq_setWidth a]
  exact ⟨toF_of rfl, toF_of rfl, toG_of rfl, toG_of rfl, toF_of rfl, toF_of rfl, toG_of rfl, toG_of rfl, toF_of rfl,
    toF_of rfl, finishG_wroteG s d _, finishF_wroteF s d _ 0, toF_of rfl, toF_of rfl, toF_of rfl, toF_of rfl,
    toF_of rfl, toF_of rfl⟩

/-- A truth value that a NaN makes false, as a number. -/
theorem ofBool_unless (nan c : Bool) : ofBool (!nan && c) = if nan then 0 else if c then 1 else 0 := by
  cases nan <;> rfl

/-- Settles O7: a NaN operand decides the arithmetic (`add_of_nan` to `minMax_of_left_nan`); the comparisons are those
of the ranks (`feq_eq`, `flt_eq`, `fle_eq`), since the value of a code grows with its magnitude (`lt_unpack`); and the
class is read off the exponent and mantissa fields (`classify_eq`). -/
theorem floatNaNsAndComparesComplete : Obligations.FloatNaNsAndComparesComplete := by
  unfold Obligations.FloatNaNsAndComparesComplete
  intro s d a b p width mant top x y negative size nan signalling nv rank res e m kind
  have h : (fmtOf p).Interchange top := fmtOf_interchange p
  have hx : x = s.fcode a p := by rw [s.fcode_eq_mod]; cases p <;> rfl
  have hy : y = s.fcode b p := by rw [s.fcode_eq_mod]; cases p <;> rfl
  have hwidth : width = (fmtOf p).width := by cases p <;> rfl
  have hmant : mant = (fmtOf p).mant := by cases p <;> rfl
  have hnegative : negative = (fmtOf p).negative := by simp only [negative, hwidth]; rfl
  have hsize : size = (fmtOf p).size := by simp only [size, hwidth]; rfl
  have hnan : nan = (fmtOf p).isNan := by simp only [nan, hsize, hmant, ← h.infinity]; rfl
  have hsignalling : signalling = (fmtOf p).isSignalling := by simp only [signalling, hnan, hmant]; rfl
  have hrank : rank = (fmtOf p).rank := by simp only [rank, hnegative, hsize]; rfl
  have hkind : kind = (fmtOf p).kind top x := by simp only [kind, e, m, hsize, hmant]; rfl
  have hcanonical : top * 2 ^ mant + 2 ^ (mant - 1) = (fmtOf p).nan := by rw [h.nan, hmant]
  have writes {i : Instr} {r r' : FRes} (result : r = r') (ends : exec i s = finishFRes s d r) :
      ∃ t, exec i s = .next t ∧ WroteF s t d (.ofNat 64 r'.1) r'.2 := result ▸ wroteF_of_finishFRes ends
  have compares {i : Instr} {r : Bool × Flags} {c : Prop} [Decidable c] {fl : Flags}
      (result : r = (!(nan x || nan y) && decide c, fl)) (ends : exec i s = finishCompare s d r) :
      ∃ t, exec i s = .next t ∧ WroteGF s t d (res c) fl := by
    have completes := wroteGF_of_finishCompare (result ▸ ends)
    simpa only [ofBool_unless, decide_eq_true_eq] using completes
  -- From here on the statement speaks of the model's codes and of the format's own predicates.
  rw [hnan, hx, hy] at compares
  rw [hkind, hx, hy, hnan, hsignalling, hrank, hnegative, hcanonical]
  refine ⟨fun either => ⟨?arithmetic, fun right => ?minMax⟩, compares h.feq_eq rfl, compares h.flt_eq rfl,
    compares h.fle_eq rfl, ?fclass⟩
  case arithmetic =>
    simp only [List.forall_mem_cons]
    exact ⟨writes (h.add_of_nan s.rmode either) rfl, writes (h.sub_of_nan s.rmode either) rfl,
      writes (h.mul_of_nan s.rmode either) rfl, writes (h.div_of_nan s.rmode either) rfl, List.forall_mem_nil _⟩
  case minMax =>
    have left : (fmtOf p).isNan (s.fcode a p) = true := by rwa [right, Bool.or_false] at either
    simp only [List.forall_mem_cons]
    exact ⟨writes (h.minMax_of_left_nan false left right) rfl, writes (h.minMax_of_left_nan true left right) rfl,
      List.forall_mem_nil _⟩
  case fclass =>
    rw [← h.classify_eq]
    exact finishG_wroteG s d _

end Sys2Proof.Machine

/-! # Stores enter the buffer (spec/06 R133 to R135, spec/03 R48)

A store comes down to its entry: the checks and, outside TCM and the scratchpad, the translation lead to a state in which
the core differs in its cached translations alone (`State.translated_frame`), and the entry is appended there
(`EntersBuffer`). The six forms of store differ in the size and the register file alone (`storeForms`). -/

namespace Sys2Proof.Machine

/-! ## States with the same memory -/

theorem SameMemory.refl (s : State) : SameMemory s s :=
  ⟨fun _ => rfl, fun _ => rfl, fun _ _ => rfl, fun _ _ => rfl, fun _ _ => rfl, fun _ _ => rfl⟩

theorem SameMemory.trans {s t u : State} (h : SameMemory s t) (h' : SameMemory t u) : SameMemory s u where
  mem a := (h'.mem a).trans (h.mem a)
  buffer a := (h'.buffer a).trans (h.buffer a)
  tcm c a := (h'.tcm c a).trans (h.tcm c a)
  itcm c a := (h'.itcm c a).trans (h.itcm c a)
  spm k a := (h'.spm k a).trans (h.spm k a)
  acc k a := (h'.acc k a).trans (h.acc k a)

theorem SameMemory.setCoreAt {s : State} {c : CoreId} {k : Core} (tcm : k.tcm = (s.coreAt c).tcm)
    (itcm : k.itcm = (s.coreAt c).itcm) : SameMemory s (s.setCoreAt c k) where
  mem _ := rfl
  buffer _ := rfl
  tcm d a := by
    by_cases hd : d = c
    · rw [hd, State.coreAt_setCoreAt_self, tcm]
    · rw [State.coreAt_setCoreAt_ne s k hd]
  itcm d a := by
    by_cases hd : d = c
    · rw [hd, State.coreAt_setCoreAt_self, itcm]
    · rw [State.coreAt_setCoreAt_ne s k hd]
  spm _ _ := rfl
  acc _ _ := rfl

theorem SameMemory.setCl {s : State} {i : ClusterId} {x : Cluster} (spm : x.spm = (s.cl i).spm)
    (acc : x.acc = (s.cl i).acc) : SameMemory s (s.setCl i x) where
  mem _ := rfl
  buffer _ := rfl
  tcm _ _ := rfl
  itcm _ _ := rfl
  spm k a := by
    by_cases hk : k = i
    · rw [hk, State.cl_setCl_self, spm]
    · rw [State.cl_setCl_ne s x hk]
  acc k a := by
    by_cases hk : k = i
    · rw [hk, State.cl_setCl_self, acc]
    · rw [State.cl_setCl_ne s x hk]

theorem SameMemory.countBuddies (s : State) (l : List Nat) : SameMemory s (s.countBuddies l) :=
  ⟨fun _ => rfl, fun _ => rfl, fun _ _ => rfl, fun _ _ => rfl, fun _ _ => rfl, fun _ _ => rfl⟩

/-! ## What a translation changes (R121, R122) -/

/-- The counted accesses of a walk are in AFFMISS alone. -/
theorem State.countWalk_frame (s : State) (w : Walked) :
    (s.countWalk w).cur = s.cur ∧ (s.countWalk w).cores = s.cores ∧ SameMemory s (s.countWalk w) := by
  unfold State.countWalk
  split
  · exact ⟨rfl, rfl, SameMemory.refl s⟩
  · exact ⟨rfl, rfl, SameMemory.countBuddies s _⟩

/-- A cluster's translation changes its caches and AFFMISS, and no core and no memory. -/
theorem lookup_frame (s : State) (k : ClusterId) (asid : BitVec 12) (ptbase : Word) (va : Nat) :
    (lookup s k asid ptbase va).1.cur = s.cur ∧ (lookup s k asid ptbase va).1.cores = s.cores ∧
      SameMemory s (lookup s k asid ptbase va).1 := by
  unfold lookup
  dsimp only
  split
  · exact ⟨rfl, rfl, SameMemory.refl s⟩
  · split
    · exact ⟨rfl, rfl, SameMemory.refl s⟩
    · obtain ⟨cur, cores, same⟩ := s.countWalk_frame ((s.cl k).walked s asid ptbase va)
      have clusters : (s.countWalk ((s.cl k).walked s asid ptbase va)).cl k = s.cl k := by
        unfold State.countWalk; split <;> rfl
      split
      · exact ⟨rfl, rfl, SameMemory.refl s⟩
      · exact ⟨cur, cores, same⟩
      · exact ⟨cur, cores, same.trans (SameMemory.setCl (by rw [clusters]; rfl) (by rw [clusters]; rfl))⟩

/-- A translation for the current core changes no memory, and of that core the micro-TLB alone. -/
theorem State.translated_frame (s : State) (va : Nat) (a : Access) :
    SameMemory s (s.translated va a).1 ∧ ∃ l, (s.translated va a).1.core = { s.core with utlb := l } := by
  have same_core {u : State} (cur : u.cur = s.cur) (cores : u.cores = s.cores) : u.core = s.core := by
    rw [State.core, State.core, State.coreAt, State.coreAt, cores, cur]
  unfold State.translated
  dsimp only
  split
  · exact ⟨SameMemory.refl s, _, rfl⟩
  · split
    · exact ⟨SameMemory.refl s, _, rfl⟩
    · obtain ⟨cur, cores, same⟩ := lookup_frame s s.curCluster s.core.csr.asid s.core.csr.ptbase va
      have core := same_core cur cores
      split
      · next u e => rw [e] at same core; exact ⟨same, _, core⟩
      · next u _ _ e => rw [e] at same core; exact ⟨same, _, core⟩
      · next u x e =>
        rw [e] at same core
        refine ⟨same.trans (SameMemory.setCore rfl rfl), x :: s.core.utlb.take 7, ?_⟩
        rw [State.core_setCore, Core.cacheTlb, core]

/-! ## An entry enters the buffer (R135) -/

theorem resolve_mem {s u : State} {ea : Word} {n : Nat} {a : Access} {x : Xlat} (lo : 0x100000000 ≤ ea.toNat)
    (hi : ea.toNat < 0x1000000000000) (aligned : ea.toNat % n = 0) (translates : s.translated ea.toNat a = (u, .ok x)) :
    resolve s ea n a = (u, .ok (.mem x)) := by
  have above : ¬ ea.toNat < Config.tcmBase ∧ ¬ ea.toNat < Config.tcmBase + Config.tcmBytes ∧
      ¬ (Config.spmBase ≤ ea.toNat ∧ ea.toNat < Config.spmBase + Config.spmBytes) := by
    simp only [Config.tcmBase, Config.tcmBytes, Config.spmBase, Config.spmBytes]; omega
  have within : Config.translatedBase ≤ ea.toNat ∧ ea.toNat < Config.translatedEnd := ⟨lo, hi⟩
  obtain ⟨notNull, notTcm, notSpm⟩ := above
  simp only [resolve, aligned, beq_self_eq_true, if_neg notNull, if_neg notTcm, if_neg notSpm, if_pos within, if_true,
    translates]

/-- The store's answer `r` is a state in which the core has completed with one unreleased entry of these contents behind
those of its buffer, and all else is as in `u`, the state after the translation. -/
def EntersBuffer (s u : State) (kind : StoreKind) (addr : Nat) (r : Result) (z : BitVec 2) (v : Word) : Prop :=
  ∃ t e, r = .next t ∧
    t.core = { u.core.completed (s.pc + 4) s.core.regs s.core.csr with stores := s.core.stores ++ [e] } ∧
    e.released = false ∧ e.kind = kind ∧ e.addr = addr ∧ e.size = z ∧ e.data = v ∧ e.amo = none ∧
    t = u.setCore t.core ∧ SameMemory s t

section Store
variable {s : State} {ea : Word} {z : BitVec 2} {v : Word} (room : s.core.stores.length < 8)
include room

/-- A store whose address leads to `x` does there what `storeAt` says. -/
theorem storeTo_of_resolved {u : State} {x : Target} (resolved : resolve s ea (sizeBytes z) .write = (u, .ok x)) :
    storeTo s ea z v = storeAt u ea z v x := by
  simp only [storeTo, Core.storeRoom, room, decide_true, Bool.not_true, Bool.false_eq_true, if_false, resolved]

/-- A store that appends an entry has entered the buffer, where `u` differs from `s` in the core's cached translations
alone and in no memory. -/
theorem entersBuffer_of_done {u : State} {x : Target} {l : List TlbEntry} {kind : StoreKind} {addr : Nat}
    {asid : BitVec 12} {epoch : BitVec 16} {buf : BitVec 12}
    (resolved : resolve s ea (sizeBytes z) .write = (u, .ok x))
    (done : storeAt u ea z v x = .done (u.setCore (u.core.pushStore (plainStore kind z addr v ea asid epoch buf))))
    (core : u.core = { s.core with utlb := l }) (same : SameMemory s u) :
    EntersBuffer s u kind addr (storeOp s ea z v) z v := by
  refine ⟨(u.setCore (u.core.pushStore (plainStore kind z addr v ea asid epoch buf))).retire,
    plainStore kind z addr v ea asid epoch buf, ?_, ?_, rfl, rfl, rfl, rfl, rfl, rfl, ?_, ?_⟩
  · rw [storeOp, storeTo_of_resolved room resolved, done]
  · rw [State.retire_eq, State.core_setCore, State.core_setCore, core]; rfl
  · rw [State.retire_eq, State.core_setCore, State.setCore_setCore, State.core_setCore]
  · rw [State.retire_eq, State.setCore_setCore, State.core_setCore]
    exact same.trans (SameMemory.setCore rfl rfl)

theorem entersBuffer_tcm (lo : 0x80000 ≤ ea.toNat) (hi : ea.toNat < 0xB0000) (aligned : ea.toNat % sizeBytes z = 0) :
    EntersBuffer s s .tcm ea.toNat (storeOp s ea z v) z v :=
  entersBuffer_of_done room (resolve_tcm s ea _ _ lo hi aligned) rfl rfl (SameMemory.refl s)

theorem entersBuffer_spm {q : Nat} (lo : 0x400000 ≤ ea.toNat) (hi : ea.toNat < 0x600000)
    (aligned : ea.toNat % sizeBytes z = 0) (place : s.place s.cur .spm (ea.toNat - 0x400000) = .ok q) :
    EntersBuffer s s .spm (ea.toNat - 0x400000) (storeOp s ea z v) z v :=
  entersBuffer_of_done room (resolve_spm s ea _ _ lo hi aligned) (by rw [storeAt, place]) rfl (SameMemory.refl s)

theorem entersBuffer_phys {u : State} {x : Xlat} (lo : 0x100000000 ≤ ea.toNat) (hi : ea.toNat < 0x1000000000000)
    (aligned : ea.toNat % sizeBytes z = 0) (translates : s.translated ea.toNat .write = (u, .ok x)) :
    EntersBuffer s u .phys x.pa (storeOp s ea z v) z v := by
  have frame := s.translated_frame ea.toNat .write
  rw [translates] at frame
  obtain ⟨same, l, core⟩ := frame
  exact entersBuffer_of_done room (resolve_mem lo hi aligned translates) rfl core same

/-- R48: a store to no accessible scratchpad location is dropped and recorded. -/
theorem storeOp_spm_out {code : BitVec 2} (lo : 0x400000 ≤ ea.toNat) (hi : ea.toNat < 0x600000)
    (aligned : ea.toNat % sizeBytes z = 0) (place : s.place s.cur .spm (ea.toNat - 0x400000) = .out code) :
    storeOp s ea z v = .next (spflagNoted s code (ea.toNat - 0x400000)).retire := by
  rw [storeOp, storeTo_of_resolved room (resolve_spm s ea _ _ lo hi aligned), storeAt, place,
    ← State.outOfRange_spm s code (by omega)]

end Store

theorem State.retire_wroteNothing (s : State) : WroteNothing s s.retire (s.pc + 4) where
  core := by rw [State.retire_eq, State.core_setCore]; rfl
  rest := by rw [State.retire_eq, State.core_setCore]
  memory := SameMemory.setCore rfl rfl

theorem spflagNoted_pc (s : State) (code : BitVec 2) (o : Nat) : (spflagNoted s code o).pc = s.pc := by
  unfold spflagNoted
  split
  · rw [State.pc, State.core_setCore]; rfl
  · rfl

/-! ## The forms of store (R133) -/

/-- What holds of every aligned store of a size holds of the six forms: each is its size and its register file. -/
theorem storeForms {s : State} {d a : BitVec 5} {i : BitVec 16} {does : Instr → BitVec 2 → Word → Prop}
    (h : ∀ x z v, (s.ea a i).toNat % sizeBytes z = 0 → exec x s = storeOp s (s.ea a i) z v → does x z v) :
    does (.stb d a i) 0 (s.g d) ∧ ((s.ea a i).toNat % 2 = 0 → does (.sth d a i) 1 (s.g d)) ∧
    ((s.ea a i).toNat % 4 = 0 → does (.stw d a i) 2 (s.g d) ∧ does (.fstw d a i) 2 (s.f d)) ∧
    ((s.ea a i).toNat % 8 = 0 → does (.st d a i) 3 (s.g d) ∧ does (.fstd d a i) 3 (s.f d)) :=
  ⟨h _ _ _ (Nat.mod_one _) rfl, fun al => h _ _ _ al rfl, fun al => ⟨h _ _ _ al rfl, h _ _ _ al rfl⟩,
    fun al => ⟨h _ _ _ al rfl, h _ _ _ al rfl⟩⟩

/-- Settles O11: a store of any form enters the buffer where its address leads to a place (`entersBuffer_tcm`,
`entersBuffer_spm`, `entersBuffer_phys`), and is dropped where it leads to none (`storeOp_spm_out`). -/
theorem storesEnterTheBuffer : Obligations.StoresEnterTheBuffer := by
  unfold Obligations.StoresEnterTheBuffer
  intro s d a i ea o each enters room
  refine ⟨fun lo hi => storeForms fun y z v aligned form => ?_, fun lo hi => ⟨fun q place =>
    storeForms fun y z v aligned form => ?_, fun code place => ?_⟩,
    fun lo hi u x translates => storeForms fun y z v aligned form => ?_⟩
  · change EntersBuffer s s .tcm ea.toNat (exec y s) z v
    rw [form]
    exact entersBuffer_tcm room lo hi aligned
  · change EntersBuffer s s .spm o (exec y s) z v
    rw [form]
    exact entersBuffer_spm room lo hi aligned place
  · refine storeForms (does := fun y _ _ => ∃ t, exec y s = .next t ∧ WroteNothing (spflagNoted s code o) t (s.pc + 4))
      fun y z v aligned form => ⟨_, form.trans (storeOp_spm_out room lo hi aligned place), ?_⟩
    rw [← spflagNoted_pc s code o]
    exact State.retire_wroteNothing _
  · change EntersBuffer s u .phys x.pa (exec y s) z v
    rw [form]
    exact entersBuffer_phys room lo hi aligned translates

end Sys2Proof.Machine

/-! # Stores drain, and loads are answered (spec/03 R47, R51, R52, R57, spec/06 R134 to R136, spec/19 R327)

One equation per event says what it makes of a state: a release marks the oldest entry, an acceptance applies it at its
home or sends it over a gateway, and a served load delivers. What an acceptance stores is read back byte by byte
(`Memory.read_writeBytes_leBytes`). -/

namespace Sys2Proof.Machine

/-! ## The bytes of a stored word (R3) -/

@[simp] theorem length_leBytes : ∀ n w, (leBytes n w).length = n
  | 0, _ => rfl
  | n + 1, w => by rw [leBytes, List.length_cons, length_leBytes n]

theorem getElem_leBytes : ∀ (n w i : Nat) (h : i < (leBytes n w).length),
    (leBytes n w)[i] = BitVec.ofNat 8 (w / 2 ^ (8 * i))
  | n + 1, w, 0, _ => by simp only [leBytes, List.getElem_cons_zero, Nat.mul_zero, Nat.pow_zero, Nat.div_one]
  | n + 1, w, i + 1, h => by
    simp only [leBytes, List.getElem_cons_succ, getElem_leBytes n, Nat.div_div_eq_div_mul]
    rw [Nat.mul_succ, Nat.add_comm, Nat.pow_add]

/-- A word stored in `n` bytes is read back byte by byte, and no other byte changes. -/
theorem Memory.read_writeBytes_leBytes {m : Mem} (wf : Memory.wf m = true) (a n x : Nat) (v : Word) :
    Memory.read (Memory.writeBytes m a (leBytes n v.toNat)) x =
      if a ≤ x ∧ x < a + n then (v >>> (8 * (x - a))).setWidth 8 else Memory.read m x := by
  by_cases inside : a ≤ x ∧ x < a + n
  · obtain ⟨i, rfl⟩ := Nat.exists_eq_add_of_le inside.1
    have hi : i < (leBytes n v.toNat).length := by rw [length_leBytes]; omega
    rw [if_pos inside, Memory.read_writeBytes_inside _ a i wf hi, getElem_leBytes, Nat.add_sub_cancel_left]
    apply BitVec.eq_of_toNat_eq
    rw [BitVec.toNat_ofNat, BitVec.toNat_setWidth, BitVec.toNat_ushiftRight, Nat.shiftRight_eq_div_pow]
  · rw [if_neg inside, Memory.read_writeBytes_outside _ a x wf (by rw [length_leBytes]; omega)]

/-! ## Forwarding (R136) -/

/-- The youngest entry, of the load's own kind, address and size, is what the load is given. -/
theorem forward_youngest (es : List StoreEntry) {e : StoreEntry} (plain : e.amo = none) :
    forward (es ++ [e]) e.kind e.addr (sizeBytes e.size) = .value (e.data.toNat % 2 ^ (8 * sizeBytes e.size)) := by
  have pos : 0 < sizeBytes e.size := Nat.two_pow_pos _
  have meets : e.meets e.kind e.addr (sizeBytes e.size) = true := by
    simp only [StoreEntry.meets, decide_true, Bool.true_and, Bool.and_self, decide_eq_true_eq]; omega
  simp only [forward, List.reverse_append, List.reverse_singleton, List.singleton_append, List.find?_cons, meets, plain,
    Nat.le_refl, and_self, if_true, Nat.sub_self, Nat.mul_zero, Nat.pow_zero, Nat.div_one]

theorem extendLoad_double (n : Nat) : extendLoad false 3 n = .ofNat 64 n :=
  BitVec.setWidth_eq (.ofNat 64 n)

/-- A doubleword load from TCM is given the youngest entry of the buffer, a doubleword stored there. -/
theorem loadFrom_forwarded {s : State} {ea : Word} {es : List StoreEntry} {e : StoreEntry} (dst : LoadDst)
    (lo : 0x80000 ≤ ea.toNat) (hi : ea.toNat < 0xB0000) (aligned : ea.toNat % 8 = 0)
    (stores : s.core.stores = es ++ [e]) (kind : e.kind = .tcm) (addr : e.addr = ea.toNat) (size : e.size = 3)
    (plain : e.amo = none) : loadFrom s ea 3 dst = .next (s.delivered dst 3 e.data.toNat) := by
  have given := forward_youngest es plain
  rw [kind, addr, size, ← stores, Nat.mod_eq_of_lt (show _ < 2 ^ (8 * sizeBytes 3) from e.data.isLt)] at given
  simp only [loadFrom, resolve_tcm s ea (sizeBytes 3) _ lo hi aligned, loadAt, given]

/-- R136: the store is still in the buffer when the load is given its value. -/
theorem load_after_store {s t : State} {d a d' a' : BitVec 5} {i i' : BitVec 16} (lo : 0x80000 ≤ (s.ea a i).toNat)
    (hi : (s.ea a i).toNat < 0xB0000) (aligned : (s.ea a i).toNat % 8 = 0) (room : s.core.stores.length < 8)
    (stored : exec (.st d a i) s = .next t) (same : t.ea a' i' = s.ea a i) :
    ∃ u, exec (.ld d' a' i') t = .next u ∧ WroteG t u d' (s.g d) := by
  obtain ⟨t', e, next, core, -, kind, addr, size, data, plain, -, -⟩ :=
    entersBuffer_tcm (z := 3) (v := s.g d) room lo hi aligned
  obtain rfl : t = t' := Host.Outcome.next.inj (stored.symm.trans next)
  have stores : t.core.stores = s.core.stores ++ [e] := by rw [core]
  have loaded : exec (.ld d' a' i') t = finishG t d' (s.g d) := by
    change loadFrom t (t.ea a' i') 3 (.g d' false) = _
    rw [same, loadFrom_forwarded _ lo hi aligned stores kind addr size plain, State.delivered_g, extendLoad_double,
      BitVec.ofNat_toNat, BitVec.setWidth_eq, data]
  rw [loaded]
  exact finishG_wroteG t d' (s.g d)

/-! ## The release of an entry (R57, R135) -/

/-- The oldest entry is released once every vector instruction that has not retired came behind it. -/
theorem exec_storeRelease_oldest {s : State} {c : CoreId} {e : StoreEntry} {es : List StoreEntry}
    (stores : (s.coreAt c).stores = e :: es) (unreleased : e.released = false)
    (behind : ∀ v ∈ (s.coreAt c).vq, 0 < v.before) :
    exec (.storeRelease c) s =
      .next (s.setCoreAt c { s.coreAt c with stores := { e with released := true } :: es }) := by
  have all_behind : ((s.coreAt c).vq.all fun v => decide (0 < v.before)) = true := by
    simpa only [List.all_eq_true, decide_eq_true_eq] using behind
  change fire s (evStoreRelease c s) = _
  simp only [evStoreRelease, stores, nextRelease, markReleased, replaceFirst, unreleased, all_behind, Bool.false_eq_true,
    if_false, Bool.not_false, Bool.and_self, if_true, fire, Option.getD_some]

/-! ## The acceptance of the oldest entry (R47, R52, R135) -/

/-- The oldest entry leaves the buffer, and each vector instruction has one fewer before it. -/
theorem Core.acceptStore_oldest {k : Core} {e : StoreEntry} {es : List StoreEntry} (stores : k.stores = e :: es) :
    k.acceptStore 0 = { k with stores := es, vq := k.vq.map fun v => { v with before := v.before - 1 } } := by
  have fewer (v : PendVec) : (if 0 < v.before then v.before - 1 else v.before) = v.before - 1 := by
    split <;> omega
  simp only [Core.acceptStore, stores, List.eraseIdx_cons_zero, fewer]

theorem exec_storeAccept_core {s t : State} {c : CoreId} (accepted : evCoreAccept c s = some t) :
    exec (.storeAccept (.core c)) s = .next t := by
  change fire s (evCoreAccept c s) = _
  rw [accepted]; rfl

/-- What a team-virtual offset leads to depends, of a core, on its team slot alone. -/
theorem State.place_setCoreAt {s : State} {c : CoreId} {k : Core} (slot : k.slot = (s.coreAt c).slot) (sp : Space)
    (off : Nat) : (s.setCoreAt c k).place c sp off = s.place c sp off := by
  have team : (s.setCoreAt c k).teamOf c = s.teamOf c := by
    rw [State.teamOf, State.coreAt_setCoreAt_self, slot]; rfl
  rw [State.place, State.coreAt_setCoreAt_self, slot, team]; rfl

theorem State.granuleBad_setCoreAt {s : State} {c : CoreId} {k : Core} (slot : k.slot = (s.coreAt c).slot) (sp : Space)
    (off : Nat) : (s.setCoreAt c k).granuleBad c sp off = s.granuleBad c sp off := by
  rw [State.granuleBad, State.place_setCoreAt slot]; rfl

/-- A write to a correctable granule of the team's scratchpad lands where the map places it. -/
theorem State.writeTeam_spm {s : State} {c : CoreId} {off q : Nat} (place : s.place c .spm off = .ok q)
    (good : s.granuleBad c .spm off = false) (bs : List Byte) :
    s.writeTeam c .spm off bs = some (s.setCl (clusterOf c)
      { s.cl (clusterOf c) with spm := Memory.writeBytes (s.cl (clusterOf c)).spm q bs }) := by
  have correctable : ((s.cl (clusterOf c)).bad .spm).contains (q / 32) = false := by
    simpa only [State.granuleBad, place] using good
  simp only [State.writeTeam, place, Cluster.writeGranule, Cluster.mergeGranule, correctable, Bool.false_eq_true,
    if_false]
  rfl

/-- A request that reaches its home at once, where its line is free and without fault, writes its part of the line. -/
theorem State.depart_store {s : State} {c : CoreId} {e : StoreEntry} {u : Seal} (near : wayQueue c e.addr = none)
    (awake : s.stackQueue e.addr = none) (free : s.lineHeld e.addr = false) (good : s.lineFault e.addr u = none) :
    s.depart c e.addr (.store e u) = some ((s.sealOver e.addr
      (Memory.writeBytes s.mem e.addr (leBytes (sizeBytes e.size) e.data.toNat)) u).countBuddy e.addr) := by
  simp only [State.depart, near, State.reachHome, awake, State.accepted, State.arrive, free, State.writePart,
    State.mergeLine, good, Bool.false_eq_true, if_false, Option.isSome_none]

/-- An atomic without reply leaves as the shipped operation that it is, to its own address. -/
theorem StoreEntry.item_of_atomic (e : StoreEntry) {op : BitVec 5} (atomic : e.amo = some op) (s : State) (c : CoreId) :
    ∃ o, e.item s c = .ship o ∧ o.reply = none ∧ o.op = op ∧ o.pa = e.addr := by
  rw [StoreEntry.item, atomic]
  exact ⟨_, rfl, rfl, rfl, rfl⟩

section Accept
variable {s : State} {c : CoreId} {e : StoreEntry} {es : List StoreEntry} (stores : (s.coreAt c).stores = e :: es)
  (released : e.released = true) (unsent : e.sent = false)
include stores released unsent

/-- The oldest entry, released and not sent, is applied in TCM or in the team's scratchpad, or departs for its home; only
one that is accepted there alone stays in the buffer (R327). -/
theorem evCoreAccept_oldest :
    let s' := s.setCoreAt c ((s.coreAt c).acceptStore 0)
    let bytes := leBytes (sizeBytes e.size) e.data.toNat
    (e.kind = .tcm → evCoreAccept c s = some (s.setCoreAt c
      { (s.coreAt c).acceptStore 0 with tcm := Memory.writeBytes (s.coreAt c).tcm (e.addr - 0x80000) bytes })) ∧
    (e.kind = .spm → evCoreAccept c s = s'.writeTeam c .spm e.addr bytes) ∧
    (e.kind = .phys → evCoreAccept c s =
      (if e.acceptedFar c then s.setCoreAt c { s.coreAt c with stores := { e with sent := true } :: es } else s').depart c
        e.addr (e.item s c)) := by
  have opened := evCoreAccept.eq_1 c s
  simp only [stores, firstAt, unsent, released, Bool.not_false, Bool.not_true, Bool.false_eq_true, if_true, if_false,
    List.set_cons_zero] at opened
  refine ⟨fun kind => ?_, fun kind => ?_, fun kind => ?_⟩
  · rw [opened, kind]; rfl
  · rw [opened, kind]
  · simp only [opened, kind, released]

theorem evCoreAccept_tcm (kind : e.kind = .tcm) : evCoreAccept c s = some (s.setCoreAt c
    { (s.coreAt c).acceptStore 0 with
      tcm := Memory.writeBytes (s.coreAt c).tcm (e.addr - 0x80000) (leBytes (sizeBytes e.size) e.data.toNat) }) := by
  obtain ⟨tcm, -, -⟩ := evCoreAccept_oldest stores released unsent
  exact tcm kind

theorem evCoreAccept_spm {q : Nat} (kind : e.kind = .spm) (place : s.place c .spm e.addr = .ok q)
    (good : s.granuleBad c .spm e.addr = false) : evCoreAccept c s =
      some ((s.setCoreAt c ((s.coreAt c).acceptStore 0)).setCl (clusterOf c) { s.cl (clusterOf c) with
        spm := Memory.writeBytes (s.cl (clusterOf c)).spm q (leBytes (sizeBytes e.size) e.data.toNat) }) := by
  obtain ⟨-, spm, -⟩ := evCoreAccept_oldest stores released unsent
  rw [spm kind]
  have slot : ((s.coreAt c).acceptStore 0).slot = (s.coreAt c).slot := rfl
  exact State.writeTeam_spm ((State.place_setCoreAt slot _ _).trans place)
    ((State.granuleBad_setCoreAt slot _ _).trans good) _

theorem evCoreAccept_near (kind : e.kind = .phys) (plain : e.amo = none) (near : wayQueue c e.addr = none)
    (awake : s.stackQueue e.addr = none) (free : s.lineHeld e.addr = false)
    (good : s.lineFault e.addr (s.sealFor e.buf) = none) : evCoreAccept c s =
      some (((s.setCoreAt c ((s.coreAt c).acceptStore 0)).sealOver e.addr
        (Memory.writeBytes s.mem e.addr (leBytes (sizeBytes e.size) e.data.toNat)) (s.sealFor e.buf)).countBuddy
          e.addr) := by
  obtain ⟨-, -, phys⟩ := evCoreAccept_oldest stores released unsent
  have here : e.acceptedFar c = false := by rw [StoreEntry.acceptedFar, plain]; rfl
  have item : e.item s c = .store e (s.sealFor e.buf) := by rw [StoreEntry.item, plain]
  rw [phys kind, here, item]
  exact State.depart_store (s := s.setCoreAt c ((s.coreAt c).acceptStore 0)) near awake free good

/-- R327: an atomic without reply whose way leads over a gateway stays in the buffer, marked as sent. -/
theorem evCoreAccept_far {a b : DieId} (kind : e.kind = .phys) (atomic : e.amo.isSome)
    (far : wayQueue c e.addr = some (.gateway a b)) : evCoreAccept c s =
      some ((s.setCoreAt c { s.coreAt c with stores := { e with sent := true } :: es }).enqueue (.gateway a b) c
        (e.item s c)) := by
  obtain ⟨-, -, phys⟩ := evCoreAccept_oldest stores released unsent
  have there : e.acceptedFar c = true := by rw [StoreEntry.acceptedFar, atomic, far]; rfl
  rw [phys kind, if_pos there, State.depart, far]

end Accept

/-! ## An atomic without reply at its home (R327) -/

/-- Where no request queues at an address, none does with nothing under way. -/
theorem State.stackQueue_no_transit {s : State} {pa : Nat} (awake : s.stackQueue pa = none) :
    { s with transit := [] }.stackQueue pa = none := by
  unfold State.stackQueue at awake ⊢
  cases home : homeOf pa with
  | t1 st =>
    simp only [home, ite_eq_right_iff, reduceCtorEq, imp_false, Bool.or_eq_true, not_or] at awake
    obtain ⟨up, -⟩ := awake
    simp only [List.any_nil, Bool.or_false, if_neg up]
  | _ => rfl

/-- An atomic without reply that its home has taken leaves the buffer in which it is the oldest entry. -/
theorem State.homeTook_oldest {s : State} {y : Transit} {o : ShipOp} {e : StoreEntry} {es : List StoreEntry}
    (item : y.item = .ship o) (silent : o.reply = none) (stores : (s.coreAt y.core).stores = e :: es)
    (sent : e.sent = true) : s.homeTook y = s.setCoreAt y.core ((s.coreAt y.core).acceptStore 0) := by
  simp only [State.homeTook, item, silent, stores, firstAt, sent, Option.isSome_none, Bool.false_eq_true, if_false,
    if_true]

/-- A gateway brings its head, the one request under way, to an awake home. -/
theorem advance_gateway_ship {s : State} {a b : DieId} {y : Transit} {o : ShipOp} (only : s.transit = [y])
    (queue : y.queue = .gateway a b) (item : y.item = .ship o) (awake : s.stackQueue o.pa = none) :
    s.advance (.gateway a b) = some ({ s with transit := [], ships := s.ships ++ [o] }.homeTook y) := by
  have popped : s.pop (.gateway a b) = { s with transit := [] } := by
    simp only [State.pop, only, dropFirst, queue, beq_self_eq_true, if_true]
  simp only [State.advance, only, List.find?_cons, queue, beq_self_eq_true, item, reduceCtorEq, if_false, popped,
    State.reachHome, TransitItem.pa, State.stackQueue_no_transit awake, State.accepted, State.arrive, Option.map_some]

/-! ## A waiting load is served (R51, R134) -/

/-- A doubleword load that waits in no queue and meets no fault delivers what its home holds. -/
theorem exec_loadServed_double {s : State} {c : CoreId} {ld : PendLoad} (waits : (s.coreAt c).wait = .load ld)
    (size : ld.size = 3) (unqueued : ∀ x ∈ s.transit, x.core ≠ c) (free : s.lineHeld ld.pa = false)
    (awake : s.awake ld.pa = true) (good : s.lineFault ld.pa ld.under = none) :
    exec (.loadServed c) s =
      .next ((s.countBuddy ld.pa).setCoreAt c ((s.coreAt c).deliver ld.dst 3 (s.readPhys ld.pa 8))) := by
  have no_mark : s.transit.find? (fun t => t.core == c && t.item == .loadMark) = none := by
    rw [List.find?_eq_none]
    intro x hx
    simp [unqueued x hx]
  change fire s (evLoadServed c s) = _
  simp only [evLoadServed, waits, no_mark, serveLoad, free, awake, good, size, Bool.not_true, Bool.or_self,
    Bool.false_eq_true, if_false, fire, Option.getD_some]
  rfl

/-- A delivery of a doubleword to g[d] retires the load and writes that register alone. -/
theorem Core.deliver_double (k : Core) (d : BitVec 5) (v : Nat) :
    let k' := k.deliver (.g d false) 3 v
    k'.readG d = (if d = 0 then 0 else .ofNat 64 v) ∧ (∀ r, r ≠ d → k'.readG r = k.readG r) ∧
      k' = k.completed (k.pc + 4) { k.regs with g := k'.regs.g } k.csr := by
  intro k'
  have delivered : k' = (k.writeG d (.ofNat 64 v)).retire := by
    rw [← extendLoad_double]; rfl
  rw [delivered]
  refine ⟨?_, fun r hr => Core.readG_writeG_ne k _ hr, ?_⟩
  · split
    · next zero => rw [zero]; rfl
    · next nonzero => exact Core.readG_writeG_self k _ nonzero
  · rw [Core.writeG_eq]; rfl

/-! ## The obligation -/

/-- Settles O13: each event is the equation above that says what it makes of the state. -/
theorem storesDrainAndLoadsAreServed : Obligations.StoresDrainAndLoadsAreServed := by
  unfold Obligations.StoresDrainAndLoadsAreServed
  refine ⟨?_, fun s c e es stores => ⟨fun unreleased behind => ?_, ?_, ?_, ?_⟩, ?_⟩
  · intro s t d a d' a' i i' ea lo hi aligned room stored same
    exact load_after_store lo hi aligned room stored same
  · refine ⟨_, exec_storeRelease_oldest stores unreleased behind, ?_, SameMemory.setCoreAt rfl rfl, ?_⟩
    · rw [State.coreAt_setCoreAt_self]
    · rw [State.coreAt_setCoreAt_self]
  · intro rest stored released unsent
    have left : (s.coreAt c).acceptStore 0 = rest := Core.acceptStore_oldest stores
    refine ⟨fun kind lo wf => ?_, fun q kind place good wf => ?_, fun kind plain near awake free good wf => ?_⟩
    · refine ⟨_, exec_storeAccept_core (evCoreAccept_tcm stores released unsent kind), ?_, ?_⟩
      · rw [State.coreAt_setCoreAt_self]
        exact fun x => Memory.read_writeBytes_leBytes wf _ _ x _
      · rw [State.coreAt_setCoreAt_self, left]
    · refine ⟨_, exec_storeAccept_core (evCoreAccept_spm stores released unsent kind place good), ?_, ?_⟩
      · rw [State.cl_setCl_self]
        exact fun x => Memory.read_writeBytes_leBytes wf _ _ x _
      · rw [State.cl_setCl_self, left]
    · refine ⟨_, exec_storeAccept_core (evCoreAccept_near stores released unsent kind plain near awake free good), ?_, ?_,
        rfl, rfl⟩
      · exact fun x => Memory.read_writeBytes_leBytes wf _ _ x _
      · rw [left]; rfl
  · intro a b op released unsent kind atomic far
    obtain ⟨o, item, silent, function, place⟩ := e.item_of_atomic atomic s c
    refine ⟨_, s.request (.gateway a b) c (e.item s c), o, exec_storeAccept_core (evCoreAccept_far stores released
      unsent kind (by rw [atomic]; rfl) far), rfl, rfl, rfl, item, silent, function, place, ?_, rfl, rfl⟩
    exact congrArg Core.stores (State.coreAt_setCoreAt_self s c _)
  · intro a b y o sent only queue core item silent awake
    subst core
    have took := State.homeTook_oldest (s := { s with transit := [], ships := s.ships ++ [o] }) item silent stores sent
    refine ⟨_, congrArg (fire s) (advance_gateway_ship only queue item awake), ?_⟩
    rw [Option.getD_some, took]
    refine ⟨rfl, rfl, ?_, rfl, rfl⟩
    rw [State.coreAt_setCoreAt_self]
    exact congrArg Core.stores (Core.acceptStore_oldest (k := s.coreAt y.core) stores)
  · intro s c ld d waits dst size unqueued free awake good
    refine ⟨_, exec_loadServed_double waits size unqueued free awake good, ?_⟩
    rw [State.coreAt_setCoreAt_self, dst]
    obtain ⟨value, others, core⟩ := (s.coreAt c).deliver_double d (s.readPhys ld.pa 8)
    exact ⟨value, others, core, fun k hk => State.coreAt_setCoreAt_ne _ _ hk, rfl, rfl⟩

end Sys2Proof.Machine

/-! # Requests and grants of the Claim Unit (spec/08 R176, R178, R179, R182, R183, R185)

A request is decided in a state that differs from the one of its issue in the record of the decision alone, which neither
the checks nor the banker read (`State.noteDecision`). From there an acquire that passes its checks is a grant or an
entry of the blocked list, and a grant is a change of one team's map. -/

namespace Sys2Proof.Machine

/-! ## The record of a decision (R179) -/

theorem State.cl_noteDecision (s : State) (q : ClusterId) :
    ∃ d, s.noteDecision.cl q = { s.cl q with decided := d } := by
  by_cases h : q = s.curCluster
  · exact ⟨_, by rw [h]; exact State.cl_setCl_self s _ _⟩
  · exact ⟨(s.cl q).decided, State.cl_setCl_ne s _ h⟩

section Decision
variable (s : State) (q : ClusterId)

@[simp] theorem State.noteDecision_cur : s.noteDecision.cur = s.cur := rfl
@[simp] theorem State.core_noteDecision : s.noteDecision.core = s.core := rfl

@[simp] theorem State.team_noteDecision (t : Slot) : s.noteDecision.team q t = s.team q t := by
  obtain ⟨_, h⟩ := s.cl_noteDecision q
  rw [State.team, h]; rfl

@[simp] theorem State.teamOf_noteDecision (c : CoreId) : s.noteDecision.teamOf c = s.teamOf c :=
  congrArg (s.coreAt c).slot.bind (funext (s.team_noteDecision (clusterOf c)))

@[simp] theorem State.blocked_noteDecision : (s.noteDecision.cl q).blocked = (s.cl q).blocked := by
  obtain ⟨_, h⟩ := s.cl_noteDecision q
  rw [h]

@[simp] theorem State.takePages_noteDecision (n : Nat) : (s.noteDecision.cl q).takePages n = (s.cl q).takePages n := by
  obtain ⟨_, h⟩ := s.cl_noteDecision q
  rw [h]; rfl

@[simp] theorem State.freeBlocks_noteDecision : (s.noteDecision.cl q).freeBlocks = (s.cl q).freeBlocks := by
  obtain ⟨_, h⟩ := s.cl_noteDecision q
  rw [h]; rfl

@[simp] theorem State.allocation_noteDecision (t : Slot) : s.noteDecision.allocation q t = s.allocation q t := by
  have boards : (s.noteDecision.cl q).boards t = (s.cl q).boards t := by
    obtain ⟨_, h⟩ := s.cl_noteDecision q
    rw [h]; rfl
  rw [State.allocation, State.allocation, State.team_noteDecision, boards]; rfl

@[simp] theorem State.bankerDecide_noteDecision (t : Slot) (req : Counts) :
    s.noteDecision.bankerDecide q t req = s.bankerDecide q t req := by
  have teams : s.noteDecision.team q = s.team q := funext (s.team_noteDecision q)
  have allocations : s.noteDecision.allocation q = s.allocation q := funext (s.allocation_noteDecision q)
  unfold State.bankerDecide State.available State.resident State.maxClaim
  rw [teams, allocations]

theorem SameMemory.noteDecision : SameMemory s s.noteDecision := SameMemory.setCl rfl rfl

end Decision

/-- A request at its turn is decided (R179). -/
theorem claimTurn_of_due {s : State} (turn : s.claimLate = false) (go : State → Result) :
    claimTurn s go = go s.noteDecision := by
  rw [claimTurn, turn]; rfl

theorem State.teamOf_cur {s : State} {k : Slot} {x : Team} (slot : s.core.slot = some k)
    (team : s.team (clusterOf s.cur) k = some x) : s.teamOf s.cur = some x := by
  rw [State.teamOf, show (s.coreAt s.cur).slot = some k from slot]; exact team

theorem SameMemory.setTeam (s : State) (q : ClusterId) (k : Slot) (x : Option Team) : SameMemory s (s.setTeam q k x) :=
  SameMemory.setCl rfl rfl

theorem SameMemory.retire (s : State) : SameMemory s s.retire := SameMemory.setCore rfl rfl

/-! ## claim (R182) -/

theorem exec_claim_declared {s : State} {a : BitVec 5} {k : Slot} {x : Team} (turn : s.claimLate = false)
    (slot : s.core.slot = some k) (team : s.team (clusterOf s.cur) k = some x)
    (defined : vectorReserved (s.g a).toNat = false) (first : x.claim = none)
    (fits : (Counts.ofVector (s.g a).toNat).overTotal = none) :
    exec (.claim a) s = .next (s.noteDecision.setTeam (clusterOf s.cur) k
      (some { x with claim := some (.ofVector (s.g a).toNat) })).retire := by
  have team' : s.teamOf s.cur = some x := State.teamOf_cur slot team
  have word : s.noteDecision.g a = s.g a := rfl
  change claimTurn s (declareClaim a) = _
  simp only [claimTurn_of_due turn, declareClaim, word, State.core_noteDecision, State.noteDecision_cur,
    State.teamOf_noteDecision, slot, team', defined, first, fits,
    Option.isSome_none, Bool.false_eq_true, if_false]
  rfl

/-! ## acq and acq.t (R183) -/

/-- A request of the current core for the units that `w` names passes the checks of acq and acq.t (R180, R183). -/
structure State.Passes (s : State) (w : Word) (k : Slot) (x : Team) (max : Counts) : Prop where
  slot : s.core.slot = some k
  team : s.team (clusterOf s.cur) k = some x
  wellFormed : malformed w = false
  unmapped : (Request.of w).overlaps x = false
  claim : x.claim = some max
  within : overClaim (s.allocation (clusterOf s.cur) k) (Request.of w).counts max = none

theorem State.Passes.noteDecision {s : State} {w : Word} {k : Slot} {x : Team} {max : Counts}
    (h : s.Passes w k x max) : s.noteDecision.Passes w k x max where
  slot := h.slot
  team := (s.team_noteDecision _ k).trans h.team
  wellFormed := h.wellFormed
  unmapped := h.unmapped
  claim := h.claim
  within := by rw [State.allocation_noteDecision]; exact h.within

theorem State.Passes.acquire_eq {s : State} {w : Word} {k : Slot} {x : Team} {max : Counts} (h : s.Passes w k x max)
    (i : Instr) (go : Slot → Request → Result) : acquire s i w go = go k (.of w) := by
  have team : s.teamOf s.cur = some x := State.teamOf_cur h.slot h.team
  have within : overClaim (s.allocation s.curCluster k) (Request.of w).counts max = none := h.within
  simp only [acquire, h.slot, team, h.wellFormed, h.unmapped, h.claim, within, Bool.or_self, Bool.false_eq_true, if_false]

section Acquire
variable {s : State} {a : BitVec 5} {k : Slot} {x : Team} {max : Counts} (turn : s.claimLate = false)
  (passes : s.Passes (s.g a) k x max)
include turn passes

theorem exec_acq_granted (granted : s.bankerDecide (clusterOf s.cur) k (Request.of (s.g a)).counts = 0) :
    exec (.acq a) s = .next (s.noteDecision.grantUnits (clusterOf s.cur) k (.of (s.g a))).retire := by
  change execAcq a s = _
  rw [execAcq, claimTurn_of_due turn]
  refine (passes.noteDecision.acquire_eq _ _).trans (if_pos ?_)
  rw [State.bankerDecide_noteDecision]; exact granted

theorem exec_acq_blocked (refused : s.bankerDecide (clusterOf s.cur) k (Request.of (s.g a)).counts ≠ 0) :
    exec (.acq a) s = .next (s.noteDecision.block k (Request.of (s.g a)).counts (.units (s.g a))) := by
  change execAcq a s = _
  rw [execAcq, claimTurn_of_due turn]
  refine (passes.noteDecision.acquire_eq _ _).trans (if_neg ?_)
  rw [State.bankerDecide_noteDecision]; exact refused

theorem exec_acqT_decided (d : BitVec 5) : exec (.acqT d a) s =
    let ruling := s.bankerDecide (clusterOf s.cur) k (Request.of (s.g a)).counts
    finishG (if ruling = 0 then s.noteDecision.grantUnits (clusterOf s.cur) k (.of (s.g a)) else s.noteDecision) d
      (.ofNat 64 ruling) := by
  change execAcqT d a s = _
  rw [execAcqT, claimTurn_of_due turn, ← State.bankerDecide_noteDecision]
  exact passes.noteDecision.acquire_eq _ _

end Acquire

/-! ## What a grant maps (R185) -/

section Grant
variable (x : Cluster) (t : Slot)

theorem Cluster.teams_mapTeam_self (f : Team → Team) : (x.mapTeam t f).teams[t] = (x.teams[t]).map f := by
  simp [Cluster.mapTeam]

theorem Cluster.grant_pages {r : Request} (cls : r.cls = 1) : x.grant t r =
    x.mapTeam t fun y => { y with pages := y.pages ++ pairUp r.base (x.takePages r.count) } := if_pos cls

theorem Cluster.grant_blocks {r : Request} (cls : r.cls = 3) : x.grant t r =
    x.mapTeam t fun y => { y with blocks := y.blocks ++ pairUp r.base (x.freeBlocks.take r.count) } := by
  rw [Cluster.grant, if_neg (by rw [cls]; decide), if_pos cls]

end Grant

section GrantUnits
variable {s : State} {q : ClusterId} {k : Slot} {x : Team} {r : Request}

@[simp] theorem State.team_retire (s : State) (q : ClusterId) (k : Slot) : s.retire.team q k = s.team q k := rfl

@[simp] theorem State.team_setCoreAt (s : State) (c : CoreId) (y : Core) (q : ClusterId) (k : Slot) :
    (s.setCoreAt c y).team q k = s.team q k := rfl

theorem State.team_mapTeam (f : Team → Team) (team : s.team q k = some x) :
    (s.setCl q ((s.cl q).mapTeam k f)).team q k = some (f x) := by
  rw [State.team, State.cl_setCl_self, Cluster.teams_mapTeam_self, show (s.cl q).teams[k] = some x from team]; rfl

theorem State.team_grantUnits_pages (cls : r.cls = 1) (team : s.team q k = some x) : (s.grantUnits q k r).team q k =
    some { x with pages := x.pages ++ pairUp r.base ((s.cl q).takePages r.count) } := by
  rw [State.grantUnits, Cluster.grant_pages _ _ cls, State.team_mapTeam _ team]

theorem State.team_grantUnits_blocks (cls : r.cls = 3) (team : s.team q k = some x) : (s.grantUnits q k r).team q k =
    some { x with blocks := x.blocks ++ pairUp r.base ((s.cl q).freeBlocks.take r.count) } := by
  rw [State.grantUnits, Cluster.grant_blocks _ _ cls, State.team_mapTeam _ team]

theorem SameMemory.grantPages (s : State) (q : ClusterId) (k : Slot) (cls : r.cls = 1) :
    SameMemory s (s.grantUnits q k r) := by
  rw [State.grantUnits, Cluster.grant_pages _ _ cls]
  exact SameMemory.setCl rfl rfl

end GrantUnits

/-- Settles O32: by the banker's ruling, an acquire is a grant or an entry of the blocked list. -/
theorem claimsAndAcquiresComplete : Obligations.ClaimsAndAcquiresComplete := by
  unfold Obligations.ClaimsAndAcquiresComplete
  intro s d a k x max q v r ruling mine slot team turn
  refine ⟨fun defined first fits => ?claim, fun wellFormed cls unmapped claim within => ?acquire⟩
  case claim =>
    refine ⟨_, exec_claim_declared turn slot team defined first fits, ?_, (State.retire_wroteNothing _).core, ?_⟩
    · rw [State.team_retire, State.team_setTeam_self]
    · exact (SameMemory.noteDecision s).trans ((SameMemory.setTeam _ q k _).trans (SameMemory.retire _))
  case acquire =>
    have passes : s.Passes (s.g a) k x max := ⟨slot, team, wellFormed, unmapped, claim, within⟩
    have team' : s.noteDecision.team q k = some x := (s.team_noteDecision q k).trans team
    have mapped : (s.noteDecision.grantUnits q k r).team q k = some { x with pages := mine } := by
      rw [State.team_grantUnits_pages cls team', State.takePages_noteDecision]
    have test := exec_acqT_decided turn passes d
    refine ⟨fun granted => ⟨?_, ?_⟩, fun refused => ⟨?_, ?_⟩⟩
    · refine ⟨_, exec_acq_granted turn passes granted, mapped, (State.retire_wroteNothing _).core, ?_⟩
      exact (SameMemory.noteDecision s).trans ((SameMemory.grantPages _ q k cls).trans (SameMemory.retire _))
    · obtain ⟨t, done, wrote⟩ := finishG_wroteG (s.noteDecision.grantUnits q k r) d 0
      refine ⟨t, ?_, ?_, wrote.value.trans (ite_self 0), ?_⟩
      · rw [test, ← done]
        change finishG (if ruling = 0 then _ else _) d (.ofNat 64 ruling) = _
        rw [if_pos granted, granted]; rfl
      · rw [wrote.rest]; exact mapped
      · rw [State.pc, wrote.core]; rfl
    · refine ⟨_, ⟨corenoOf s.cur, k, r.counts, .units (s.g a)⟩, exec_acq_blocked turn passes refused, ?_, rfl, rfl, rfl,
        ?_, ?_, ?_, ?_⟩
      · rw [State.block, State.cl_setCore]
        exact (congrArg Cluster.blocked (State.cl_setCl_self _ _ _)).trans
          (congrArg (· ++ _) (State.blocked_noteDecision s q))
      · rw [State.block, State.core_setCore]
      · rw [State.block, State.pc, State.core_setCore]; rfl
      · rw [State.block, State.core_setCore]; rfl
      · rw [State.block, State.team, State.cl_setCore]
        exact (congrArg (fun y : Cluster => y.teams[k]) (State.cl_setCl_self _ _ _)).trans team'
    · have wrote := finishG_wroteG s.noteDecision d (.ofNat 64 ruling)
      rw [test]
      change ∃ t, finishG (if ruling = 0 then _ else _) d (.ofNat 64 ruling) = _ ∧ _
      rwa [if_neg refused]

end Sys2Proof.Machine

/-! # Grants take the lowest units (spec/08 R172, R185, notes/assumptions/61)

The pages of a grant are the first of the free ones in the order in which they are taken (`Cluster.openPages`), the
blocks the first of the free ones in ascending order. In a sorted list, whatever is taken comes before whatever is left
(`pairwise_take_of_not_mem`). -/

namespace Sys2Proof.Machine

/-! ## Team indices and units -/

theorem pairUp_indices : ∀ (l : List Nat) (base : Nat), (pairUp base l).map (·.1) = (List.range l.length).map (base + ·)
  | [], _ => rfl
  | p :: l, base => by
    rw [pairUp, List.map_cons, pairUp_indices l, ← List.range'_eq_map_range, ← List.range'_eq_map_range, List.length_cons,
      List.range'_succ]

theorem pairUp_units : ∀ (l : List Nat) (base : Nat), (pairUp base l).map (·.2) = l
  | [], _ => rfl
  | p :: l, base => by rw [pairUp, List.map_cons, pairUp_units l]

theorem mem_of_mem_pairUp {l : List Nat} {base : Nat} {e : Nat × Nat} (h : e ∈ pairUp base l) : e.2 ∈ l := by
  rw [← pairUp_units l base]
  exact List.mem_map_of_mem h

/-! ## Free units (R185) -/

/-- No team of a cluster maps a physical unit in the map that `maps` picks. -/
def State.Unmapped (s : State) (q : ClusterId) (maps : Team → List (Nat × Nat)) (u : Nat) : Prop :=
  ∀ m y, s.team q m = some y → ∀ e ∈ maps y, e.2 ≠ u

/-- A unit is unmapped where the test over all teams of the cluster fails. -/
theorem State.unmapped_iff (s : State) (q : ClusterId) (maps : Team → List (Nat × Nat)) (u : Nat) :
    s.Unmapped q maps u ↔ ((s.cl q).teams.any fun t => t.any fun y => (maps y).any (·.2 == u)) = false := by
  rw [Vector.any_eq_false]
  constructor
  · intro unmapped i hi used
    obtain ⟨y, team, used⟩ := (Option.any_eq_true _ _).mp used
    obtain ⟨e, he, same⟩ := List.any_eq_true.mp used
    exact unmapped ⟨i, hi⟩ y team e he (beq_iff_eq.mp same)
  · intro unused m y team e he same
    exact unused m.val m.isLt ((Option.any_eq_true _ _).mpr ⟨y, team, List.any_eq_true.mpr ⟨e, he, beq_iff_eq.mpr same⟩⟩)

theorem State.mem_freePages_iff (s : State) (q : ClusterId) (u : Nat) : u ∈ (s.cl q).freePages ↔
    u < 128 ∧ s.Unmapped q Team.pages u ∧ ((s.cl q).group (u / 16)).holder = none := by
  rw [s.unmapped_iff q, Cluster.freePages, List.mem_filter, List.mem_range, Cluster.pageFree, Bool.and_eq_true,
    Option.isNone_iff_eq_none, Bool.not_eq_true', and_comm (a := _ = none)]
  rfl

theorem State.mem_freeBlocks_iff (s : State) (q : ClusterId) (u : Nat) :
    u ∈ (s.cl q).freeBlocks ↔ u < 256 ∧ s.Unmapped q Team.blocks u := by
  rw [s.unmapped_iff q, Cluster.freeBlocks, List.mem_filter, List.mem_range, Bool.not_eq_true']
  rfl

theorem Cluster.reserved_iff (x : Cluster) (u : Nat) : x.reserved u = true ↔ ∃ e ∈ x.reloc, e.2 = some u := by
  simp only [Cluster.reserved, List.any_eq_true, beq_iff_eq]

/-! ## What a grant takes -/

/-- In a list that is sorted by `R`, every element taken comes before every one left. -/
theorem pairwise_take_of_not_mem {α : Type} {R : α → α → Prop} {l : List α} (sorted : l.Pairwise R) {n : Nat} {p u : α}
    (taken : p ∈ l.take n) (listed : u ∈ l) (left : u ∉ l.take n) : R p u := by
  rw [← List.take_append_drop n l] at sorted listed
  exact (List.pairwise_append.mp sorted).2.2 p taken u ((List.mem_append.mp listed).resolve_left left)

/-- Distinct members of a list, as many as are to be taken, can be taken. -/
theorem length_take_of_subset {l us : List Nat} (distinct : us.Nodup) (sub : us ⊆ l) :
    (l.take us.length).length = us.length :=
  List.length_take_of_le (distinct.length_le_of_subset sub)

section Pages
variable (x : Cluster)

/-- The order in which pages are taken: ascending, the targets of relocations under way last (notes/assumptions/61). -/
def Cluster.TakenBefore (p u : Nat) : Prop :=
  (p < u ∧ (x.reserved p = true → x.reserved u = true)) ∨ (x.reserved u = true ∧ ¬ x.reserved p = true)

theorem Cluster.freePages_sorted : x.freePages.Pairwise (· < ·) := List.pairwise_lt_range.filter _

theorem Cluster.openPages_sorted : x.openPages.Pairwise x.TakenBefore := by
  refine List.pairwise_append.mpr ⟨?_, ?_, fun p hp u hu => ?_⟩
  · refine (x.freePages_sorted.filter _).imp_of_mem fun {p u} hp _ lt => .inl ⟨lt, fun kept => ?_⟩
    have open_p : x.reserved p = false := by simpa using (List.mem_filter.mp hp).2
    exact absurd kept (by rw [open_p]; exact Bool.false_ne_true)
  · exact (x.freePages_sorted.filter _).imp_of_mem fun _ hu lt => .inl ⟨lt, fun _ => (List.mem_filter.mp hu).2⟩
  · have open_p : x.reserved p = false := by simpa using (List.mem_filter.mp hp).2
    exact .inr ⟨(List.mem_filter.mp hu).2, by rw [open_p]; exact Bool.false_ne_true⟩

theorem Cluster.openPages_perm : x.openPages.Perm x.freePages :=
  List.perm_append_comm.trans (List.filter_append_perm x.reserved x.freePages)

/-- A grant takes the first of the free pages in the order in which they are taken. -/
theorem Cluster.takePages_perm (n : Nat) : (x.takePages n).Perm (x.openPages.take n) := by
  have distinct : x.freePages.Nodup := List.nodup_range.filter _
  have distinct' : x.openPages.Nodup := x.openPages_perm.nodup_iff.mpr distinct
  refine (List.perm_ext_iff_of_nodup (distinct.filter _) (distinct'.sublist (List.take_sublist n _))).mpr fun u => ?_
  rw [List.mem_filter, List.contains_iff_mem, and_iff_right_iff_imp]
  exact fun taken => x.openPages_perm.subset (List.mem_of_mem_take taken)

theorem Cluster.length_takePages {us : List Nat} (distinct : us.Nodup) (free : us ⊆ x.freePages) :
    (x.takePages us.length).length = us.length := by
  rw [(x.takePages_perm _).length_eq]
  exact length_take_of_subset distinct fun u hu => x.openPages_perm.mem_iff.mpr (free hu)

/-- Every free page that a grant leaves stands behind each that it takes. -/
theorem Cluster.takePages_before {n p u : Nat} (taken : p ∈ x.takePages n) (free : u ∈ x.freePages)
    (left : u ∉ x.takePages n) : x.TakenBefore p u := by
  rw [(x.takePages_perm n).mem_iff] at taken left
  exact pairwise_take_of_not_mem x.openPages_sorted taken (x.openPages_perm.mem_iff.mpr free) left

theorem Cluster.takePages_sorted (n : Nat) : (x.takePages n).Pairwise (· < ·) := x.freePages_sorted.filter _

theorem Cluster.freeBlocks_sorted : x.freeBlocks.Pairwise (· < ·) := List.pairwise_lt_range.filter _

end Pages

/-- A well-formed request for no board is one for pages or one for blocks (R180). -/
theorem Request.pages_or_blocks {w : Word} (wellFormed : malformed w = false) (no_board : (Request.of w).cls ≠ 2) :
    (Request.of w).cls = 1 ∨ (Request.of w).cls = 3 := by
  have four : (Request.of w).cls < 4 := Nat.mod_lt _ (by decide)
  have used : (Request.of w).cls ≠ 0 := by
    intro none
    simp [malformed, none] at wellFormed
  omega

/-- Settles O51: the units that a grant takes are the first of the free ones in the order of its class. -/
theorem grantsTakeTheLowestUnits : Obligations.GrantsTakeTheLowestUnits := by
  unfold Obligations.GrantsTakeTheLowestUnits
  intro s a k x max q r old unmapped free kept turn slot team wellFormed no_board fresh claim within granted enough
  obtain ⟨l, distinct, count, l_free⟩ := enough
  have team' : s.noteDecision.team q k = some x := (s.team_noteDecision q k).trans team
  have done := exec_acq_granted turn ⟨slot, team, wellFormed, fresh, claim, within⟩ granted
  rcases Request.pages_or_blocks wellFormed no_board with cls | cls
  · have free_iff (u : Nat) : free u ↔ u ∈ (s.cl q).freePages := by
      rw [s.mem_freePages_iff]; simp only [free, unmapped, r, cls, if_true]; rfl
    have kept_iff (u : Nat) : kept u ↔ (s.cl q).reserved u = true := by
      rw [Cluster.reserved_iff]; exact and_iff_right cls
    have length : ((s.cl q).takePages r.count).length = r.count := by
      rw [← count, (s.cl q).length_takePages distinct fun u hu => (free_iff u).mp (l_free u hu)]
    refine ⟨_, pairUp r.base ((s.cl q).takePages r.count), _, done, State.team_grantUnits_pages cls team', ?_, ?_, ?_,
      fun e he => ?_, fun u hu left e he => ?_⟩
    · rw [State.takePages_noteDecision]
      simp only [old, r, cls, if_true]; rfl
    · rw [pairUp_indices, length]
    · rw [pairUp_units]; exact (s.cl q).takePages_sorted _
    · exact (free_iff _).mpr (List.mem_filter.mp (mem_of_mem_pairUp he)).1
    · rw [pairUp_units] at left
      rw [kept_iff, kept_iff]
      exact (s.cl q).takePages_before (mem_of_mem_pairUp he) ((free_iff u).mp hu) left
  · have other : r.cls ≠ 1 := by rw [cls]; decide
    have free_iff (u : Nat) : free u ↔ u ∈ (s.cl q).freeBlocks := by
      rw [s.mem_freeBlocks_iff]; simp only [free, unmapped, other, if_false]; rfl
    have not_kept (u : Nat) : ¬ kept u := fun h => other h.1
    have length : ((s.cl q).freeBlocks.take r.count).length = r.count := by
      rw [← count, length_take_of_subset distinct fun u hu => (free_iff u).mp (l_free u hu)]
    refine ⟨_, pairUp r.base ((s.cl q).freeBlocks.take r.count), _, done, State.team_grantUnits_blocks cls team', ?_, ?_,
      ?_, fun e he => ?_, fun u hu left e he => .inl ⟨?_, fun h => absurd h (not_kept _)⟩⟩
    · rw [State.freeBlocks_noteDecision]
      simp only [old, other, if_false]; rfl
    · rw [pairUp_indices, length]
    · rw [pairUp_units]; exact (s.cl q).freeBlocks_sorted.sublist (List.take_sublist _ _)
    · exact (free_iff _).mpr (List.mem_of_mem_take (mem_of_mem_pairUp he))
    · rw [pairUp_units] at left
      exact pairwise_take_of_not_mem (s.cl q).freeBlocks_sorted (mem_of_mem_pairUp he) ((free_iff u).mp hu) left

end Sys2Proof.Machine

/-! # Lanes (spec/08 R187, R188)

vclaim and vreneg set the lots of their core, from what the core holds up to what the banker grants, and answer VLEN.
What they make of a state is thus that state with another core, whose VLEN is written to g[d] (`AnswersLanes`). -/

namespace Sys2Proof.Machine

/-! ## Lots -/

/-- A core whose lots are set holds that many, VLEN being eight times the number. -/
theorem Core.setLots_vlen (k : Core) {n : Nat} (h : n < 16) : (k.setLots n).csr.vlen.toNat = 8 * n := by
  change (BitVec.ofNat 7 (8 * n)).toNat = 8 * n
  rw [BitVec.toNat_ofNat]; omega

theorem Core.lots_setLots (k : Core) {n : Nat} (h : n < 16) : (k.setLots n).lots = n := by
  rw [Core.lots, k.setLots_vlen h, Nat.mul_div_cancel_left n (by decide)]

theorem Core.lots_lt (k : Core) : k.lots < 16 := by
  have := k.csr.vlen.isLt
  rw [Core.lots]; omega

/-- Growth starts from the lots that a core has and stays within its bound. -/
theorem growTo_bounds (s : State) (q : ClusterId) (t : Slot) (cur : Nat) :
    ∀ hi, cur ≤ growTo s q t cur hi ∧ growTo s q t cur hi ≤ max cur hi
  | 0 => ⟨Nat.le_refl _, Nat.le_max_left _ _⟩
  | h + 1 => by
    have ih := growTo_bounds s q t cur h
    unfold growTo
    split
    · exact ⟨Nat.le_refl _, Nat.le_max_left _ _⟩
    · split
      · omega
      · omega

/-! ## The answer of vclaim and vreneg -/

/-- The current core's instruction completed with the core `k`: VLEN of `k` is written to g[d], the limits are those of
`k`, and every other register and everything outside the core is as before. -/
structure AnswersLanes (s t : State) (d : BitVec 5) (k : Core) : Prop where
  vlen : t.core.csr.vlen = k.csr.vlen
  minLots : t.core.minLots = k.minLots
  maxLots : t.core.maxLots = k.maxLots
  value : t.g d = if d = 0 then 0 else k.csr.vlen.setWidth 64
  others : ∀ r, r ≠ d → t.g r = s.g r
  pc : t.pc = s.pc + 4
  rest : t = s.setCore t.core

/-- An instruction that answers VLEN after its core has become `k`, which has the registers and the pc of before. -/
theorem finishG_answersLanes (s : State) (d : BitVec 5) {k : Core} (regs : k.regs = s.core.regs) (pc : k.pc = s.core.pc) :
    ∃ t, finishG (s.setCore k) d (zext k.csr.vlen) = .next t ∧ AnswersLanes s t d k := by
  obtain ⟨t, done, wrote⟩ := finishG_wroteG (s.setCore k) d (zext k.csr.vlen)
  have core := wrote.core
  rw [State.core_setCore] at core
  have same (r : BitVec 5) : (s.setCore k).g r = s.g r := by
    rw [State.g, State.core_setCore, Core.readG, regs]; rfl
  refine ⟨t, done, ?_, ?_, ?_, wrote.value, fun r hr => (wrote.others r hr).trans (same r), ?_, ?_⟩
  · rw [core]; rfl
  · rw [core]; rfl
  · rw [core]; rfl
  · rw [State.pc, core]
    change (s.setCore k).core.pc + 4 = s.core.pc + 4
    rw [State.core_setCore, pc]
  · exact wrote.rest.trans (State.setCore_setCore s k _)

/-- Growth of the current core, from lots of its own, changes its lots alone. -/
theorem State.growLanes_setCore (s : State) (k : Core) (t : Slot) : ∃ n, (s.setCore k).growLanes s.cur t =
    s.setCore (k.setLots n) ∧ k.lots ≤ n ∧ (n ≤ k.lots ∨ n ≤ k.maxLots) := by
  have core : (s.setCore k).coreAt s.cur = k := State.core_setCore s k
  let cap := (s.setCore k).lotCap s.cur t
  have cap_le : cap ≤ k.maxLots := by
    have upper : cap ≤ ((s.setCore k).coreAt s.cur).maxLots := Nat.min_le_left _ _
    rwa [core] at upper
  have bounds := growTo_bounds (s.setCore k) (clusterOf s.cur) t k.lots cap
  refine ⟨growTo (s.setCore k) (clusterOf s.cur) t k.lots cap, ?_, bounds.1, by omega⟩
  rw [State.growLanes, core]
  exact State.setCore_setCore s k _

/-! ## vclaim (R187) -/

/-- The limits of a vclaim are well-formed (R187). -/
theorem badLanes_eq_false_iff (lo hi : Word) : badLanes lo hi = false ↔
    lo.toNat % 8 = 0 ∧ hi.toNat % 8 = 0 ∧ lo.toNat ≤ hi.toNat ∧ hi.toNat ≤ 64 := by
  simp only [badLanes, Bool.or_eq_false_iff, bne_eq_false_iff_eq, decide_eq_false_iff_not, Nat.not_lt, and_assoc]

/-- The core as vclaim leaves it before it grows: the limits set, and no more lots than the upper one. -/
def Core.limited (k : Core) (lo hi : Nat) : Core :=
  let m := { k with minLots := lo, maxLots := hi }
  m.setLots (Nat.min m.lots hi)

theorem Core.lots_limited (k : Core) (lo hi : Nat) : (k.limited lo hi).lots = min k.lots hi :=
  Core.lots_setLots _ (Nat.lt_of_le_of_lt (Nat.min_le_left _ _) k.lots_lt)

/-- vclaim of limits within the claim, of which the core holds the lower, does nothing but grow the core so limited. -/
theorem exec_vclaim_held {s : State} {d a b : BitVec 5} {k : Slot} {y : Team} {max : Counts} (turn : s.claimLate = false)
    (slot : s.core.slot = some k) (team : s.team (clusterOf s.cur) k = some y) (retired : s.core.vq = [])
    (good : badLanes (s.g a) (s.g b) = false) (claim : y.claim = some max)
    (within : (s.g a).toNat / 8 + s.otherLots s.cur k ≤ max.lane) (held : (s.g a).toNat / 8 ≤ s.core.lots) :
    exec (.vclaim d a b) s =
      let u := (s.noteDecision.setCore (s.core.limited ((s.g a).toNat / 8) ((s.g b).toNat / 8))).growLanes s.cur k
      finishG u d (u.vlenOf s.cur) := by
  have team' : s.teamOf s.cur = some y := State.teamOf_cur slot team
  have word (r : BitVec 5) : s.noteDecision.g r = s.g r := rfl
  have others : s.noteDecision.otherLots s.cur k = s.otherLots s.cur k := by
    rw [State.otherLots, State.allocation_noteDecision]; rfl
  have fits : ¬ max.lane < (s.g a).toNat / 8 + s.noteDecision.otherLots s.cur k := by rw [others]; omega
  have empty : (!s.core.vq.isEmpty) = false := by rw [retired]; rfl
  have enough : (s.g a).toNat / 8 ≤ (s.core.limited ((s.g a).toNat / 8) ((s.g b).toNat / 8)).lots := by
    obtain ⟨_, _, ordered, _⟩ := (badLanes_eq_false_iff _ _).mp good
    rw [Core.lots_limited]; omega
  simp only [Core.limited, slot] at enough ⊢
  change claimTurn s (claimLanes d a b) = _
  simp only [claimTurn_of_due turn, claimLanes, word, good, State.core_noteDecision, State.noteDecision_cur,
    State.teamOf_noteDecision, slot, team', claim, fits, empty, State.core_setCore, enough, Bool.false_eq_true, if_false, if_true]

/-! ## vreneg (R188) -/

/-- A renegotiation that may grow sets the lots of the current core: its minimum at most, while another team's request is
blocked. -/
theorem State.renegotiate_cur {s : State} {k : Slot} (slot : s.core.slot = some k) :
    ∃ n, s.renegotiate s.cur true = s.setCore (s.core.setLots n) ∧
      (s.othersBlocked (clusterOf s.cur) k = true → n = min s.core.lots s.core.minLots) := by
  have slot' : (s.coreAt s.cur).slot = some k := slot
  cases blocked : s.othersBlocked (clusterOf s.cur) k with
  | true =>
    refine ⟨min s.core.lots s.core.minLots, ?_, fun _ => rfl⟩
    simp only [State.renegotiate, slot', blocked, if_true]; rfl
  | false =>
    have self : s.setCore s.core = s := State.setCoreAt_coreAt s s.cur
    obtain ⟨n, grown, _, _⟩ := s.growLanes_setCore s.core k
    refine ⟨n, ?_, fun h => absurd h Bool.false_ne_true⟩
    rw [self] at grown
    simp only [State.renegotiate, slot', blocked, Bool.false_eq_true, if_false, if_true, grown]

theorem exec_vreneg_due {s : State} (turn : s.claimLate = false) (retired : s.core.vq = []) (d : BitVec 5) :
    exec (.vreneg d) s =
      let u := s.noteDecision.renegotiate s.cur true
      finishG u d (u.vlenOf s.cur) := by
  have empty : (!s.core.vq.isEmpty) = false := by rw [retired]; rfl
  change execVreneg d s = _
  rw [execVreneg, empty, claimTurn_of_due turn]; rfl

/-- Settles O34: both instructions set the lots of their core (`State.growLanes_setCore`, `State.renegotiate_cur`) and
answer its VLEN. -/
theorem laneClaimsComplete : Obligations.LaneClaimsComplete := by
  unfold Obligations.LaneClaimsComplete
  intro s d a b k y max q lanes slot team retired turn
  have answers (c : Core) (regs : c.regs = s.core.regs) (pc : c.pc = s.core.pc) :=
    finishG_answersLanes s.noteDecision d (k := c) regs pc
  have vlenOf (c : Core) : (s.noteDecision.setCore c).vlenOf s.cur = zext c.csr.vlen :=
    congrArg (fun x : Core => zext x.csr.vlen) (State.core_setCore s.noteDecision c)
  refine ⟨fun lo8 hi8 ordered pool claim within held => ?vclaim, ?vreneg⟩
  case vclaim =>
    let c := s.core.limited ((s.g a).toNat / 8) ((s.g b).toNat / 8)
    have lots : c.lots = min s.core.lots ((s.g b).toNat / 8) := Core.lots_limited _ _ _
    have good : badLanes (s.g a) (s.g b) = false := (badLanes_eq_false_iff _ _).mpr ⟨lo8, hi8, ordered, pool⟩
    have held' : (s.g a).toNat / 8 ≤ s.core.lots := held
    obtain ⟨n, grown, lower, upper⟩ := s.noteDecision.growLanes_setCore c k
    have upper' : n ≤ c.lots ∨ n ≤ (s.g b).toNat / 8 := upper
    obtain ⟨t, done, after⟩ := answers (c.setLots n) rfl rfl
    have vlen : t.core.csr.vlen.toNat = 8 * n := by rw [after.vlen, Core.setLots_vlen _ (by omega)]
    refine ⟨t, ?_, by omega, by omega, after.minLots, after.maxLots, after.vlen ▸ after.value, after.others, after.pc,
      after.rest⟩
    rw [exec_vclaim_held turn slot team retired good claim within held, ← done, ← vlenOf]
    exact congrArg (fun u : State => finishG u d (u.vlenOf s.cur)) grown
  case vreneg =>
    obtain ⟨n, set, least⟩ := State.renegotiate_cur (s := s.noteDecision) slot
    obtain ⟨t, done, after⟩ := answers (s.core.setLots n) rfl rfl
    refine ⟨t, ?_, after.vlen ▸ after.value, after.others, after.pc, after.rest, fun ⟨e, he, other⟩ _ => ?_⟩
    · rw [exec_vreneg_due turn retired, ← done, ← vlenOf]
      exact congrArg (fun u : State => finishG u d (u.vlenOf s.cur)) set
    · have blocked : s.noteDecision.othersBlocked (clusterOf s.cur) k = true := by
        rw [State.othersBlocked, State.blocked_noteDecision]
        exact List.any_eq_true.mpr ⟨e, he, bne_iff_ne.mpr other⟩
      have few : n = min s.core.lots s.core.minLots := least blocked
      have fit : n < 16 := by have := s.core.lots_lt; omega
      rw [after.vlen, Core.setLots_vlen _ fit, few]; rfl

end Sys2Proof.Machine

/-! # Releases (spec/08 R172, R184)

A release whose wait is over acts on the cluster and retires (`releaseWhen_acts`). Dropping pages takes them from one
team's map, and besides changes only bank groups, relocations and the list of units to be zeroed (`Cluster.dropPages_eq`),
so that no byte changes before the zeroing. -/

namespace Sys2Proof.Machine

/-! ## Relocations and pins (R186) -/

theorem Cluster.startReloc_eq (x : Cluster) (g : Nat) : ∃ l, x.startReloc g = { x with reloc := l } := by
  unfold Cluster.startReloc
  dsimp only
  split
  · exact ⟨_, rfl⟩
  · exact ⟨x.reloc, rfl⟩

theorem Cluster.foldl_startReloc_eq (gs : List Nat) (x : Cluster) :
    ∃ l, gs.foldl Cluster.startReloc x = { x with reloc := l } := by
  induction gs generalizing x with
  | nil => exact ⟨x.reloc, rfl⟩
  | cons g gs ih =>
    obtain ⟨_, started⟩ := x.startReloc_eq g
    rw [List.foldl_cons, started]
    exact ih _

theorem Cluster.leaveReloc_eq (x : Cluster) (ps : List Nat) : ∃ l, x.leaveReloc ps = { x with reloc := l } :=
  Cluster.foldl_startReloc_eq _ _

theorem Cluster.foldl_unpin_eq (t : Slot) (bs : List Nat) (x : Cluster) :
    ∃ groups l, bs.foldl (fun z b => z.unpin t b) x = { x with groups := groups, reloc := l } := by
  induction bs generalizing x with
  | nil => exact ⟨x.groups, x.reloc, rfl⟩
  | cons b bs ih => exact ih _

/-! ## What a release takes from a team's map -/

/-- The pages that `idx` lists leave the team's map. -/
def Team.withoutPages (idx : List Nat) (z : Team) : Team :=
  { z with pages := z.pages.filter fun e => !idx.contains e.1 }

/-- The blocks that `idx` lists leave the team's map. -/
def Team.withoutBlocks (idx : List Nat) (z : Team) : Team :=
  { z with blocks := z.blocks.filter fun e => !idx.contains e.1 }

section Drop
variable (x : Cluster) (t : Slot) (y : Team) (idx : List Nat)

theorem Cluster.dropPages_eq : ∃ groups l us, x.dropPages t y idx =
    { x.mapTeam t (.withoutPages idx) with groups := groups, reloc := l, zeroing := us } := by
  unfold Cluster.dropPages
  dsimp only
  obtain ⟨groups, _, unpinned⟩ := Cluster.foldl_unpin_eq t ((idx.filter (x.underBoard t)).map (· / 16)).eraseDups x
  rw [unpinned]
  obtain ⟨l, left⟩ := Cluster.leaveReloc_eq _ _
  exact ⟨groups, l, _, left⟩

/-- A page of the team's own that it releases is to be zeroed (R172). -/
theorem Cluster.page_mem_zeroing_dropPages {e : Nat × Nat} (mapped : e ∈ y.pages) (listed : e.1 ∈ idx)
    (own : x.underBoard t e.1 = false) : .page e.2 ∈ (x.dropPages t y idx).zeroing := by
  have gone : e ∈ y.pages.filter fun e => idx.contains e.1 :=
    List.mem_filter.mpr ⟨mapped, List.contains_iff_mem.mpr listed⟩
  have owned : e.2 ∈ ((y.pages.filter fun e => idx.contains e.1).filter fun e => !x.underBoard t e.1).map (·.2) :=
    List.mem_map_of_mem (List.mem_filter.mpr ⟨gone, by rw [own]; rfl⟩)
  unfold Cluster.dropPages
  dsimp only
  obtain ⟨_, left⟩ := Cluster.leaveReloc_eq _ _
  rw [left]
  refine List.mem_append_right _ (List.mem_map_of_mem (List.mem_filter.mpr ⟨?_, ?_⟩))
  · exact List.mem_eraseDups.mpr (List.mem_map_of_mem gone)
  · rw [List.contains_iff_mem.mpr owned, Bool.true_or]

theorem Cluster.teams_dropPages : (x.dropPages t y idx).teams[t] = (x.teams[t]).map (.withoutPages idx) := by
  obtain ⟨_, _, _, dropped⟩ := x.dropPages_eq t y idx
  rw [dropped]
  exact x.teams_mapTeam_self t _

theorem Cluster.teams_releaseAll : (x.releaseAll t y).teams[t] =
    ((x.teams[t]).map (.withoutPages (y.pages.map (·.1)))).map (.withoutBlocks (y.blocks.map (·.1))) := by
  rw [← x.teams_dropPages t y (y.pages.map (·.1))]
  exact Cluster.teams_mapTeam_self _ t _

/-- A release of pages changes no byte. -/
theorem Cluster.memory_dropPages : (x.dropPages t y idx).spm = x.spm ∧ (x.dropPages t y idx).acc = x.acc := by
  obtain ⟨_, _, _, dropped⟩ := x.dropPages_eq t y idx
  rw [dropped]
  exact ⟨rfl, rfl⟩

theorem Cluster.memory_releaseAll : (x.releaseAll t y).spm = x.spm ∧ (x.releaseAll t y).acc = x.acc := by
  unfold Cluster.releaseAll Cluster.dropBlocks
  exact x.memory_dropPages t y _

end Drop

/-- Nothing of a list is left once everything of it is dropped. -/
theorem filter_not_own_index (l : List (Nat × Nat)) : l.filter (fun e => !(l.map fun e => e.1).contains e.1) = [] := by
  rw [List.filter_eq_nil_iff]
  intro e he
  rw [List.contains_iff_mem.mpr (List.mem_map_of_mem he)]
  decide

/-! ## The wait of a release (R184) -/

/-- A release with nothing to wait for, whose boards are cleared, acts and retires. -/
theorem releaseWhen_acts {s : State} {k : Slot} {y : Team} {idx : List Nat} (act : Cluster → Cluster)
    (stored : s.core.storesDone .spm = true) (retired : s.core.vq = []) (idle : s.cmds = []) (unsaved : y.saved = [])
    (data : ∀ g ∈ (s.cl (clusterOf s.cur)).groups.toList, (s.cl (clusterOf s.cur)).releasing k idx g = true → g.mode = .data) :
    releaseWhen s k y idx act =
      .next (s.setCl (clusterOf s.cur) (act (s.cl (clusterOf s.cur)))).retire := by
  have fenced : s.core.clusterFenced = true := by rw [Core.clusterFenced, stored, retired]; rfl
  have quiet (n : Nat) : s.teamCommands s.curCluster k y n = false := by
    rw [State.teamCommands, State.pendingCmds, idle, unsaved]; rfl
  have clear : ((s.cl s.curCluster).groups.any fun g => (s.cl s.curCluster).releasing k idx g && g.delays) = false := by
    rw [← Vector.any_toList, List.any_eq_false]
    intro g hg waits
    obtain ⟨releases, delays⟩ := Bool.and_eq_true_iff.mp waits
    have still : g.delays = false := by rw [Group.delays, data g hg releases]; rfl
    exact absurd delays (by rw [still]; exact Bool.false_ne_true)
  have unconverting : (s.cl s.curCluster).converters k idx = [] := by
    rw [Cluster.converters, List.filterMap_eq_nil_iff]
    intro g hg
    refine if_neg fun converts => ?_
    obtain ⟨releases, converting⟩ := Bool.and_eq_true_iff.mp converts
    rw [data g hg releases] at converting
    exact absurd converting (by decide)
  simp only [releaseWhen, fenced, quiet, clear, unconverting, Bool.not_true, Bool.or_self, Bool.false_eq_true, if_false,
    List.foldl_nil]
  rfl

/-- A release of pages of which none is under a board releases no group. -/
theorem Cluster.releasing_of_no_board {x : Cluster} {t : Slot} {idx : List Nat}
    (own : ∀ i ∈ idx, x.underBoard t i = false) (g : Group) : x.releasing t idx g = false := by
  refine Bool.eq_false_iff.mpr fun releases => ?_
  obtain ⟨_, _, held⟩ := (Option.any_eq_true _ _).mp releases
  obtain ⟨i, hi, under⟩ := List.any_eq_true.mp (Bool.and_eq_true_iff.mp held).2
  rw [own i hi] at under
  exact absurd (Bool.and_eq_true_iff.mp under).2 Bool.false_ne_true

/-- A group that a release of the team's own pages releases is held by the team. -/
theorem Cluster.holder_of_releasing {x : Cluster} {t : Slot} {idx : List Nat} {g : Group}
    (releases : x.releasing t idx g = true) : (g.holder.any fun h => h.1 == t) = true := by
  obtain ⟨h, holder, held⟩ := (Option.any_eq_true _ _).mp releases
  exact (Option.any_eq_true _ _).mpr ⟨h, holder, (Bool.and_eq_true_iff.mp held).1⟩

/-! ## rel and relall (R184) -/

theorem mem_requested (r : Request) (i : Nat) :
    i ∈ (List.range r.units).map (r.base + ·) ↔ r.base ≤ i ∧ i < r.base + r.units := by
  simp only [List.mem_map, List.mem_range]
  constructor
  · rintro ⟨j, hj, rfl⟩; omega
  · exact fun ⟨lo, hi⟩ => ⟨i - r.base, by omega, by omega⟩

/-- A release of pages that are held as it says names none under a board. -/
theorem Request.own_of_held {r : Request} {x : Cluster} {t : Slot} {y : Team} (cls : r.cls = 1)
    (held : r.unheld x t y = false) : ∀ i ∈ (List.range r.units).map (r.base + ·), x.underBoard t i = false := by
  simp only [Request.unheld, cls, beq_self_eq_true, Bool.true_and, Bool.or_eq_false_iff, List.any_eq_false] at held
  exact fun i hi => Bool.eq_false_iff.mpr (held.1.2 i hi)

section Release
variable {s : State} {k : Slot} {y : Team} (slot : s.core.slot = some k)
  (team : s.team (clusterOf s.cur) k = some y) (stored : s.core.storesDone .spm = true) (retired : s.core.vq = [])
  (idle : s.cmds = []) (unsaved : y.saved = [])
include slot team stored retired idle unsaved

theorem exec_rel_pages {a : BitVec 5} (wellFormed : malformed (s.g a) = false) (cls : (Request.of (s.g a)).cls = 1)
    (held : (Request.of (s.g a)).unheld (s.cl (clusterOf s.cur)) k y = false) :
    let r := Request.of (s.g a)
    exec (.rel a) s = .next (s.setCl (clusterOf s.cur)
      ((s.cl (clusterOf s.cur)).dropPages k y ((List.range r.units).map (r.base + ·)))).retire := by
  intro r
  have held' : (Request.of (s.g a)).unheld (s.cl s.curCluster) k y = false := held
  have pages : r.teamPages = (List.range r.units).map (r.base + ·) := if_neg (by rw [show r.cls = 1 from cls]; decide)
  have act : (s.cl (clusterOf s.cur)).release k y r =
      (s.cl (clusterOf s.cur)).dropPages k y ((List.range r.units).map (r.base + ·)) :=
    if_neg (by rw [show r.cls = 1 from cls]; decide)
  change execRel a s = _
  simp only [execRel, wellFormed, slot, State.teamOf_cur slot team, held', Bool.and_false, Bool.false_eq_true, if_false]
  rw [← act]
  refine releaseWhen_acts _ stored retired idle unsaved fun g _ releases => ?_
  rw [pages, Cluster.releasing_of_no_board (Request.own_of_held cls held)] at releases
  exact absurd releases Bool.false_ne_true

theorem exec_relall_data (data : ∀ g ∈ (s.cl (clusterOf s.cur)).groups.toList,
    (g.holder.any fun h => h.1 == k) = true → g.mode = .data) :
    exec .relall s = .next (s.setCl (clusterOf s.cur) ((s.cl (clusterOf s.cur)).releaseAll k y)).retire := by
  change execRelall s = _
  simp only [execRelall, slot, State.teamOf_cur slot team]
  exact releaseWhen_acts _ stored retired idle unsaved fun g hg releases =>
    data g hg (Cluster.holder_of_releasing releases)

end Release

/-- Settles O33: with nothing left to wait for, both releases drop what they name and retire. -/
theorem releasesComplete : Obligations.ReleasesComplete := by
  unfold Obligations.ReleasesComplete
  intro s a k y q r slot team stored retired idle unsaved
  have team' : (s.cl q).teams[k] = some y := team
  refine ⟨fun wellFormed cls held => ?rel, fun data => ?relall⟩
  case rel =>
    let idx := (List.range r.units).map (r.base + ·)
    have units : r.units = r.count := if_neg (by rw [cls]; decide)
    have named (i : Nat) : idx.contains i = (decide (r.base ≤ i) && decide (i < r.base + r.count)) := by
      rw [Bool.eq_iff_iff, List.contains_iff_mem, mem_requested, units, Bool.and_eq_true, decide_eq_true_eq,
        decide_eq_true_eq]
    obtain ⟨spm, acc⟩ := (s.cl q).memory_dropPages k y idx
    refine ⟨_, y.withoutPages idx, exec_rel_pages slot team stored retired idle unsaved wellFormed cls held, ?_, ?_, rfl,
      (State.retire_wroteNothing _).core, (SameMemory.setCl spm acc).trans (SameMemory.retire _), fun e he lo hi => ?_⟩
    · rw [State.team_retire, State.team, State.cl_setCl_self, Cluster.teams_dropPages, team']; rfl
    · exact List.filter_congr fun e _ => congrArg (!·) (named e.1)
    · rw [State.retire_eq, State.cl_setCore, State.cl_setCl_self]
      have listed : e.1 ∈ idx := (mem_requested r e.1).mpr ⟨lo, by omega⟩
      exact (s.cl q).page_mem_zeroing_dropPages k y idx he listed (Request.own_of_held cls held e.1 listed)
  case relall =>
    obtain ⟨spm, acc⟩ := (s.cl q).memory_releaseAll k y
    let pages := y.pages.map (·.1)
    let blocks := y.blocks.map (·.1)
    refine ⟨_, (y.withoutPages pages).withoutBlocks blocks,
      exec_relall_data slot team stored retired idle unsaved data, ?_, filter_not_own_index y.pages, filter_not_own_index y.blocks,
      (State.retire_wroteNothing _).core, (SameMemory.setCl spm acc).trans (SameMemory.retire _)⟩
    rw [State.team_retire, State.team, State.cl_setCl_self, Cluster.teams_releaseAll, team']; rfl

end Sys2Proof.Machine

/-! # Events of the Claim Unit (spec/08 R172, R178, R186)

A cluster's one blocked acquire is granted as an acquire at its issue is; a zeroing and a relocation change one cluster,
whose scratchpad is then read page by page (`Memory.read_zero`, `Cluster.movePage_read`). -/

namespace Sys2Proof.Machine

/-! ## Bytes of a page -/

theorem Memory.read_zero_above (lo hi x : Nat) : ∀ {m : Mem} {b : Nat}, Memory.above b m = true →
    Memory.read (Memory.zero m lo hi) x = if lo ≤ x ∧ x < hi then 0 else Memory.read m x
  | [], _, _ => by simp [Memory.zero, Memory.read]
  | (k, v) :: m, _, wf => by
    obtain ⟨_, rest⟩ := Bool.and_eq_true_iff.mp wf
    have ih := Memory.read_zero_above lo hi x rest
    unfold Memory.zero at ih ⊢
    by_cases dropped : lo ≤ k ∧ k < hi
    · -- A cell within the range goes: a read at it, or below it within the range, gives 0 either way.
      rw [List.filter_cons_of_neg (by simp [dropped]), ih, Memory.read]
      by_cases inside : lo ≤ x ∧ x < hi
      · rw [if_pos inside, if_pos inside]
      · rw [if_neg inside, if_neg inside]
        by_cases below : x < k
        · rw [if_pos below]
          exact Memory.read_below (Nat.lt_succ_of_lt below) rest
        · rw [if_neg below, if_neg (by rintro rfl; exact inside dropped)]
    · -- A cell outside the range stays where it is.
      have keep : (!(decide (lo ≤ k) && decide (k < hi))) = true := by
        simp only [Bool.not_eq_true', Bool.and_eq_false_iff, decide_eq_false_iff_not]
        omega
      rw [List.filter_cons_of_pos (a := (k, v)) keep, Memory.read, Memory.read, ih]
      by_cases inside : lo ≤ x ∧ x < hi
      · have other : x ≠ k := by rintro rfl; exact dropped inside
        simp only [if_pos inside, if_neg other, ite_self]
      · simp only [if_neg inside]

/-- Zeroing a range gives 0 in it and leaves every other byte. -/
theorem Memory.read_zero {m : Mem} (wf : Memory.wf m = true) (lo hi x : Nat) :
    Memory.read (Memory.zero m lo hi) x = if lo ≤ x ∧ x < hi then 0 else Memory.read m x :=
  Memory.read_zero_above lo hi x wf

/-- Bytes moved to a new place are read there, wherever they came from. -/
theorem Memory.read_writeBytes_readBytes {m m' : Mem} (wf : Memory.wf m' = true) (src dst : Nat) {n j : Nat} (h : j < n) :
    Memory.read (Memory.writeBytes m' dst (Memory.readBytes m src n)) (dst + j) = Memory.read m (src + j) := by
  have bytes := Memory.readBytes_eq_map m n src
  have inside : j < (Memory.readBytes m src n).length := by rw [bytes, List.length_map, List.length_range]; exact h
  rw [Memory.read_writeBytes_inside _ dst j wf inside]
  simp only [bytes, List.getElem_map, List.getElem_range]

/-! ## A blocked acquire is granted (R178) -/

/-- An acquire whose team may still have the units that it names is not stale. -/
theorem State.stale_units {s : State} {q : ClusterId} {b : Blocked} {w : Word} {x : Team} (kind : b.kind = .units w)
    (team : s.team q b.team = some x) (unmapped : (Request.of w).overlaps x = false)
    (within : ∀ max, x.claim = some max → overClaim (s.allocation q b.team) (Request.of w).counts max = none) :
    s.stale q b = false := by
  rw [State.stale, team, Option.any_some, kind]
  cases claim : x.claim with
  | none => rfl
  | some max =>
    change (_ || _) = false
    rw [unmapped, within max claim]; rfl

/-- The cluster's only blocked request, an acquire that the banker allows, leaves the list, is granted, and retires. -/
theorem exec_redecide_units {s : State} {q : ClusterId} {b : Blocked} {w : Word} (only : (s.cl q).blocked = [b])
    (kind : b.kind = .units w) (current : s.stale q b = false) (allowed : s.bankerDecide q b.team b.req = 0) :
    exec (.blockedListRedecide q) s =
      let u := (s.setCl q { s.cl q with blocked := [] }).grantUnits q b.team (.of w)
      .next (u.setCoreAt (coreOf q b.core) (u.coreAt (coreOf q b.core)).retire) := by
  have left : dropFirst (· == b) [b] = [] := if_pos (beq_self_eq_true b)
  change fire s (some (s.redecide q (s.cl q).blocked)) = _
  rw [only, State.redecide, if_pos allowed, State.redecide]
  simp only [State.grantBlocked, only, left, current, kind, Bool.false_eq_true, if_false]
  rfl

/-! ## A zeroing ends (R172) -/

theorem exec_zeroingDone {s : State} {q : ClusterId} {u : ZeroUnit} {us : List ZeroUnit}
    (oldest : (s.cl q).zeroing = u :: us) :
    exec (.zeroingDone q) s = .next (s.setCl q { (s.cl q).zeroUnit u with zeroing := us }) := by
  change fire s (evZeroingDone q s) = _
  rw [evZeroingDone, oldest]; rfl

/-! ## A relocation ends (R186) -/

theorem Cluster.movePage_eq (x : Cluster) (p f : Nat) : ∃ bad teams, x.movePage p f =
    { x with
      spm := Memory.writeBytes (Memory.zero x.spm (p * 16384) ((p + 1) * 16384)) (f * 16384)
        (Memory.readBytes x.spm (p * 16384) 16384),
      badSpm := bad, teams := teams } := ⟨_, _, rfl⟩

theorem Cluster.movePage_read {x : Cluster} (wf : Memory.wf x.spm = true) (p f : Nat) {j : Nat} (h : j < 16384) :
    Memory.read (x.movePage p f).spm (f * 16384 + j) = Memory.read x.spm (p * 16384 + j) := by
  obtain ⟨_, _, moved⟩ := x.movePage_eq p f
  rw [moved, Memory.read_writeBytes_readBytes (Memory.wf_zero _ _ wf) _ _ h]

theorem Cluster.movePage_acc (x : Cluster) (p f : Nat) : (x.movePage p f).acc = x.acc := by
  obtain ⟨_, _, moved⟩ := x.movePage_eq p f
  rw [moved]

/-- The start of a group's next relocation brings no page among the relocations that was not there. -/
theorem Cluster.mem_reloc_startReloc {x : Cluster} {g : Nat} {e : Nat × Option Nat} (h : e ∈ (x.startReloc g).reloc) :
    ∃ e' ∈ x.reloc, e'.1 = e.1 := by
  unfold Cluster.startReloc at h
  dsimp only at h
  split at h
  · next p ps f mine _ =>
    have own (z : Nat × Option Nat) (hz : z ∈ (p, none) :: ps) : z ∈ x.reloc :=
      (List.mem_filter.mp (show z ∈ x.reloc.filter (·.1 / 16 == g) by rw [mine]; exact hz)).1
    rcases List.mem_append.mp h with elsewhere | here
    · exact ⟨e, (List.mem_filter.mp elsewhere).1, rfl⟩
    · rcases List.mem_cons.mp here with rfl | waiting
      · exact ⟨(p, none), own _ (List.mem_cons_self ..), rfl⟩
      · exact ⟨e, own e (List.mem_cons_of_mem _ waiting), rfl⟩
  · exact ⟨e, h, rfl⟩

theorem Cluster.relocOver_reloc (x : Cluster) (p : Nat) : ∀ e ∈ (x.relocOver p).reloc, e.1 ≠ p := by
  intro e he same
  obtain ⟨e', he', page⟩ := Cluster.mem_reloc_startReloc he
  have other := (List.mem_filter.mp he').2
  rw [page, same] at other
  exact absurd other (by simp)

theorem Cluster.relocOver_eq (x : Cluster) (p : Nat) : ∃ l, x.relocOver p = { x with reloc := l } :=
  Cluster.startReloc_eq _ _

/-- The oldest relocation under way, whose target is still free, moves its page there once neither is being zeroed. -/
theorem exec_pageRelocation {s : State} {q : ClusterId} {p f : Nat} {ps : List (Nat × Option Nat)}
    (oldest : (s.cl q).reloc = (p, some f) :: ps) (free : (s.cl q).pageFree f = true)
    (target : .page f ∉ (s.cl q).zeroing) (source : .page p ∉ (s.cl q).zeroing) :
    exec (.pageRelocation q) s = .next (s.setCl q (((s.cl q).movePage p f).relocOver p)) := by
  have found : (s.cl q).reloc.find? (·.2.isSome) = some (p, some f) := by rw [oldest]; rfl
  have ends : (s.cl q).relocEnd p f = some f := if_pos free
  have settled : ((s.cl q).zeroing.contains (.page f) || (s.cl q).zeroing.contains (.page p)) = false := by
    rw [Bool.or_eq_false_iff, Bool.eq_false_iff, Bool.eq_false_iff, Ne, Ne, List.contains_iff_mem, List.contains_iff_mem]
    exact ⟨target, source⟩
  change fire s (evPageRelocation q s) = _
  simp only [evPageRelocation, found, ends, settled, Bool.false_eq_true, if_false]
  rfl

/-- Settles O35: each event is the equation above that says what it makes of the state. -/
theorem claimUnitEventsComplete : Obligations.ClaimUnitEventsComplete := by
  unfold Obligations.ClaimUnitEventsComplete
  intro s q b w x p f us ps r
  refine ⟨fun only kind cls team unmapped within allowed => ?granted, fun oldest wf => ?zeroed,
    fun oldest free _ target source wf => ?moved⟩
  case granted =>
    have current := State.stale_units kind team unmapped within
    refine ⟨_, exec_redecide_units only kind current allowed, ?_, ?_, ?_, ?_⟩
    · rw [State.cl_setCoreAt, State.grantUnits, State.cl_setCl_self, State.cl_setCl_self, Cluster.grant_pages _ _ cls]; rfl
    · have team' : (s.setCl q { s.cl q with blocked := [] }).team q b.team = some x := by
        rw [State.team, State.cl_setCl_self]; exact team
      rw [State.team_setCoreAt, State.team_grantUnits_pages cls team', State.cl_setCl_self]; rfl
    · rw [State.coreAt_setCoreAt_self, Core.retire_wait]
    · rw [State.coreAt_setCoreAt_self, Core.retire_pc]; rfl
  case zeroed =>
    refine ⟨_, exec_zeroingDone oldest, ?_, ?_, ?_, fun e other => State.cl_setCl_ne s _ other, rfl, rfl⟩
    · rw [State.cl_setCl_self]
    · rw [State.cl_setCl_self]
      exact fun j => Memory.read_zero wf _ _ j
    · rw [State.cl_setCl_self]; rfl
  case moved =>
    obtain ⟨_, ended⟩ := ((s.cl q).movePage p f).relocOver_eq p
    refine ⟨_, exec_pageRelocation oldest free target source, ?_, ?_, ?_, fun e other => State.cl_setCl_ne s _ other,
      rfl, rfl⟩
    · rw [State.cl_setCl_self]; exact Cluster.relocOver_reloc _ p
    · intro j within
      rw [State.cl_setCl_self, ended, Cluster.movePage_read wf p f within]
    · rw [State.cl_setCl_self, ended, Cluster.movePage_acc]

end Sys2Proof.Machine

/-! # Barrier traps (spec/09 R207 to R213, spec/10 R218 and R219)

A barrier operation at its turn acts in a state that differs from the one of its issue in the record of that turn alone
(`State.atBarTurn`). Every arrival that is not counted already is `arriveBar` there (`Arrives`), so that its traps are
those of `arriveBar`, whose checks come before the fence. -/

namespace Sys2Proof.Machine

/-! ## The turn of a barrier operation (R213) -/

/-- The state in which a barrier operation acts at its turn: a wait under way decides nothing anew (R213). -/
def State.atBarTurn (s : State) : State := if s.core.barWait.isSome then s else s.noteBar

theorem barTurn_of_due {s : State} (turn : s.core.barWait = none → s.barLate = false) (go : State → Result) :
    barTurn s go = go s.atBarTurn := by
  unfold barTurn State.atBarTurn
  cases wait : s.core.barWait with
  | some w => rfl
  | none => rw [turn wait]; rfl

theorem State.cl_noteBar (s : State) (q : ClusterId) : ∃ d, s.noteBar.cl q = { s.cl q with barDecided := d } := by
  by_cases h : q = s.curCluster
  · exact ⟨_, by rw [h]; exact State.cl_setCl_self s _ _⟩
  · exact ⟨(s.cl q).barDecided, State.cl_setCl_ne s _ h⟩

theorem State.team_noteBar (s : State) (q : ClusterId) (m : Slot) : s.noteBar.team q m = s.team q m := by
  obtain ⟨_, h⟩ := s.cl_noteBar q
  rw [State.team, h]; rfl

section Turn
variable (s : State)

@[simp] theorem State.cur_atBarTurn : s.atBarTurn.cur = s.cur := by
  unfold State.atBarTurn; split <;> rfl

@[simp] theorem State.core_atBarTurn : s.atBarTurn.core = s.core := by
  unfold State.atBarTurn; split <;> rfl

@[simp] theorem State.team_atBarTurn (q : ClusterId) (m : Slot) : s.atBarTurn.team q m = s.team q m := by
  unfold State.atBarTurn
  split
  · rfl
  · exact s.team_noteBar q m

@[simp] theorem State.bar_atBarTurn (q : ClusterId) (m : Slot) (id : BitVec 8) : s.atBarTurn.bar q m id = s.bar q m id := by
  rw [State.bar, State.team_atBarTurn, State.bar]

@[simp] theorem State.g_atBarTurn (r : BitVec 5) : s.atBarTurn.g r = s.g r := by
  rw [State.g, State.core_atBarTurn, State.g]

@[simp] theorem State.barId_atBarTurn (a : BitVec 5) : s.atBarTurn.barId a = s.barId a := by
  rw [State.barId, State.g_atBarTurn, State.barId]

@[simp] theorem State.tcore_atBarTurn : s.atBarTurn.tcore = s.tcore := by
  rw [State.tcore, State.core_atBarTurn, State.tcore]

end Turn

/-! ## The checks of barrier operations (R207, R209, R210) -/

/-- The binding that an instruction of a core in a team slot finds. -/
theorem State.teamOf_bind_bar {s : State} {k : Slot} (slot : s.core.slot = some k) (id : BitVec 8) :
    (s.teamOf s.cur).bind (·.bar id) = s.bar (clusterOf s.cur) k id := by
  rw [State.teamOf, show (s.coreAt s.cur).slot = some k from slot]; rfl

/-- A binding refuses an arrival of a core that is no participant, has dropped, or has an arrival pending (R209). -/
def Barrier.Refuses (y : Barrier) (n : Nat) : Prop :=
  inSet y.parts n = false ∨ inSet y.dropped n = true ∨ inSet y.arrived n = true

theorem Barrier.refuses_iff (y : Barrier) (n : Nat) :
    y.Refuses n ↔ (!inSet y.parts n || inSet y.dropped n || inSet y.arrived n) = true := by
  simp only [Barrier.Refuses, Bool.or_eq_true, Bool.not_eq_true', or_assoc]

section Checks
variable {s : State} {k : Slot} (slot : s.core.slot = some k) {id : BitVec 8} {y : Barrier}
include slot

theorem arriveBar_of_unbound (unbound : s.bar (clusterOf s.cur) k id = none) (wait : State) (go : Slot → Barrier → Result) :
    arriveBar s id wait go = trap s causeBarUnbound (zext id) := by
  simp only [arriveBar, State.teamOf_bind_bar slot, slot, unbound]

theorem arriveBar_of_refuses (bound : s.bar (clusterOf s.cur) k id = some y) (refuses : y.Refuses s.tcore) (wait : State)
    (go : Slot → Barrier → Result) : arriveBar s id wait go = trap s causeBarOver (zext id) := by
  simp only [arriveBar, State.teamOf_bind_bar slot, slot, bound, if_pos ((y.refuses_iff _).mp refuses)]

/-- A bar.drop whose core has no arrival pending, or has dropped, arrives as any other does (R211, R218). -/
theorem dropBar_arrives {a : BitVec 5}
    (uncounted : ∀ y, s.bar (clusterOf s.cur) k (s.barId a) = some y →
      (inSet y.arrived s.tcore && !inSet y.dropped s.tcore) = false) (wait : State) :
    ∃ go, dropBar a wait s = arriveBar s (s.barId a) wait go := by
  simp only [dropBar, State.teamOf_bind_bar slot, slot]
  cases found : s.bar (clusterOf s.cur) k (s.barId a) with
  | none => exact ⟨_, rfl⟩
  | some y =>
    simp only [uncounted y found, Bool.false_eq_true, if_false]
    exact ⟨_, rfl⟩

/-- A bar.max that is no re-execution arrives as any other instruction does (R212). -/
theorem maxBar_arrives {d a b : BitVec 5}
    (fresh : ∀ y, s.bar (clusterOf s.cur) k (s.barId a) = some y → inSet y.maxDue s.tcore = false) (wait : State) :
    ∃ go, maxBar d a b wait s = arriveBar s (s.barId a) wait go := by
  simp only [maxBar, State.teamOf_bind_bar slot, slot]
  cases found : s.bar (clusterOf s.cur) k (s.barId a) with
  | none => exact ⟨_, rfl⟩
  | some y =>
    simp only [fresh y found, Bool.false_eq_true, if_false]
    exact ⟨_, rfl⟩

theorem awaitBar_of_unbound {a : BitVec 5} (unreleased : s.core.sync ≠ some (s.barId a, true))
    (unbound : s.bar (clusterOf s.cur) k (s.barId a) = none) :
    awaitBar a s = trap s causeBarUnbound (zext (s.barId a)) := by
  simp only [awaitBar, if_neg unreleased, State.teamOf_bind_bar slot, slot, unbound]

theorem bindBar_of_pending {a b : BitVec 5} {x : Team} (team : s.team (clusterOf s.cur) k = some x)
    (bound : x.bar (s.barId a) = some y) (pending : y.arrived ≠ 0) :
    bindBar a b s = trap s causeBarRebind (zext (s.barId a)) := by
  simp only [bindBar, slot, State.teamOf_cur slot team, bound, Option.any_some, bne_iff_ne.mpr pending, if_true]

end Checks

/-! ## Arrivals at their turn -/

/-- An instruction of the current core is an arrival at a barrier id, at its turn. -/
def Arrives (s : State) (i : Instr) (id : BitVec 8) : Prop :=
  ∃ wait go, exec i s = arriveBar s.atBarTurn id wait go

section Arrivals
variable {s : State} (turn : s.core.barWait = none → s.barLate = false)
include turn

theorem arrives_barArrive (a : BitVec 5) : Arrives s (.barArrive a) (s.barId a) := by
  change ∃ wait go, execBarArrive a s = arriveBar s.atBarTurn (s.barId a) wait go
  rw [execBarArrive, barTurn_of_due turn, State.barId_atBarTurn]
  exact ⟨_, _, rfl⟩

theorem arrives_barSync (a : BitVec 5) : Arrives s (.barSync a) (s.barId a) := by
  change ∃ wait go, execBarSync a s = arriveBar s.atBarTurn (s.barId a) wait go
  rw [execBarSync, barTurn_of_due turn, State.barId_atBarTurn]
  exact ⟨_, _, rfl⟩

variable {k : Slot} (slot : s.core.slot = some k)
include slot

theorem arrives_barDrop {a : BitVec 5} (uncounted : ∀ y, s.bar (clusterOf s.cur) k (s.barId a) = some y →
    (inSet y.arrived s.tcore && !inSet y.dropped s.tcore) = false) : Arrives s (.barDrop a) (s.barId a) := by
  obtain ⟨go, arrives⟩ := dropBar_arrives (s := s.atBarTurn) (k := k) (a := a) (by simpa using slot)
    (by simpa using uncounted) s
  rw [State.barId_atBarTurn] at arrives
  exact ⟨s, go, (barTurn_of_due turn _).trans arrives⟩

theorem arrives_barMax {d a b : BitVec 5}
    (fresh : ∀ y, s.bar (clusterOf s.cur) k (s.barId a) = some y → inSet y.maxDue s.tcore = false) :
    Arrives s (.barMax d a b) (s.barId a) := by
  obtain ⟨go, arrives⟩ := maxBar_arrives (s := s.atBarTurn) (k := k) (d := d) (a := a) (b := b) (by simpa using slot)
    (by simpa using fresh) s
  rw [State.barId_atBarTurn] at arrives
  exact ⟨s, go, (barTurn_of_due turn _).trans arrives⟩

end Arrivals

/-! ## The traps (R219) -/

/-- An instruction takes a trap at its turn, with a barrier id in TRAPAUX, and leaves every cluster and team as it was. -/
def BarTraps (s : State) (i : Instr) (cause : BitVec 8) (id : BitVec 8) : Prop :=
  ∃ t, exec i s = .next t ∧ Trapped s.atBarTurn t cause (zext id) ∧ t.clusters = s.atBarTurn.clusters ∧
    ∀ q m, t.team q m = s.team q m

section Traps
variable {s : State} (free : s.core.csr.kstate.intrap = false) {i : Instr} {id : BitVec 8}
include free

theorem barTraps_of_exec {cause : BitVec 8} (traps : exec i s = trap s.atBarTurn cause (zext id)) :
    BarTraps s i cause id := by
  obtain ⟨t, next, trapped, _⟩ := trap_trapped s.atBarTurn cause (zext id) (by rw [State.core_atBarTurn]; exact free)
  have clusters : t.clusters = s.atBarTurn.clusters := by rw [trapped.rest]; rfl
  have team (q : ClusterId) (m : Slot) : t.team q m = s.team q m := by
    rw [← s.team_atBarTurn q m, State.team, State.cl, clusters]; rfl
  exact ⟨t, traps.trans next, trapped, clusters, team⟩

variable {k : Slot} (slot : s.core.slot = some k)
include slot

theorem Arrives.traps_of_unbound (arrives : Arrives s i id) (unbound : s.bar (clusterOf s.cur) k id = none) :
    BarTraps s i 0x92 id := by
  obtain ⟨wait, go, arrival⟩ := arrives
  exact barTraps_of_exec free (arrival.trans (arriveBar_of_unbound (by simpa using slot) (by simpa using unbound) wait go))

theorem Arrives.traps_of_refuses (arrives : Arrives s i id) {y : Barrier} (bound : s.bar (clusterOf s.cur) k id = some y)
    (refuses : y.Refuses s.tcore) : BarTraps s i 0x91 id := by
  obtain ⟨wait, go, arrival⟩ := arrives
  exact barTraps_of_exec free (arrival.trans
    (arriveBar_of_refuses (by simpa using slot) (by simpa using bound) (by simpa using refuses) wait go))

variable (turn : s.core.barWait = none → s.barLate = false)
include turn

theorem barTraps_barWait {a : BitVec 5} (unbound : s.bar (clusterOf s.cur) k (s.barId a) = none)
    (unreleased : s.core.sync ≠ some (s.barId a, true)) : BarTraps s (.barWait a) 0x92 (s.barId a) := by
  have waits := awaitBar_of_unbound (s := s.atBarTurn) (a := a) (by simpa using slot) (by simpa using unreleased)
    (by simpa using unbound)
  rw [State.barId_atBarTurn] at waits
  exact barTraps_of_exec free ((barTurn_of_due turn _).trans waits)

theorem barTraps_barDef {a b : BitVec 5} {x : Team} {y : Barrier} (team : s.team (clusterOf s.cur) k = some x)
    (bound : x.bar (s.barId a) = some y) (pending : y.arrived ≠ 0) : BarTraps s (.barDef a b) 0x93 (s.barId a) := by
  have binds := bindBar_of_pending (s := s.atBarTurn) (a := a) (b := b) (by simpa using slot) (by simpa using team)
    (by simpa using bound) pending
  rw [State.barId_atBarTurn] at binds
  exact barTraps_of_exec free ((barTurn_of_due turn _).trans binds)

end Traps

/-- Settles O52: each instruction is `arriveBar`, `awaitBar` or `bindBar` at its turn, whose checks trap there, and the
turn changes no team (`barTraps_of_exec`). -/
theorem barrierTrapsChangeNothing : Obligations.BarrierTrapsChangeNothing := by
  unfold Obligations.BarrierTrapsChangeNothing
  intro s d a b k x id n z traps turn free slot team
  have bars : s.bar (clusterOf s.cur) k id = x.bar id := by rw [State.bar, team]; rfl
  refine ⟨fun unbound => ?unbound, fun y bound => ?bound⟩
  case unbound =>
    have unbound := bars.trans unbound
    have noBinding (P : Barrier → Prop) : ∀ y, s.bar (clusterOf s.cur) k id = some y → P y :=
      fun y bound => nomatch unbound.symm.trans bound
    exact ⟨(arrives_barArrive turn a).traps_of_unbound free slot unbound,
      (arrives_barSync turn a).traps_of_unbound free slot unbound,
      (arrives_barDrop turn slot (noBinding _)).traps_of_unbound free slot unbound,
      (arrives_barMax turn slot (noBinding _)).traps_of_unbound free slot unbound,
      barTraps_barWait free slot turn unbound⟩
  case bound =>
    have found := bars.trans bound
    have thisBinding (P : Barrier → Prop) (holds : P y) : ∀ y', s.bar (clusterOf s.cur) k id = some y' → P y' :=
      fun y' bound' => Option.some.inj (found.symm.trans bound') ▸ holds
    refine ⟨fun refuses => ⟨?arrive, ?sync, fun fresh => ?max⟩, fun gone => ?drop,
      barTraps_barDef free slot turn team bound⟩
    case arrive => exact (arrives_barArrive turn a).traps_of_refuses free slot found refuses
    case sync => exact (arrives_barSync turn a).traps_of_refuses free slot found refuses
    case max => exact (arrives_barMax turn slot (thisBinding _ fresh)).traps_of_refuses free slot found refuses
    case drop =>
      have uncounted : (inSet y.arrived n && !inSet y.dropped n) = false := by
        rcases gone with dropped | ⟨_, unarrived⟩
        · rw [dropped]; exact Bool.and_false _
        · rw [unarrived]; rfl
      have refuses : y.Refuses n := by
        rcases gone with dropped | ⟨stranger, _⟩
        · exact .inr (.inl dropped)
        · exact .inl stranger
      exact (arrives_barDrop turn slot (thisBinding _ uncounted)).traps_of_refuses free slot found refuses

end Sys2Proof.Machine
